-- ==== Sys2Proof/Word.lean ====
section
/-! DEFINITION. The word types of the model: what the manual treats as bits (R8, R10). -/

namespace Sys2Proof

/-- A byte (R8). -/
abbrev Byte := BitVec 8
/-- A half word of 16 bits: an error code (R15), a field pair. -/
abbrev Half := BitVec 16
/-- A word (R8): a register, a word unit value, a pantry word. -/
abbrev Word := BitVec 32
/-- A double word: mailbox data, a batch number, a BP instruction. -/
abbrev DWord := BitVec 64
/-- A quad word: a word unit instruction, a service template, the payload of a link cell. -/
abbrev QWord := BitVec 128

end Sys2Proof
end

