-- ==== Sys2Proof/Machine/Bits.lean ====
section
/-! DEFINITION. Bit fields, byte order and sign, and the sparse tables that hold storage. -/

namespace Sys2Proof.Machine

/-- Bits [hi : lo] of a vector as a number (R10). -/
def bits {w : Nat} (x : BitVec w) (hi lo : Nat) : Nat := (x.extractLsb' lo (hi + 1 - lo)).toNat

/-- Bit i of a vector. -/
def bit {w : Nat} (x : BitVec w) (i : Nat) : Bool := x.getLsbD i

/-- A truth value as a number. -/
def b2n (b : Bool) : Nat := if b then 1 else 0

/-- A truth value at bit position i of a word. -/
def flagAt (b : Bool) (i : Nat) : Word := BitVec.ofNat 32 (b2n b * 2 ^ i)

/-- The word x with bits [hi : lo] replaced by the low bits of v. -/
def setBits (x : Word) (hi lo : Nat) (v : Nat) : Word :=
  let m : Word := BitVec.ofNat 32 ((2 ^ (hi + 1 - lo) - 1) * 2 ^ lo)
  (x &&& ~~~m) ||| (BitVec.ofNat 32 (v * 2 ^ lo) &&& m)

/-- The word x with bit i set to b. -/
def setBit (x : Word) (i : Nat) (b : Bool) : Word := setBits x i i (b2n b)

/-- Low word of a double word. -/
def lo32 (x : DWord) : Word := x.setWidth 32
/-- High word of a double word. -/
def hi32 (x : DWord) : Word := (x >>> 32).setWidth 32
/-- A double word from its halves. -/
def join32 (hi lo : Word) : DWord := hi ++ lo

/-- The n bytes of a number, least significant first (R8: little-endian). -/
def leBytes : Nat → Nat → List Byte
  | 0, _ => []
  | n + 1, v => BitVec.ofNat 8 v :: leBytes n (v / 256)

/-- The number that bytes spell, least significant first. -/
def leNat : List Byte → Nat
  | [] => 0
  | b :: rest => b.toNat + 256 * leNat rest

/-- The sum of a list, saturating at `m` (saturating counters). -/
def satAdd (m x y : Nat) : Nat := min m (x + y)

/-- The number x divided by y, rounded up. -/
def ceilDiv (x y : Nat) : Nat := (x + y - 1) / y

/-- An integer narrowed to a signed field of w bits, saturating. -/
def satInt (w : Nat) (x : Int) : BitVec w :=
  let hi : Int := 2 ^ (w - 1) - 1
  let lo : Int := -(2 ^ (w - 1))
  BitVec.ofInt w (max lo (min hi x))

/-- A sparse table: rising keys, no entry equal to what an unlisted key reads as. -/
abbrev Table (α : Type) := List (Nat × α)

/-- The value at key k; an unlisted key reads as `d k`. -/
def Table.get {α : Type} (d : Nat → α) (m : Table α) (k : Nat) : α :=
  match m with
  | [] => d k
  | (a, v) :: rest => if k = a then v else if k < a then d k else Table.get d rest k

/-- The table with key k set to v, in canonical form: an entry equal to `d k` is not listed. -/
def Table.set {α : Type} [DecidableEq α] (d : Nat → α) (m : Table α) (k : Nat) (v : α) : Table α :=
  match m with
  | [] => if v = d k then [] else [(k, v)]
  | (a, x) :: rest =>
    if k = a then (if v = d k then rest else (k, v) :: rest)
    else if k < a then (if v = d k then (a, x) :: rest else (k, v) :: (a, x) :: rest)
    else (a, x) :: Table.set d rest k v

/-- The canonical form from key `lo` upwards. -/
def Table.wfFrom {α : Type} [DecidableEq α] (d : Nat → α) (lo : Nat) : Table α → Bool
  | [] => true
  | (a, v) :: rest => decide (lo ≤ a) && decide (v ≠ d a) && Table.wfFrom d (a + 1) rest

/-- The canonical form of a table: keys rise and no entry is what an unlisted key reads as. -/
def Table.wf {α : Type} [DecidableEq α] (d : Nat → α) (m : Table α) : Bool := Table.wfFrom d 0 m

/-- The table without the keys from `lo` below `hi`: they read as the default again. -/
def Table.clear {α : Type} (m : Table α) (lo hi : Nat) : Table α :=
  m.filter fun e => e.1 < lo || hi ≤ e.1

/-- Byte storage: a table of bytes (the pairs of Host.Cell). -/
abbrev Memory := Table Byte

/-- Memory that nothing has written reads as zero: SRAM by R512 phase 6; DDR by assumption 3. -/
def Memory.init (_ : Nat) : Byte := 0

/-- One byte of memory. -/
def Memory.read (m : Memory) (a : Nat) : Byte := Table.get Memory.init m a

/-- Memory with one byte written. -/
def Memory.write (m : Memory) (a : Nat) (b : Byte) : Memory := Table.set Memory.init m a b

/-- The canonical form of a memory. -/
def Memory.wf (m : Memory) : Bool := Table.wf Memory.init m

/-- n bytes from address a, the lowest address first. -/
def Memory.readBytes (m : Memory) (a : Nat) : Nat → List Byte
  | 0 => []
  | n + 1 => Memory.read m a :: Memory.readBytes m (a + 1) n

/-- Bytes written from address a on, the first at a. -/
def Memory.writeBytes (m : Memory) (a : Nat) : List Byte → Memory
  | [] => m
  | b :: rest => Memory.writeBytes (Memory.write m a b) (a + 1) rest

/-- n bytes from address a as a little-endian number. -/
def Memory.readNat (m : Memory) (a n : Nat) : Nat := leNat (Memory.readBytes m a n)

/-- A number written as n little-endian bytes. -/
def Memory.writeNat (m : Memory) (a n v : Nat) : Memory := Memory.writeBytes m a (leBytes n v)

/-- The bytes of [a, a + n) zeroed: they read as nothing has written them. -/
def Memory.zero (m : Memory) (a n : Nat) : Memory := Table.clear m a (a + n)

end Sys2Proof.Machine
end

