-- ==== Sys2Proof/Machine/Types.lean ====
section
/-! DEFINITION. The data that the commands carry and the state holds: instruction fields, packets,
link cells, descriptors. Each is plain data with the manual's own names. -/

namespace Sys2Proof.Machine

/-- The fields of a word unit instruction beside OP (R94). -/
structure WuFields where
  tap : Bool
  rsvdHi : Bool
  dst : Byte
  sa : Byte
  sb : Byte
  sc : Byte
  am : BitVec 2
  bm : BitVec 2
  cc : BitVec 4
  p1 : Byte
  p2 : Byte
  imm : Word
  rsvdLo : Word
  deriving DecidableEq, Repr

/-- The kind of an exchange packet (R115): KIND 1, 2, 3; 0 is not a packet's kind but is kept so
that the two bits of a received flit have a name each. -/
inductive PktKind where
  | invalid | mailbox | flag | queue
  deriving DecidableEq, Repr

/-- The OUTCOME of an answer (R370). -/
inductive AnsOutcome where
  | accepted | refused | stale | unserved | unreachable | reserved
  deriving DecidableEq, Repr

/-- An exchange packet (R123, R370). `tag` is the sender's batch number; the route fields are those
of the route flit. A packet of this device's own tiles leaves its route fields at zero (R346). -/
structure Packet where
  dstDev : Byte
  srcDev : Byte
  count : Nat
  next : Nat
  half : BitVec 12
  hop : BitVec 36
  rcount : Nat
  ret : BitVec 44
  tag : DWord
  dstVt : Nat
  srcVt : Nat
  kind : PktKind
  index : Nat
  flag : Nat
  entry : Nat
  data : DWord
  /-- The step that issued it (kept at the source for DEST_INVALID's PG_ERR_INFO, R142). -/
  step : Nat
  deriving DecidableEq, Repr

/-- An answer to a remote packet (R350, R370). -/
structure Answer where
  dstDev : Byte
  srcDev : Byte
  rcount : Nat
  ret : BitVec 44
  xbatch : DWord
  srcVt : Nat
  dstVt : Nat
  outcome : AnsOutcome
  entry : Nat
  tag : Half
  deriving DecidableEq, Repr

/-- A link packet as its cells carry it (R369): SEQ, VN, LEN and the flits. -/
structure LinkPacket where
  seq : BitVec 12
  vn : BitVec 2
  len : BitVec 2
  rsvd : BitVec 80
  crc : Word
  flits : List QWord
  deriving DecidableEq, Repr

/-- An SVC token on its way to the dispatcher (R219), with its template; `lead` says that an SVC word of the tile
uses it for token 0. -/
structure Token where
  data : DWord
  batch : DWord
  vtile : Nat
  token : Nat
  tmplNo : Nat
  tmpl : QWord
  lead : Bool
  deriving DecidableEq, Repr

/-- A porter descriptor as read from host memory (R63): its first 28 bytes. -/
structure Descriptor where
  hostAddr : DWord
  devAddr : DWord
  length : Word
  tag : Half
  rsvd : BitVec 10
  fence : Bool
  irq : Bool
  tgt : BitVec 3
  dir : Bool
  deriving DecidableEq, Repr

/-- What the SPD read and training of one DDR channel gave (R296, R550). `fail` is the failing step
and slot, when a step failed. -/
structure ChannelProbe where
  dimms : Nat
  gib : Nat
  rankLog2 : Nat
  rate : Nat
  brokenRow : Option Nat
  fail : Option (Nat × Nat)
  deriving DecidableEq, Repr

/-- What a self-test slice found (R496). -/
structure SliceResult where
  result : Nat
  coverage : Nat
  durationUs : Word
  failures : Word
  columns : List Word
  /-- the sensors, lanes or other analogue elements that failed -/
  elements : List Nat
  deriving DecidableEq, Repr

/-- VIN at a cold start, in mV: its lowest value since the reset began, and its value now (R519, R525). -/
structure VinRise where
  low : Nat
  mv : Nat
  deriving DecidableEq, Repr

/-- A single fault that starts a recovery (R485). -/
inductive FaultUnit where
  /-- an uncorrectable SRAM error of a tile: its store by R294, bank and word -/
  | tileUe (ptile store bank word : Nat)
  | tileCheck (ptile : Nat) (unit : Nat)
  | engine (n : Nat)
  /-- an uncorrectable error of a larder bank at a word of 64 bytes -/
  | larderBank (bank word : Nat)
  | larderCleanLine (line : DWord)
  /-- a single-bit error in an SRAM word: corrected and counted (R293) -/
  | corrected
  deriving DecidableEq, Repr

/-- What the DRAM meets in an access to a channel: nothing, an error of one device that the channel corrects (rank,
device 0 to 19, row), or an error that it cannot correct (R300, R301). -/
inductive Dram where
  | clean
  | corrected (rank dev row : Nat)
  | failed
  deriving DecidableEq, Repr

/-- The place of a register write: its offset in the BAR, and for an alias page the tile that it was resolved to
when it was taken, if that was before the write is carried out (R45). -/
structure RegPlace where
  off : Nat
  early : Option Nat
  deriving DecidableEq, Repr

/-- What a register write goes through: BAR0 or BAR4, or a request to the configuration space of the function (R35, R39;
assumption 66). -/
inductive WritePath where
  | mem (bar4 : Bool)
  | config
  deriving DecidableEq, Repr

/-- A place that the path has: BAR0 and BAR4 span 64 MiB each, the configuration space 4 KiB, of which a request writes
bytes of one word. -/
def WritePath.fits (path : WritePath) (place : RegPlace) (size : Nat) : Bool :=
  match path with
  | .mem _ => decide (place.off < 2 ^ 26) && place.early.all fun t => decide (t < 136)
  | .config => decide (place.off < 2 ^ 12) && decide (1 ≤ size) && decide (place.off % 4 + size ≤ 4)

/-- The place of a write through BAR2: its offset, and what the DRAM meets there (R301). -/
structure Bar2Place where
  off : Nat
  dram : Dram
  deriving DecidableEq, Repr

/-- What a receive lane shows: its clock recovery or its comma lock lost, and lane errors met besides (R374,
R384). -/
structure LaneEvent where
  cdrLost : Bool
  lost : Bool
  errors : Nat
  deriving DecidableEq, Repr

/-- What the receive lanes hold in LOCK or SWAP: phase, comma and polarity lock, and phase lock with no comma yet
(R364). -/
structure LaneLock where
  locked : BitVec 9
  phase : BitVec 9
  deriving DecidableEq, Repr

/-- The master a register read comes through: a PCIe view, or a path whose own PEEK applies
(DBG_CFG.PEEK of the JTAG path, R462). -/
inductive Via where
  | bar0 | bar4 | jtag | i2c
  deriving DecidableEq, Repr

end Sys2Proof.Machine
end

