-- ==== Sys2Proof/Syntax.lean ====
section
/-! DEFINITION. The commands of the block: one constructor per row of spec/opcode_table.json, with
the operands that the event or the register access carries. -/

namespace Sys2Proof

open Sys2Proof.Machine

/-- The commands. A unit operand is a number as the manual counts the unit; `via` is the view a
register read comes through; `ue` says what the DRAM meets
in the access (R300, R301). -/
inductive Instr where
  /-- R512: VIN rises through 4.40 V or RST_N is released, and the device runs the cold start
  phases from the AON oscillator up to DDR training. -/
  | coldStart (vin : VinRise) (edges : List Nat) (xtal : Bool) (idbase : BitVec 4)
  /-- R525: VIN stays below 4.10 V for 2 µs, and the device takes a cold reset with source brown-
  out. -/
  | brownOut
  /-- R506: RST_N is taken as low after 25 consecutive low AON samples, and the device enters cold
  reset. -/
  | rstNAsserted
  /-- R527: Input current stays above 46 A for 10 µs, and the device takes a cold reset recorded
  as brown-out. -/
  | inputCurrentLimit
  /-- R528: VIO crosses its on or off threshold; while VIO is off the device takes RST_N as low.
  -/
  | vioChange (mv : Nat)
  /-- R536: A VDIO bank goes off or comes on, changing its pins, its DIN values, VDIO_LOW and
  ALERT_N. -/
  | vdioBankChange (bank mv : Nat)
  /-- R509: WRST_N or GLB_RST_CMD.WARM starts a warm reset: tiles stop, operations end, the undo
  log is applied and DDR enters self-refresh. -/
  | warmReset (pin : Bool) (value : Word)
  /-- R509: The latest of 2 ms after assertion, the end of undo, and the release of WRST_N is
  reached, and the device leaves warm reset in IDLE. -/
  | warmResetExit
  /-- R37: PERST_N resets the PCIe endpoint and the porters; transfers in flight are discarded and
  recorded on the porter pages. -/
  | perstNAsserted
  /-- R513: PERST_N is released and PCIe link training begins, with Request Retry Status for 20
  ms. -/
  | perstNReleased
  /-- R513: 20 ms after link training began, the endpoint starts completing configuration requests
  normally. -/
  | pcieRetryWindowEnd
  /-- R388: No REFCLK100 edge arrives for 100 ns; the time base passes to AON, both domains go
  LOST and the output enters HOLDOVER. -/
  | refclkLost
  /-- R296: SPD read and channel training end in success or failure, completing phase 7. -/
  | ddrDone (probes : List ChannelProbe) (dimms : List (List DWord))
  /-- R512: A channel reaches the 1 s training limit and is recorded as DDR_TRAIN. -/
  | ddrTrainLimit (ch stp slot : Nat)
  /-- R186: Once SRAM_READY and chain STABLE hold (or at A + 10 ms), the loader reads one image
  from the SPI boot flash. -/
  | autoload (bytes : List Byte)
  /-- R516: GLB_RST_CMD.SHUTDOWN runs the planned shutdown: unload, optional self-test, hard
  repair, flash writes, key clear and power-off. -/
  | shutdown (value : Word)
  /-- R70: MCH_IN has been low for 200 µs since AON start, and the device becomes head with ID
  IDBASE × 16. -/
  | chainHead
  /-- R70: A management chain frame arrives on MCH_IN and the device takes, confirms or changes
  its ID. -/
  | chainFrame (bits : BitVec 11) (afterIdle : Bool)
  /-- R70: The frame timer expires and a device with VALID sends its ID frame on MCH_OUT. -/
  | chainFrameSend
  /-- R57: An I²C transaction writes one register of the PWR page, or only sets the offset. -/
  | i2cWrite (addr : BitVec 7) (off : BitVec 16) (val : Option Word)
  /-- R57: An I²C transaction reads consecutive global-page registers from the set offset. -/
  | i2cRead (addr : BitVec 7) (off : Option (BitVec 16)) (n : Nat)
  /-- R59: The byte ? arrives on RXD and the console queues status lines for four registers. -/
  | uartQuery (b : Byte)
  /-- R59: The console finishes sending a line and frees its space. -/
  | uartLineSent
  /-- R41: A BAR0 or BAR4 write to a register without behaviour of its own stores its fields,
  after the view, mapping and size checks. A write of the configuration space comes through it too. -/
  | registerWrite (path : WritePath) (place : RegPlace) (size : Nat) (data : DWord)
  /-- R48: A write that clears PG_CTRL.EN stops the block accepting work and starts its drain. -/
  | pageDisable (page : Nat)
  /-- R48: A write of PG_CTRL.SRST clears EN, returns the page and its block to reset, and clears
  SRST. -/
  | pageReset (page : Nat)
  /-- R48: The page reset completes within its limit and SRST reads 0. -/
  | pageResetDone (page : Nat)
  /-- R493: A disabled block reaches its drain limit, discards remaining work and reports it. -/
  | drainLimitExpiry (page : Nat)
  /-- R60: A write to PG_INT_STAT clears cause bits and resends an MSI-X message if a cause is
  still pending. -/
  | pgIntStatWrite (page : Nat) (val : Word)
  /-- R60: A write to PG_INT_EN changes the enabled causes and resends an MSI-X message if a cause
  is still pending. -/
  | pgIntEnWrite (page : Nat) (val : Word)
  /-- R49: A write of CLR clears PG_ERR_CODE and PG_ERR_INFO. -/
  | pgErrClr (page : Nat) (val : Word)
  /-- R43: A BAR2 read is resolved through the window and reaches DDR through the encryption
  engine. -/
  | bar2Read (off size : Nat) (ue : Dram)
  /-- R43: A BAR2 write is resolved through the window, snoops the cache and reaches DDR through
  the engine. -/
  | bar2Write (place : Bar2Place) (bytes : List Byte)
  /-- R62: A TAIL write hands descriptors to the porter. -/
  | pciPorterTailWrite (p : Nat) (val : Word)
  /-- R63: A porter takes a descriptor, checks it and moves its bytes to or from its target. -/
  | porterDescriptor (p : Nat) (d : Descriptor) (hostBytes : Option (List Byte)) (drams : List (Nat × Dram))
  /-- R65: The porter writes a descriptor's status in ring order, advances HEAD and sets DONE if
  IRQ is set. -/
  | porterDescriptorDone (p : Nat)
  /-- R224: A SUBMIT write queues a host descriptor on the supervisor or debug queue, or refuses
  it. -/
  | svcHqSubmit (q : Nat) (val : Word)
  /-- R243: A read of SVC_HQ_CPL returns a completion and pops it unless PEEK is set. -/
  | svcHqCplRead (q : Nat) (via : Via)
  /-- R237: A host write of the outbound HOST index frees ring space and returns parked XOUT
  items. -/
  | svcXoutPtrWrite (c : Nat) (val : Word)
  /-- R237: A host write of the inbound HOST index supplies words and returns parked XIN items. -/
  | svcXinPtrWrite (c : Nat) (val : Word)
  /-- R245: A write of EN to 1 on a transactor ring sets DEV to HOST. -/
  | svcXchEnWrite (c : Nat) (inbound : Bool) (val : Word)
  /-- R235: SVC_CACHE_CTRL.FLUSH writes back every dirty line of the model cache. -/
  | svcCacheFlush (val : Word)
  /-- R219: An SVC token reaches the dispatcher and joins or opens a matching-store entry,
  completing it when all needed tokens are present. -/
  | svcTokenArrival (k : Nat)
  /-- R225: An engine is free and the dispatcher starts the first dispatchable item of the highest
  level. -/
  | dispatch (eng : Nat)
  /-- R229: A memory read item reads SIZE bytes at the computed address and completes. -/
  | mread (eng : Nat) (ue : Dram)
  /-- R229: A memory write item writes SIZE bytes at the computed address and completes. -/
  | mwrite (eng : Nat) (ue : Dram)
  /-- R230: An atomic read-modify-write item applies its OP to the old value and returns it. -/
  | mrmw (eng : Nat) (ue : Dram)
  /-- R236: A transactor item appends an outbound record, or parks on a full ring. -/
  | xout (eng : Nat) (ue : Dram)
  /-- R236: A transactor item takes the next inbound word, or parks on an empty ring, and logs it.
  -/
  | xin (eng : Nat) (ue : Dram)
  /-- R215: A cache fill item fills model cache lines from DDR. -/
  | cfill (eng : Nat) (ue : Dram)
  /-- R234: A cache evict item writes back, or invalidates, the lines of a range. -/
  | cevict (eng : Nat)
  /-- R440: A spill item writes one complete acquisition block to the DDR ring and advances DEV.
  -/
  | tspill (eng : Nat) (ue : Dram)
  /-- R441: A directory item writes a segment's 32-byte directory entry. -/
  | tcompact (eng : Nat) (ue : Dram)
  /-- R478: A proof save item writes tile state and dirty pantry lines into the target slot. -/
  | psave (eng : Nat) (ue : Dram)
  /-- R486: A proof restore item writes proof contents back into the tiles. -/
  | prestore (eng : Nat) (ue : Dram)
  /-- R302: A scrub item reads, corrects and writes back a range of DDR lines atomically. -/
  | scrub (eng : Nat) (corrected : List (Nat × Nat × Nat × Nat)) (bad : List Nat)
  /-- R461: A crier item writes a CRIER record into the acquisition stream, or is discarded. -/
  | crier (eng : Nat)
  /-- R231: 160 ns after a refusal, the dispatcher sends a kept completion again. -/
  | completionResend (item : Nat)
  /-- R256: A deferrable item held for PWR_DEFER_MAX becomes dispatchable and is recorded. -/
  | deferForced (item : Nat)
  /-- R22: When every start condition holds, the device samples design inputs, logs them and
  releases every active tile at step 0. -/
  | batchStart
  /-- R257: A batch start held by the ledger longer than PWR_STARVE_LIMIT is recorded and raises
  ALERT_N. -/
  | paceStarved
  /-- R74: A tile executes step s: its BP instructions, WU instructions and control word. -/
  | tileStep (t : Nat)
  /-- R95: A WU no-op writes nothing. -/
  | wuNop (t u : Nat) (f : WuFields)
  /-- R95: A WU copies b to DST. -/
  | mov (t u : Nat) (f : WuFields)
  /-- R95: A WU adds a and b modulo 2^32. -/
  | add (t u : Nat) (f : WuFields)
  /-- R95: A WU subtracts b from a modulo 2^32. -/
  | sub (t u : Nat) (f : WuFields)
  /-- R95: A WU computes a AND b. -/
  | and (t u : Nat) (f : WuFields)
  /-- R95: A WU computes a OR b. -/
  | or (t u : Nat) (f : WuFields)
  /-- R95: A WU computes a XOR b. -/
  | xor (t u : Nat) (f : WuFields)
  /-- R96: A WU gives 1 if a CC b holds, else 0. -/
  | cmp (t u : Nat) (f : WuFields)
  /-- R95: A WU selects a or b by c[0]. -/
  | sel (t u : Nat) (f : WuFields)
  /-- R95: A WU shifts a left by n with zeros in. -/
  | shl (t u : Nat) (f : WuFields)
  /-- R95: A WU shifts a right by n with zeros in. -/
  | shr (t u : Nat) (f : WuFields)
  /-- R95: A WU shifts a right by n with sign copies in. -/
  | sar (t u : Nat) (f : WuFields)
  /-- R95: A WU rotates a right by n. -/
  | ror (t u : Nat) (f : WuFields)
  /-- R95: A WU extracts a field of a. -/
  | ext (t u : Nat) (f : WuFields)
  /-- R95: A WU inserts a shifted field of a into c. -/
  | ins (t u : Nat) (f : WuFields)
  /-- R95: A WU merges the masked bits of a into c. -/
  | mrg (t u : Nat) (f : WuFields)
  /-- R95: A WU writes the unsigned 64-bit product to DST and DST + 1. -/
  | mulu (t u : Nat) (f : WuFields)
  /-- R95: A WU writes the signed 64-bit product to DST and DST + 1. -/
  | muls (t u : Nat) (f : WuFields)
  /-- R102: A WU loads a rotated pantry word. -/
  | ld (t u : Nat) (f : WuFields)
  /-- R102: A WU loads the high part of an unaligned pantry value merged into c. -/
  | ldh (t u : Nat) (f : WuFields)
  /-- R102: A WU stores the low part of a value into the pantry. -/
  | st (t u : Nat) (f : WuFields)
  /-- R102: A WU stores the high part of an unaligned value into the pantry. -/
  | sth (t u : Nat) (f : WuFields)
  /-- R103: In step s + 2, the pantry reads and writes of step s's WU instructions take place,
  with bank stall cycles as needed. -/
  | pantryAccess (t : Nat)
  /-- R98: In step s + 4, a WU result is written to its register and, if TAP is set, to the tap.
  -/
  | wuResultVisible (t : Nat)
  /-- R112: A control no-op does nothing. -/
  | nop (t : Nat)
  /-- R118: A WAIT consumes COUNT from a flag at once, or holds the tile until it can. -/
  | wait (t flag count : Nat)
  /-- R118: A held flag reaches the count; the tile subtracts it and executes the step. -/
  | waitRelease (t : Nat)
  /-- R122: A REST acts as WAIT, timed against the rest limit. -/
  | rest (t flag count : Nat)
  /-- R123: A SIGNAL sends a flag increment to a virtual tile on this device. -/
  | signal (t vt flag : Nat)
  /-- R116: A SEND issues an exchange packet through a destination-table entry of KIND 1 or 2. -/
  | send (t entry src wu reg : Nat)
  /-- R116: An ENQ issues an exchange packet to a queue through an entry of KIND 3. -/
  | enq (t entry src wu reg : Nat)
  /-- R127: A DEQ moves the head of a queue into a mailbox slot. -/
  | deq (t q slot : Nat)
  /-- R128: An SVC delivers a token to the service plane, holding if it is back-pressured. -/
  | svc (t tmpl src wu reg token : Nat)
  /-- R129: A MARK hands a marker value to the tile's trace buffer. -/
  | mark (t : Nat) (value : Half)
  /-- R131: The END step executes, work in flight completes and the tile rests until batch end. -/
  | endStep (t : Nat)
  /-- R138: A place frees in the network interface and a tile held before SEND, ENQ or SVC
  proceeds. -/
  | retryBufferFree (t : Nat)
  /-- R121: A timed hold exceeds TIL_WAIT_LIMIT and the device stops every tile at once. -/
  | waitTimeout (t : Nat)
  /-- R122: A REST hold exceeds TIL_REST_LIMIT and is recorded as WAIT_TIMEOUT with reason 1. -/
  | restTimeout (t : Nat)
  /-- R119: A local exchange packet or completion arrives and the tile applies its data, then its
  flag increment. -/
  | packetArrival (k : Nat)
  /-- R135: A remote packet is compared with the exchange batch: applied, racked, refused or
  stale, and answered. -/
  | remotePacketArrival (k : Nat)
  /-- R137: An answer reaches the source interface and updates the known batch, releasing or
  queueing packets for sending. -/
  | answerArrival
  /-- R137: 160 ns after a refusal, the interface sends the refused packet again. -/
  | packetResend (t entry : Nat)
  /-- R133: When all active tiles rest and the local exchange count is zero, the device runs the
  batch-end actions in order. -/
  | batchEnd
  /-- R349: A quadrant takes a remote packet, records the return port and forwards or delivers it.
  -/
  | quadrantForward
  /-- R350: A quadrant sends an answer out through its return port, or delivers it to the source.
  -/
  | answerForward
  /-- R379: A route table write updates every interface copy, unless the run state is RUN. -/
  | nocRtWrite (hi : Bool) (entry : Nat) (val : Word)
  /-- R251: At each AON tick, the ledger adds the budget and debits the uncore draw. -/
  | ledgerTick (uncorePj : Nat)
  /-- R260: Every 10 µs, the device measures VIN and recomputes P_IN and the budget. -/
  | vinMeasure (mv : Nat)
  /-- R261: Every 100 µs, the PI controller updates P_TH from Tj_max. -/
  | thermalControl
  /-- R267: Every 10 µs, the junction sensors are read and Tj_max is updated. -/
  | sensorRead (readings : List (Option Int))
  /-- R269: A sensor reads 115 °C or more; THERMTRIP_N is asserted and every rail except AON turns
  off. -/
  | thermalTrip (sensor : Nat) (milliC : Int)
  /-- R265: After PWR_IDLE.SCLK_US halted, the step PLL stops. -/
  | sclkIdleStop
  /-- R265: A channel without access for PWR_IDLE.DDR_MS enters self-refresh. -/
  | ddrIdleSelfRefresh (ch : Nat)
  /-- R30: After PWR_TILE_SLEEP.MS halted, the device saves a proof and puts mapped tiles into
  SLEEP. -/
  | tileSleep
  /-- R291: An owned larder bank idle for MEM_RET_CFG.LARDER_US enters retention. -/
  | larderRetain (bank : Nat)
  /-- R283: A write to TIL_PAN_OWN or MEM_LOWN starts a handover: PENDING, drain, optional clear.
  -/
  | ownHandover (larder : Bool) (ptile bank : Nat) (val : Word)
  /-- R283: The drain and clear end; the bank takes its new owner and HANDOVER is set. -/
  | handoverComplete (larder : Bool) (ptile bank : Nat)
  /-- R302: The memory block's pacing issues the next patrol SCRUB item. -/
  | scrubIssue
  /-- R316: ENC_KEY_CMD LOAD programs a key slot from ENC_KEY_DATA and zeroes the data. -/
  | encKeyLoad (val : Word)
  /-- R316: ENC_KEY_CMD INVALIDATE clears a slot, or KT for slot 0. -/
  | encKeyInvalidate (val : Word)
  /-- R316: ENC_KEY_CMD with OP 0 or 3 only zeroes ENC_KEY_DATA. -/
  | encKeyNoOp (val : Word)
  /-- R321: A region control write enables or changes a region; setting INTEGRITY starts a seal.
  -/
  | encRgnCtrlWrite (r : Nat) (val : Word)
  /-- R322: A write of ENC_CARVE.EN creates or removes the tag carve-out and changes the usable
  capacity. -/
  | encCarveWrite (val : Word)
  /-- R329: ENC_BG_CMD.START begins a key change, locking OLD and NEW and setting the boundary. -/
  | encBgStart (val : Word)
  /-- R332: ENC_BG_CMD.RELEASE ends replacement, unlocks both slots and returns to IDLE. -/
  | encBgRelease (val : Word)
  /-- R331: The background engine processes the line at the boundary for a seal or rekey and
  advances it, finishing the job at the last line. -/
  | bgLine (ue : Dram)
  /-- R380: A LNK_CFG write sets a port's mode and starts training, or writes MODE 0 to take it
  down. -/
  | lnkCfgWrite (p : Nat) (val : Word)
  /-- R363: The port's transmit PLL locks and the port enters DETECT. -/
  | lnkPllLock (p : Nat)
  /-- R363: Signal is present on the needed lanes and the port enters LOCK. -/
  | lnkSignalDetect (lp : Nat) (lanes : BitVec 9)
  /-- R364: The needed receive lanes hold phase, comma and polarity lock, and the port enters EQ. `lanes.phase`
  holds the lanes with phase lock and no comma yet. -/
  | lnkLaneLock (lp : Nat) (lanes : LaneLock) (inverted : BitVec 9)
  /-- R363: A training state reaches its limit; the port returns to DETECT or enters FAILED. -/
  | lnkTrainTimeout (lp : Nat)
  /-- R365: A TRAIN cell arrives and drives the equalization handshake, lane order and the INIT
  exchange up to ACTIVE. -/
  | trainCell (lp : Nat) (lane : Nat) (cell : QWord) (order : List Nat) (skewBits : Nat)
  /-- R372: A link packet is accepted in order and passed to the quadrant, or dropped with a NAK.
  -/
  | linkPacketReceive (lp : Nat) (pkt : LinkPacket)
  /-- R371: An ACK cell frees the retry buffer and credits, and a NAK triggers a replay. -/
  | ackCell (lp lane : Nat) (cell : QWord)
  /-- R371: The 1 µs interval or 64 accepted packets make the receiver send an ACK cell. -/
  | ackSend (lp : Nat)
  /-- R372: No ACK_SEQ advances for ACK_US and the sender replays from its oldest unacknowledged
  packet. -/
  | ackTimeout (lp : Nat)
  /-- R374: A data lane loses lock or exceeds its error threshold, and the port swaps it to lane 8
  or goes down. -/
  | laneTrip (p lane : Nat) (event : LaneEvent)
  /-- R374: A SPARE cell request or acknowledge drives the lane swap. -/
  | spareCell (lp lane : Nat) (cell : QWord)
  /-- R375: SWAP exceeds 2 ms and the port goes to FAILED. -/
  | swapTimeout (lp : Nat)
  /-- R374: The lane swap completes, the port returns to ACTIVE and hold timers run again. -/
  | swapDone (lp : Nat)
  /-- R363: Every receive lane of an ACTIVE port loses comma lock, and the port returns to DETECT.
  -/
  | commaLockLost (lp : Nat)
  /-- R390: At the frame counts 0, 16, 32 and 48 mod 64, a port sends a TIME or ANNOUNCE cell. -/
  | syncCellSend (lp frame stamp : Nat)
  /-- R393: A TIME cell gives a link delay sample and, from the parent, a domain update to the
  servo. -/
  | timeCell (lp : Nat) (cell : QWord) (stamp : Nat)
  /-- R392: An ANNOUNCE cell updates the master and parent choice of a LINK domain. -/
  | announceCell (lp : Nat) (cell : QWord)
  /-- R394: A TSYNC rising edge updates a TSYNC domain or applies a pending SET. -/
  | tsyncEdge
  /-- R395: No update arrives for LOSS_MS, and the domain goes LOST and the output may switch. -/
  | domainLoss (d : Nat)
  /-- R397: Every 10 µs, the output rate is set from the followed domain's rate and offset. -/
  | outputServoTick
  /-- R398: The preferred domain has been LOCKED for REVERT_MS, and the output follows it again.
  -/
  | outputRevert
  /-- R399: TIM_CMD.SET sets output time or a domain estimate to TIM_SET. -/
  | timCmdSet (val : Word)
  /-- R399: TIM_CMD.REACQ sets the output FREE so it steps again to a domain. -/
  | timCmdReacq (val : Word)
  /-- R413: A read of TIM_NOW_LO copies the upper bits and fraction unless PEEK is set. -/
  | timNowRead (via : Via)
  /-- R404: A fire request takes a slot on a native line and drives it high before that slot. -/
  | trgFire (lines : BitVec 8)
  /-- R405: A native line sampled high in a slot is an event, to be acted on at LAT_NS. -/
  | trgSample (line slot : Nat)
  /-- R407: At the acting time, an event takes its CAPTURE, ACQ, HALT and START actions. -/
  | trgAct (line slot : Nat)
  /-- R406: TIM_TRG_CMD.CAL drives a pulse to measure a line's round trip. -/
  | trgCal (line : Nat)
  /-- R406: The calibration pulse returns and STEPS is set, or the 1 µs wait ends with
  TIM_TRG_RANGE. -/
  | trgCalDone (roundTrip : Option Nat)
  /-- R408: An arm pulse is seen on TRG7 and the device becomes ARMED. -/
  | vl2ArmPulse (widthNs : Nat)
  /-- R408: A fire is seen on TRG7; an ARMED device acts 3 µs after its rising edge and becomes
  FIRED. -/
  | vl2FirePulse (widthNs : Nat)
  /-- R408: The line falls after a fire and the device returns to IDLE. -/
  | vl2LineFall (widthNs : Nat)
  /-- R409: TIM_VL2.ARM drives a 1.0 µs arm pulse when MASTER is set. -/
  | vl2Arm (val : Word)
  /-- R409: TIM_VL2.FIRE drives a fire while the device is ARMED. -/
  | vl2Fire (val : Word)
  /-- R409: TIM_VL2.DISARM returns this device to IDLE. -/
  | vl2Disarm (val : Word)
  /-- R409: 10 µs after a fire falls, a REARM master drives a new arm pulse. -/
  | vl2Rearm
  /-- R417: A read of TIM_CAP_POP pops the head capture into TIM_CAP_LO and TIM_CAP_HI, or copies
  it under PEEK. -/
  | timCapPop (via : Via)
  /-- R415: A read of TIM_PACE_OVERRUN returns the overrun count and clears it unless PEEK is set.
  -/
  | timPaceOverrunRead (via : Via)
  /-- R417: A read of TIM_CAP_STAT returns DROPPED and clears it unless PEEK is set. -/
  | timCapStatRead (via : Via)
  /-- R424: ACQ_CMD.ARM resets units and sequencer and enters LIVE, or is dropped. -/
  | acqArm (val : Word)
  /-- R426: ACQ_CMD.STOP closes any segment and enters DRAIN, or IDLE. -/
  | acqStop (val : Word)
  /-- R430: The units and sequencer evaluate a sampled batch and take a branch with its FIRE,
  HALT, TRIG and STOP actions. -/
  | acqEvaluate
  /-- R432: A sampled batch's records are written into the stream for an open segment, closing it
  at t + Q. -/
  | acqBatchRecord
  /-- R433: The re-arm completes; a REARM record is written and the engine returns to LIVE or goes
  to DRAIN. -/
  | acqRearmDone
  /-- R440: A host write of ACQ_SPILL_HOST frees ring space so that spilling resumes. -/
  | acqSpillHostWrite (val : Word)
  /-- R445: A read of ACQ_DROPPED returns the count and clears it unless PEEK is set. -/
  | acqDroppedRead (via : Via)
  /-- R445: A read of ACQ_EXT_LOST returns the count and clears it unless PEEK is set. -/
  | acqExtLostRead (via : Via)
  /-- R449: A read of TIL_PRB_MARKS returns dropped marks and clears them unless PEEK is set. -/
  | tilPrbMarksRead (t : Nat) (via : Via)
  /-- R455: RUN_CMD.RUN starts or resumes batches when it is allowed, waking sleeping tiles. -/
  | runCmdRun (val : Word)
  /-- R453: RUN_CMD.HALT is a halt request of cause HOST. -/
  | runCmdHalt (val : Word)
  /-- R456: RUN_CMD.STEP starts exactly one batch and halts after it. -/
  | runCmdStep (val : Word)
  /-- R454: The last batch end and the service-plane quiesce complete, and the device enters
  HALTED, applying queued soft repair. -/
  | haltComplete
  /-- R469: A read of RUN_BATCH_LO copies the upper batch bits unless PEEK is set. -/
  | runBatchRead (via : Via)
  /-- R471: A read of RUN_ACMP_COUNT returns the hit count and clears it unless PEEK is set. -/
  | runAcmpCountRead (a : Nat) (via : Via)
  /-- R470: A write of a batch comparator CTRL sets it up and clears HIT. -/
  | runBcmpCtrlWrite (b : Nat) (val : Word)
  /-- R471: A write of an address comparator CTRL sets it up and clears its hit record. -/
  | runAcmpCtrlWrite (a : Nat) (val : Word)
  /-- R460: The watchdog reaches zero, asserts ALERT_N and acts as ACTION gives. -/
  | wdgExpired
  /-- R460: A WDG_KICK write with KEY 0x5A reloads the watchdog. -/
  | wdgKick (val : Word)
  /-- R472: A WDG_CFG write sets ACTION, and a write of EN reloads the watchdog. -/
  | wdgCfgWrite (val : Word)
  /-- R461: A crier write stores the value and queues a CRIER item. -/
  | criValWrite (c : Nat) (val : Word)
  /-- R473: A read of CRI_STAT returns DROPPED and clears it unless PEEK is set. -/
  | criStatRead (via : Via)
  /-- R464: A write through a state window changes design state or the recipe while halted, and is
  logged during a run. -/
  | tilWinWrite (t pg i : Nat) (val : Word)
  /-- R464: A read through a state window returns design state while halted, or 0 otherwise. -/
  | tilWinRead (t pg i : Nat)
  /-- R465: TRST_N, or five TCK cycles with TMS high, resets the TAP and selects IDCODE. -/
  | tapReset
  /-- R465: The BYPASS instruction has no effect on the device. -/
  | bypass
  /-- R465: The IDCODE instruction returns the device's identification code. -/
  | idcode
  /-- R465: SAMPLE/PRELOAD clears the key store while the run continues. -/
  | samplePreload
  /-- R465: EXTEST clears the key store, stops immediately with cause JTAG and gives the pins to
  the boundary register. -/
  | extest
  /-- R465: CLAMP clears the key store and stops immediately with cause JTAG. -/
  | clamp
  /-- R465: HIGHZ clears the key store and stops immediately with cause JTAG. -/
  | highz
  /-- R466: At Update-DR with GO, the JTAG path makes one 32-bit BAR0 register access. -/
  | dbgReg (go write : Bool) (addr : BitVec 26) (data : Word)
  /-- R467: At Update-DR with GO, the JTAG path makes one 8-byte DDR access through queue 14. -/
  | dbgMem (go write : Bool) (ue : Dram) (addr : DWord) (data : DWord)
  /-- R465: DBG_CFG sets the PEEK of the JTAG path. -/
  | dbgCfg (peek : Bool)
  /-- R465: A vendor scan instruction clears the key store and stops immediately with cause JTAG.
  -/
  | scan
  /-- R212: A 32- or 64-bit write of LDR_DATA delivers image bytes to the loader. -/
  | ldrDataWrite (size : Nat) (data : DWord)
  /-- R187: A write of LDR_CTRL.SRC to 2 in EMPTY or SERVICE starts a read of one image from the
  SPI boot flash. -/
  | ldrSpiRead (val : Word) (bytes : List Byte)
  /-- R190: At the 64th byte, the loader checks the header and accepts it into WRITE or STAGE, or
  fails. -/
  | ldrHeader
  /-- R193: A frame record is checked, patched and written to the tiles or staged in the larder.
  -/
  | ldrFrame
  /-- R194: The 16th trailer byte ends the stream and the loader enters CHECK. -/
  | ldrTrailer
  /-- R194: The trailer, CRC and recipe checks end, with SERVICE, COMMIT or FAILED. -/
  | ldrCheckDone
  /-- R201: The partial image copy from the larder and shadow completes and the loader enters
  SERVICE. -/
  | ldrCommitDone (ueTile : Option Nat)
  /-- R202: No byte arrives for LDR_GAP_LIMIT and the load fails with LD_EARLY_END. -/
  | ldrGapTimeout
  /-- R207: LDR_CMD.ABORT fails a load in HEADER to CHECK. -/
  | ldrCmdAbort (val : Word)
  /-- R207: LDR_CMD.CLEAR leaves FAILED and deasserts CFGERR_N. -/
  | ldrCmdClear (val : Word)
  /-- R486: A single fault of a tile, engine or larder bank starts a pause: stop, spare, restore
  of CUR and replay up to the faulting batch. -/
  | recoveryPause (fault : FaultUnit)
  /-- R489: Answers are still outstanding 1 ms into a pause, and the device stops with
  PRF_FAULT_STOP reason 6. -/
  | recoveryAnswerTimeout
  /-- R478: At a due boundary, the device writes back the cache and issues PSAVE items, holding
  the next batch. -/
  | proofSave
  /-- R478: The save ends; the slot becomes CUR and the logs are trimmed, or the save fails. -/
  | proofSaveDone
  /-- R476: PRF_CMD.SAVE asks for a proof at the next boundary. -/
  | prfCmdSave (val : Word)
  /-- R490: PRF_CMD.RESTORE restores CUR while HALTED. -/
  | prfCmdRestore (val : Word)
  /-- R490: PRF_CMD.RESTORE_PREV restores PREV while HALTED. -/
  | prfCmdRestorePrev (val : Word)
  /-- R501: A read of PRF_DISCARD returns the counts and clears them unless PEEK is set. -/
  | prfDiscardRead (via : Via)
  /-- R494: BST_CMD.START takes the image out of service and runs self-test slices. -/
  | bstStart (val : Word)
  /-- R496: A slice ends, its record is written and service mode updates the maps. -/
  | bstSliceDone (result : SliceResult)
  /-- R494: A slice reaches its 50 ms limit, is stopped and is recorded. -/
  | bstOverrun
  /-- R504: FLS_BOOT_CMD.COMMIT writes CFG and OFS as a new boot settings copy. -/
  | flsBootCommit (val : Word)
  /-- R504: FLS_BOOT_CMD.RELOAD reloads CFG and OFS from the current copy. -/
  | flsBootReload (val : Word)
  /-- R111: A read of TIL_DP_STALL returns the stall cycles and clears them unless PEEK is set. -/
  | tilDpStallRead (t : Nat) (via : Via)
  /-- R246: A read of SVC_ENG_ITEMS returns the count and clears it unless PEEK is set. -/
  | svcEngItemsRead (e : Nat) (via : Via)
  /-- R274: A read of PWR_PACE_HOLDS returns the held batches and clears them unless PEEK is set.
  -/
  | pwrPaceHoldsRead (via : Via)
  /-- R274: A read of PWR_PACE_TIME returns the hold time and clears it unless PEEK is set. -/
  | pwrPaceTimeRead (via : Via)
  /-- R308: A read of MEM_CH_CE returns the corrected errors and clears them unless PEEK is set.
  -/
  | memChCeRead (ch : Nat) (via : Via)
  /-- R378: A read of NOC_FWD returns the forwarded count and clears it unless PEEK is set. -/
  | nocFwdRead (via : Via)
  /-- R383: A read of LNK_CNT_A or LNK_CNT_B returns replays and CRC errors and clears them unless
  PEEK is set. -/
  | lnkCntRead (p : Nat) (b : Bool) (via : Via)
  /-- R384: A read of LNK_LANE_ERR returns lane errors and clears them unless PEEK is set. -/
  | lnkLaneErrRead (p lane : Nat) (via : Via)
  /-- R60: Host software unmasks an MSI-X vector or the function, and the device sends the message
  whose pending bit was set. -/
  | msixUnmask (vec : Option Nat)
  /-- R333: A write that sets PG_CTRL.EN of a page re-enables its block, so that a paused
  background encryption job resumes and a porter takes descriptors again. -/
  | pageEnable (page : Nat)
  /-- R389: A write of TIM_DOM_CFG.SOURCE sets the domain to SEARCH, or to OFF for SOURCE 0, or is
  dropped with TIM_BUSY without REFCLK100. -/
  | timDomCfgWrite (d : Nat) (val : Word)
  /-- R484: A write of PRF_CTRL that sets LIVE or clears EN makes the run unprotected at once with
  reason 4 or 2, and records PRF_UNPROTECTED. -/
  | prfCtrlWrite (val : Word)
  deriving DecidableEq, Repr

end Sys2Proof
end

