-- ==== Sys2Proof/Decode.lean ====
section
/-! DEFINITION. Decoding. The block fetches no instructions: every row of the table is an event or a
register access, and the table gives no row any bits. -/

namespace Sys2Proof

/-- The command that a word of nbits bits spells by the bits of the table: none, since the table gives
bits to no row. -/
def decodeTableWord (_nbits _w : Nat) : Option Instr := none

end Sys2Proof
end

