-- ==== Sys2Proof/Config.lean ====
section
/-! DEFINITION. What an implementation fixes and what the spec leaves open. Nothing in Lean can
evaluate a free value: a statement about it holds for every value. -/

namespace Sys2Proof.Config

/-- A fresh value that the spec leaves open, by its number (assumption 1). -/
opaque freeWord : Nat → Sys2Proof.Word

/-- A fresh order or count that the spec leaves open, by its number (assumption 1). -/
opaque freeNat : Nat → Nat

/-- What GLB_AON_PERIOD measures, by the time since AON started, in ns (R55, assumption 1). -/
opaque aonPeriod : Nat → Sys2Proof.Word

/-- Tambesal's JEDEC manufacturer identity, which IDCODE carries and the spec does not state (R465). -/
opaque jedecId : BitVec 11

/-- Tambesal's PCI vendor ID, which the spec does not state (R35). -/
opaque vendorId : BitVec 16

/-- The set of the model cache that a line belongs to, before the reduction to the number of sets: the spec gives
the ways and not the index (R233, assumption 1). -/
opaque cacheSet : Nat → Nat

end Sys2Proof.Config
end

