-- ==== Sys2Proof/Machine/Regs.lean ====
section
/-! DEFINITION. The register map: every register of the spec beside the common page header, with its
address, its writable bits and its reset value (the address map of R44, the register tables of the
chapters). -/

namespace Sys2Proof.Machine

/-- The registers by name, as the register tables name them. -/
inductive Reg where
  | pciBar2Win
  | glbAlert
  | glbScratch
  | glbUartCfg
  | glbIdent
  | glbGrade
  | glbUidLo
  | glbUidHi
  | glbClkStat
  | glbAonPeriod
  | glbVecSrc
  | pciPorterRingLo
  | pciPorterRingHi
  | pciPorterRingSize
  | pciPorterTail
  | pciPorterHead
  | glbChainId
  | tilDpStep
  | tilDpDepth
  | tilDpStall
  | tilPhase
  | tilXbatchLo
  | tilXbatchHi
  | tilRetry
  | tilWaitLimit
  | tilRestLimit
  | tilSeqWait
  | tilFlagResidue
  | tilFlag
  | tilDestLo
  | tilDestHi
  | tilMbxValid0
  | tilMbxValid1
  | tilMbxLo
  | tilMbxHi
  | tilQResidue
  | tilQStat
  | glbSpareStat
  | glbVmap
  | ldrDevmap
  | ldrMbaseLo
  | ldrMbaseHi
  | ldrCtrl
  | ldrCmd
  | ldrStat
  | ldrFrames
  | ldrDropped
  | ldrGapLimit
  | ldrFirstLo
  | ldrFirstHi
  | ldrShadowLo
  | ldrShadowHi
  | ldrStage
  | ldrData
  | ldrBuildLo
  | ldrBuildHi
  | ldrCrc
  | ldrImage
  | svcStoreOrd
  | svcStoreRsv
  | svcLevel
  | svcEngMap
  | svcCacheCtrl
  | svcCacheStat
  | svcHqDesc
  | svcHqSubmit
  | svcHqStat
  | svcHqCpl
  | svcHqCplDataLo
  | svcHqCplDataHi
  | svcXoutBaseLo
  | svcXoutBaseHi
  | svcXoutPtr
  | svcXinBaseLo
  | svcXinBaseHi
  | svcXinPtr
  | svcXchSize
  | svcXchStat
  | svcEngStat
  | svcEngItems
  | pwrLedgerCfg
  | pwrHostCap
  | pwrLimits
  | pwrLevel
  | pwrEst
  | pwrLast
  | pwrSupply
  | pwrUncore
  | pwrPaceHolds
  | pwrPaceTime
  | pwrDeferMax
  | pwrStarveLimit
  | pwrIdle
  | pwrThCfg
  | pwrCoef
  | pwrTileSleep
  | pwrThStat
  | pwrThSensor
  | tilEnSteps
  | tilEnToggles
  | tilEnWuA
  | tilEnWuB
  | tilEnIdle
  | tilEnLast
  | tilPanOwn
  | memLown
  | memLstat
  | memRetCfg
  | memChCfg
  | memChEcc
  | memChCe
  | memChPpr
  | memCapInst
  | memCapUse
  | memScrub
  | encStat
  | encCarve
  | encQkey
  | encFailLo
  | encFailHi
  | encFailInfo
  | encKeyData
  | encKeyCmd
  | encSlotStat
  | encRgnBase
  | encRgnLimit
  | encRgnCtrl
  | encBgFirst
  | encBgLast
  | encBgSlots
  | encBgCmd
  | encBgStat
  | encBgBoundLo
  | encBgBoundHi
  | nocFwd
  | nocBulk
  | nocRtLo
  | nocRtHi
  | lnkCfg
  | lnkStat
  | lnkSpare
  | lnkPeerA
  | lnkPeerB
  | lnkCntA
  | lnkCntB
  | lnkTimers
  | lnkLane
  | lnkLaneErr
  | timServo
  | timOutCfg
  | timOutStat
  | timOutOffset
  | timNowLo
  | timNowHi
  | timNowFr
  | timSetLo
  | timSetHi
  | timSetFr
  | timCmd
  | timTsync
  | timDomCfg
  | timDomStat
  | timDomOffset
  | timDomRate
  | timPortDelay
  | timSchedLo
  | timSchedHi
  | timSchedCtrl
  | timPacePerNs
  | timPacePerFr
  | timPaceOverrun
  | timTrgCfg
  | timTrgHub
  | timTrgCmd
  | timVl2
  | timTrgDelay
  | timTrgAct
  | timCapCfg
  | timCapPop
  | timCapLo
  | timCapHi
  | timCapStat
  | acqCtrl
  | acqCmd
  | acqStat
  | acqSegCfg
  | acqSegMax
  | acqLastDeadB
  | acqLastDeadNs
  | acqDropped
  | acqExtLost
  | acqLarder
  | acqSpillBaseLo
  | acqSpillBaseHi
  | acqSpillSize
  | acqSpillDev
  | acqSpillHost
  | acqDirBaseLo
  | acqDirBaseHi
  | acqTuCfg
  | acqTuMask
  | acqTuValue
  | acqTuCount
  | acqSeqBr0
  | acqSeqBr1
  | tilPrbStat
  | tilPrbMarks
  | runCmd
  | runStat
  | runBatchLo
  | runBatchHi
  | runBcmpLo
  | runBcmpHi
  | runBcmpCtrl
  | runAcmpLoLo
  | runAcmpLoHi
  | runAcmpHiLo
  | runAcmpHiHi
  | runAcmpCtrl
  | runAcmpHit
  | runAcmpCount
  | runAcmpHbatchLo
  | runAcmpHbatchHi
  | runAcmpHaddrLo
  | runAcmpHaddrHi
  | wdgCfg
  | wdgTimeout
  | wdgKick
  | wdgStat
  | wdgRemain
  | criVal
  | criStat
  | tilWinSel
  | tilWinData
  | prfCtrl
  | prfBaseLo
  | prfBaseHi
  | prfSize
  | prfCmd
  | prfStat
  | prfCurLo
  | prfCurHi
  | prfPrevLo
  | prfPrevHi
  | prfTimes
  | prfLog
  | prfDiscard
  | bstCfg
  | bstCmd
  | bstStat
  | bstLast
  | bstLastUs
  | flsStat
  | flsWear
  | flsBootCfg
  | flsBootOfs
  | flsBootCmd
  | glbRstCause
  | glbRstCmd
  | glbRstCount
  | glbBootStat
  | pwrVdio
  | pwrVdioStat
  deriving DecidableEq, Repr

/-- A row of the register map. The register lies at
`base + s1 * i + s2 * j + s3 * k` with i < c1, j < c2, k < c3; a tile register has s1 = 0x10000 and
c1 = 136 (R44). `mask` holds the bits that a write stores, `init` the cold reset value. -/
structure RegRow where
  base : Nat
  s1 : Nat
  c1 : Nat
  s2 : Nat
  c2 : Nat
  s3 : Nat
  c3 : Nat
  mask : Word
  init : Word
  deriving DecidableEq, Repr

/-- The register map. -/
def Reg.row : Reg → RegRow
  | .pciBar2Win => ⟨0xA0040, 0, 1, 0, 1, 0, 1, 0x800007FF, 0x0⟩
  | .glbAlert => ⟨0x40, 0, 1, 0, 1, 0, 1, 0x0, 0x0⟩
  | .glbScratch => ⟨0x44, 0, 1, 0, 1, 0, 1, 0xFFFFFFFF, 0x0⟩
  | .glbUartCfg => ⟨0x48, 0, 1, 0, 1, 0, 1, 0xC03FFFFF, 0xC001C200⟩
  | .glbIdent => ⟨0x1040, 0, 1, 0, 1, 0, 1, 0x0, 0x0⟩
  | .glbGrade => ⟨0x1044, 0, 1, 0, 1, 0, 1, 0x0, 0x0⟩
  | .glbUidLo => ⟨0x1048, 0, 1, 0, 1, 0, 1, 0x0, 0x0⟩
  | .glbUidHi => ⟨0x104C, 0, 1, 0, 1, 0, 1, 0x0, 0x0⟩
  | .glbClkStat => ⟨0x3040, 0, 1, 0, 1, 0, 1, 0x0, 0x0⟩
  | .glbAonPeriod => ⟨0x3044, 0, 1, 0, 1, 0, 1, 0x0, 0x0⟩
  | .glbVecSrc => ⟨0x5040, 4, 0x100, 0, 1, 0, 1, 0x0, 0x80000000⟩
  | .pciPorterRingLo => ⟨0xA1040, 0x1000, 8, 0, 1, 0, 1, 0xFFFFF000, 0x0⟩
  | .pciPorterRingHi => ⟨0xA1044, 0x1000, 8, 0, 1, 0, 1, 0xFFFFFFFF, 0x0⟩
  | .pciPorterRingSize => ⟨0xA1048, 0x1000, 8, 0, 1, 0, 1, 0x1F, 0x4⟩
  | .pciPorterTail => ⟨0xA104C, 0x1000, 8, 0, 1, 0, 1, 0xFFFF, 0x0⟩
  | .pciPorterHead => ⟨0xA1050, 0x1000, 8, 0, 1, 0, 1, 0x0, 0x0⟩
  | .glbChainId => ⟨0xD040, 0, 1, 0, 1, 0, 1, 0x0, 0x0⟩
  | .tilDpStep => ⟨0x1004040, 0x10000, 136, 0, 1, 0, 1, 0x0, 0x0⟩
  | .tilDpDepth => ⟨0x1004044, 0x10000, 136, 0, 1, 0, 1, 0x0, 0x0⟩
  | .tilDpStall => ⟨0x1004048, 0x10000, 136, 0, 1, 0, 1, 0x0, 0x0⟩
  | .tilPhase => ⟨0x1000040, 0x10000, 136, 0, 1, 0, 1, 0x0, 0x0⟩
  | .tilXbatchLo => ⟨0x1000044, 0x10000, 136, 0, 1, 0, 1, 0x0, 0x0⟩
  | .tilXbatchHi => ⟨0x1000048, 0x10000, 136, 0, 1, 0, 1, 0x0, 0x0⟩
  | .tilRetry => ⟨0x100004C, 0x10000, 136, 0, 1, 0, 1, 0x0, 0x0⟩
  | .tilWaitLimit => ⟨0x1001040, 0x10000, 136, 0, 1, 0, 1, 0xFFFFFFFF, 0xF4240⟩
  | .tilRestLimit => ⟨0x1001044, 0x10000, 136, 0, 1, 0, 1, 0xFFFFFFFF, 0x0⟩
  | .tilSeqWait => ⟨0x1001048, 0x10000, 136, 0, 1, 0, 1, 0x0, 0x0⟩
  | .tilFlagResidue => ⟨0x100104C, 0x10000, 136, 0, 1, 0, 1, 0x0, 0x0⟩
  | .tilFlag => ⟨0x1001100, 0x10000, 136, 4, 128, 0, 1, 0x0, 0x0⟩
  | .tilDestLo => ⟨0x1001400, 0x10000, 136, 8, 0x100, 0, 1, 0xFFFFFFFE, 0x0⟩
  | .tilDestHi => ⟨0x1001404, 0x10000, 136, 8, 0x100, 0, 1, 0xC0000000, 0x0⟩
  | .tilMbxValid0 => ⟨0x1002040, 0x10000, 136, 0, 1, 0, 1, 0x0, 0x0⟩
  | .tilMbxValid1 => ⟨0x1002044, 0x10000, 136, 0, 1, 0, 1, 0x0, 0x0⟩
  | .tilMbxLo => ⟨0x1002100, 0x10000, 136, 8, 64, 0, 1, 0x0, 0x0⟩
  | .tilMbxHi => ⟨0x1002104, 0x10000, 136, 8, 64, 0, 1, 0x0, 0x0⟩
  | .tilQResidue => ⟨0x1003040, 0x10000, 136, 0, 1, 0, 1, 0x0, 0x0⟩
  | .tilQStat => ⟨0x1003100, 0x10000, 136, 4, 64, 0, 1, 0x0, 0x0⟩
  | .glbSpareStat => ⟨0xF040, 0, 1, 0, 1, 0, 1, 0x0, 0x0⟩
  | .glbVmap => ⟨0xF100, 4, 128, 0, 1, 0, 1, 0x0, 0x0⟩
  | .ldrDevmap => ⟨0x6400, 4, 64, 0, 1, 0, 1, 0xFFFFFFFF, 0x0⟩
  | .ldrMbaseLo => ⟨0x6600, 8, 64, 0, 1, 0, 1, 0xFFFFFFC0, 0x0⟩
  | .ldrMbaseHi => ⟨0x6604, 8, 64, 0, 1, 0, 1, 0xFFFFFFFF, 0x0⟩
  | .ldrCtrl => ⟨0x6040, 0, 1, 0, 1, 0, 1, 0x3, 0x0⟩
  | .ldrCmd => ⟨0x6044, 0, 1, 0, 1, 0, 1, 0x0, 0x0⟩
  | .ldrStat => ⟨0x6048, 0, 1, 0, 1, 0, 1, 0x0, 0x20000000⟩
  | .ldrFrames => ⟨0x604C, 0, 1, 0, 1, 0, 1, 0x0, 0x0⟩
  | .ldrDropped => ⟨0x6050, 0, 1, 0, 1, 0, 1, 0x0, 0x0⟩
  | .ldrGapLimit => ⟨0x6054, 0, 1, 0, 1, 0, 1, 0xFFFFFFFF, 0x186A0⟩
  | .ldrFirstLo => ⟨0x6058, 0, 1, 0, 1, 0, 1, 0xFFFFFFFF, 0x0⟩
  | .ldrFirstHi => ⟨0x605C, 0, 1, 0, 1, 0, 1, 0xFFFFFFFF, 0x0⟩
  | .ldrShadowLo => ⟨0x6060, 0, 1, 0, 1, 0, 1, 0xFFFF0001, 0x0⟩
  | .ldrShadowHi => ⟨0x6064, 0, 1, 0, 1, 0, 1, 0xFFFFFFFF, 0x0⟩
  | .ldrStage => ⟨0x6068, 0, 1, 0, 1, 0, 1, 0x0, 0x0⟩
  | .ldrData => ⟨0x606C, 0, 1, 0, 1, 0, 1, 0x0, 0x0⟩
  | .ldrBuildLo => ⟨0x6070, 0, 1, 0, 1, 0, 1, 0x0, 0x0⟩
  | .ldrBuildHi => ⟨0x6074, 0, 1, 0, 1, 0, 1, 0x0, 0x0⟩
  | .ldrCrc => ⟨0x6078, 0, 1, 0, 1, 0, 1, 0x0, 0x0⟩
  | .ldrImage => ⟨0x607C, 0, 1, 0, 1, 0, 1, 0x0, 0x0⟩
  | .svcStoreOrd => ⟨0x10040, 0, 1, 0, 1, 0, 1, 0x0, 0x0⟩
  | .svcStoreRsv => ⟨0x10044, 0, 1, 0, 1, 0, 1, 0x0, 0x0⟩
  | .svcLevel => ⟨0x10050, 4, 8, 0, 1, 0, 1, 0x0, 0x0⟩
  | .svcEngMap => ⟨0x10070, 0, 1, 0, 1, 0, 1, 0x0, 0x0⟩
  | .svcCacheCtrl => ⟨0x10080, 0, 1, 0, 1, 0, 1, 0xFF0080, 0x400080⟩
  | .svcCacheStat => ⟨0x10084, 0, 1, 0, 1, 0, 1, 0x0, 0x0⟩
  | .svcHqDesc => ⟨0x10100, 0x100, 2, 4, 12, 0, 1, 0xFFFFFFFF, 0x0⟩
  | .svcHqSubmit => ⟨0x10130, 0x100, 2, 0, 1, 0, 1, 0x0, 0x0⟩
  | .svcHqStat => ⟨0x10134, 0x100, 2, 0, 1, 0, 1, 0x0, 0x0⟩
  | .svcHqCpl => ⟨0x10138, 0x100, 2, 0, 1, 0, 1, 0x0, 0x0⟩
  | .svcHqCplDataLo => ⟨0x1013C, 0x100, 2, 0, 1, 0, 1, 0x0, 0x0⟩
  | .svcHqCplDataHi => ⟨0x10140, 0x100, 2, 0, 1, 0, 1, 0x0, 0x0⟩
  | .svcXoutBaseLo => ⟨0x10400, 32, 16, 0, 1, 0, 1, 0xFFFFF001, 0x0⟩
  | .svcXoutBaseHi => ⟨0x10404, 32, 16, 0, 1, 0, 1, 0xFFFFFFFF, 0x0⟩
  | .svcXoutPtr => ⟨0x10408, 32, 16, 0, 1, 0, 1, 0xFFFF0000, 0x0⟩
  | .svcXinBaseLo => ⟨0x1040C, 32, 16, 0, 1, 0, 1, 0xFFFFF001, 0x0⟩
  | .svcXinBaseHi => ⟨0x10410, 32, 16, 0, 1, 0, 1, 0xFFFFFFFF, 0x0⟩
  | .svcXinPtr => ⟨0x10414, 32, 16, 0, 1, 0, 1, 0xFFFF0000, 0x0⟩
  | .svcXchSize => ⟨0x10418, 32, 16, 0, 1, 0, 1, 0x1F001F, 0x40004⟩
  | .svcXchStat => ⟨0x1041C, 32, 16, 0, 1, 0, 1, 0x0, 0x0⟩
  | .svcEngStat => ⟨0x11040, 0x1000, 18, 0, 1, 0, 1, 0x0, 0x0⟩
  | .svcEngItems => ⟨0x11044, 0x1000, 18, 0, 1, 0, 1, 0x0, 0x0⟩
  | .pwrLedgerCfg => ⟨0x2040, 0, 1, 0, 1, 0, 1, 0x3FFFF00, 0x3E81000⟩
  | .pwrHostCap => ⟨0x2044, 0, 1, 0, 1, 0, 1, 0x3FF, 0x0⟩
  | .pwrLimits => ⟨0x2048, 0, 1, 0, 1, 0, 1, 0x0, 0x19000000⟩
  | .pwrLevel => ⟨0x204C, 0, 1, 0, 1, 0, 1, 0x0, 0x0⟩
  | .pwrEst => ⟨0x2050, 0, 1, 0, 1, 0, 1, 0x0, 0x0⟩
  | .pwrLast => ⟨0x2054, 0, 1, 0, 1, 0, 1, 0x0, 0x0⟩
  | .pwrSupply => ⟨0x2058, 0, 1, 0, 1, 0, 1, 0x0, 0x0⟩
  | .pwrUncore => ⟨0x205C, 0, 1, 0, 1, 0, 1, 0x0, 0x0⟩
  | .pwrPaceHolds => ⟨0x2060, 0, 1, 0, 1, 0, 1, 0x0, 0x0⟩
  | .pwrPaceTime => ⟨0x2064, 0, 1, 0, 1, 0, 1, 0x0, 0x0⟩
  | .pwrDeferMax => ⟨0x2068, 0, 1, 0, 1, 0, 1, 0xFFFF, 0x2710⟩
  | .pwrStarveLimit => ⟨0x206C, 0, 1, 0, 1, 0, 1, 0xFFFF, 0x320⟩
  | .pwrIdle => ⟨0x2070, 0, 1, 0, 1, 0, 1, 0xFFFFFFFF, 0xA03E8⟩
  | .pwrThCfg => ⟨0x2074, 0, 1, 0, 1, 0, 1, 0xFFFFFF, 0x5F0808⟩
  | .pwrCoef => ⟨0x2100, 4, 8, 0, 1, 0, 1, 0x0, 0x0⟩
  | .pwrTileSleep => ⟨0x2080, 0, 1, 0, 1, 0, 1, 0x8000FFFF, 0x80000064⟩
  | .pwrThStat => ⟨0xE040, 0, 1, 0, 1, 0, 1, 0x0, 0x0⟩
  | .pwrThSensor => ⟨0xE100, 4, 48, 0, 1, 0, 1, 0x0, 0x0⟩
  | .tilEnSteps => ⟨0x1007040, 0x10000, 136, 0, 1, 0, 1, 0x0, 0x0⟩
  | .tilEnToggles => ⟨0x1007044, 0x10000, 136, 0, 1, 0, 1, 0x0, 0x0⟩
  | .tilEnWuA => ⟨0x1007048, 0x10000, 136, 0, 1, 0, 1, 0x0, 0x0⟩
  | .tilEnWuB => ⟨0x100704C, 0x10000, 136, 0, 1, 0, 1, 0x0, 0x0⟩
  | .tilEnIdle => ⟨0x1007050, 0x10000, 136, 0, 1, 0, 1, 0x0, 0x0⟩
  | .tilEnLast => ⟨0x1007054, 0x10000, 136, 0, 1, 0, 1, 0x0, 0x0⟩
  | .tilPanOwn => ⟨0x1005040, 0x10000, 136, 4, 16, 0, 1, 0x10FFF, 0x0⟩
  | .memLown => ⟨0x90040, 4, 64, 0, 1, 0, 1, 0x10FFF, 0x0⟩
  | .memLstat => ⟨0x90140, 0, 1, 0, 1, 0, 1, 0x0, 0x3C⟩
  | .memRetCfg => ⟨0x90144, 0, 1, 0, 1, 0, 1, 0xFFFF, 0x32⟩
  | .memChCfg => ⟨0x40040, 0x1000, 8, 0, 1, 0, 1, 0x0, 0x0⟩
  | .memChEcc => ⟨0x40044, 0x1000, 8, 0, 1, 0, 1, 0x0, 0x0⟩
  | .memChCe => ⟨0x40048, 0x1000, 8, 0, 1, 0, 1, 0x0, 0x0⟩
  | .memChPpr => ⟨0x4004C, 0x1000, 8, 0, 1, 0, 1, 0xFF, 0x4⟩
  | .memCapInst => ⟨0x40060, 0, 1, 0, 1, 0, 1, 0x0, 0x0⟩
  | .memCapUse => ⟨0x40064, 0, 1, 0, 1, 0, 1, 0x0, 0x0⟩
  | .memScrub => ⟨0x40068, 0, 1, 0, 1, 0, 1, 0x8000FFFF, 0x80000018⟩
  | .encStat => ⟨0x48040, 0, 1, 0, 1, 0, 1, 0x0, 0x0⟩
  | .encCarve => ⟨0x48044, 0, 1, 0, 1, 0, 1, 0x80000000, 0x80000000⟩
  | .encQkey => ⟨0x48080, 4, 16, 0, 1, 0, 1, 0x3F, 0x0⟩
  | .encFailLo => ⟨0x480C0, 0, 1, 0, 1, 0, 1, 0x0, 0x0⟩
  | .encFailHi => ⟨0x480C4, 0, 1, 0, 1, 0, 1, 0x0, 0x0⟩
  | .encFailInfo => ⟨0x480C8, 0, 1, 0, 1, 0, 1, 0x0, 0x0⟩
  | .encKeyData => ⟨0x49040, 4, 16, 0, 1, 0, 1, 0x0, 0x0⟩
  | .encKeyCmd => ⟨0x49080, 0, 1, 0, 1, 0, 1, 0x0, 0x0⟩
  | .encSlotStat => ⟨0x49100, 4, 64, 0, 1, 0, 1, 0x0, 0x0⟩
  | .encRgnBase => ⟨0x4A040, 16, 32, 0, 1, 0, 1, 0x3FFFFF, 0x0⟩
  | .encRgnLimit => ⟨0x4A044, 16, 32, 0, 1, 0, 1, 0x3FFFFF, 0x0⟩
  | .encRgnCtrl => ⟨0x4A048, 16, 32, 0, 1, 0, 1, 0xC000FFFF, 0x0⟩
  | .encBgFirst => ⟨0x4B040, 0, 1, 0, 1, 0, 1, 0x3FFFFF, 0x0⟩
  | .encBgLast => ⟨0x4B044, 0, 1, 0, 1, 0, 1, 0x3FFFFF, 0x0⟩
  | .encBgSlots => ⟨0x4B048, 0, 1, 0, 1, 0, 1, 0x3F3F, 0x0⟩
  | .encBgCmd => ⟨0x4B04C, 0, 1, 0, 1, 0, 1, 0x0, 0x0⟩
  | .encBgStat => ⟨0x4B050, 0, 1, 0, 1, 0, 1, 0x0, 0x0⟩
  | .encBgBoundLo => ⟨0x4B054, 0, 1, 0, 1, 0, 1, 0x0, 0x0⟩
  | .encBgBoundHi => ⟨0x4B058, 0, 1, 0, 1, 0, 1, 0x0, 0x0⟩
  | .nocFwd => ⟨0x60040, 0, 1, 0, 1, 0, 1, 0x0, 0x0⟩
  | .nocBulk => ⟨0x60044, 0, 1, 0, 1, 0, 1, 0xF, 0x4⟩
  | .nocRtLo => ⟨0x61040, 8, 0x100, 0, 1, 0, 1, 0xFFFFFF, 0x0⟩
  | .nocRtHi => ⟨0x61044, 8, 0x100, 0, 1, 0, 1, 0x8FFFFFFF, 0x0⟩
  | .lnkCfg => ⟨0x50040, 0x2000, 8, 0, 1, 0, 1, 0xFFF0003F, 0x40000034⟩
  | .lnkStat => ⟨0x50044, 0x2000, 8, 0, 1, 0, 1, 0x0, 0x0⟩
  | .lnkSpare => ⟨0x50048, 0x2000, 8, 0, 1, 0, 1, 0x0, 0x0⟩
  | .lnkPeerA => ⟨0x5004C, 0x2000, 8, 0, 1, 0, 1, 0x0, 0x0⟩
  | .lnkPeerB => ⟨0x50050, 0x2000, 8, 0, 1, 0, 1, 0x0, 0x0⟩
  | .lnkCntA => ⟨0x50054, 0x2000, 8, 0, 1, 0, 1, 0x0, 0x0⟩
  | .lnkCntB => ⟨0x50058, 0x2000, 8, 0, 1, 0, 1, 0x0, 0x0⟩
  | .lnkTimers => ⟨0x5005C, 0x2000, 8, 0, 1, 0, 1, 0xFFFFFFFF, 0x640410⟩
  | .lnkLane => ⟨0x51040, 0x2000, 8, 4, 9, 0, 1, 0x0, 0xF000000⟩
  | .lnkLaneErr => ⟨0x51080, 0x2000, 8, 4, 9, 0, 1, 0x0, 0x0⟩
  | .timServo => ⟨0x70040, 0, 1, 0, 1, 0, 1, 0x1FFFFFF, 0xC80A62⟩
  | .timOutCfg => ⟨0x70044, 0, 1, 0, 1, 0, 1, 0x80FFFFFF, 0xA03E8⟩
  | .timOutStat => ⟨0x70048, 0, 1, 0, 1, 0, 1, 0x0, 0x0⟩
  | .timOutOffset => ⟨0x7004C, 0, 1, 0, 1, 0, 1, 0x0, 0x0⟩
  | .timNowLo => ⟨0x70050, 0, 1, 0, 1, 0, 1, 0x0, 0x0⟩
  | .timNowHi => ⟨0x70054, 0, 1, 0, 1, 0, 1, 0x0, 0x0⟩
  | .timNowFr => ⟨0x70058, 0, 1, 0, 1, 0, 1, 0x0, 0x0⟩
  | .timSetLo => ⟨0x7005C, 0, 1, 0, 1, 0, 1, 0xFFFFFFFF, 0x0⟩
  | .timSetHi => ⟨0x70060, 0, 1, 0, 1, 0, 1, 0xFFFFFFFF, 0x0⟩
  | .timSetFr => ⟨0x70064, 0, 1, 0, 1, 0, 1, 0xFFFF, 0x0⟩
  | .timCmd => ⟨0x70068, 0, 1, 0, 1, 0, 1, 0x0, 0x0⟩
  | .timTsync => ⟨0x7006C, 0, 1, 0, 1, 0, 1, 0xFFFFFFFF, 0x3E8⟩
  | .timDomCfg => ⟨0x70080, 16, 2, 0, 1, 0, 1, 0xC000FFFF, 0x800A⟩
  | .timDomStat => ⟨0x70084, 16, 2, 0, 1, 0, 1, 0x0, 0x0⟩
  | .timDomOffset => ⟨0x70088, 16, 2, 0, 1, 0, 1, 0x0, 0x0⟩
  | .timDomRate => ⟨0x7008C, 16, 2, 0, 1, 0, 1, 0xFFFFFFFF, 0x0⟩
  | .timPortDelay => ⟨0x700C0, 4, 16, 0, 1, 0, 1, 0x0, 0x0⟩
  | .timSchedLo => ⟨0x70100, 0, 1, 0, 1, 0, 1, 0xFFFFFFFF, 0x0⟩
  | .timSchedHi => ⟨0x70104, 0, 1, 0, 1, 0, 1, 0xFFFFFFFF, 0x0⟩
  | .timSchedCtrl => ⟨0x70108, 0, 1, 0, 1, 0, 1, 0xC0000000, 0x0⟩
  | .timPacePerNs => ⟨0x7010C, 0, 1, 0, 1, 0, 1, 0xFFFFFFFF, 0x0⟩
  | .timPacePerFr => ⟨0x70110, 0, 1, 0, 1, 0, 1, 0xFFFF, 0x0⟩
  | .timPaceOverrun => ⟨0x70114, 0, 1, 0, 1, 0, 1, 0x0, 0x0⟩
  | .timTrgCfg => ⟨0x71040, 0, 1, 0, 1, 0, 1, 0x80FF03FF, 0x190⟩
  | .timTrgHub => ⟨0x71044, 0, 1, 0, 1, 0, 1, 0x3FF, 0x0⟩
  | .timTrgCmd => ⟨0x71048, 0, 1, 0, 1, 0, 1, 0x0, 0x0⟩
  | .timVl2 => ⟨0x7104C, 0, 1, 0, 1, 0, 1, 0xC0000000, 0x0⟩
  | .timTrgDelay => ⟨0x71080, 4, 8, 0, 1, 0, 1, 0xFFF, 0x0⟩
  | .timTrgAct => ⟨0x710C0, 4, 8, 0, 1, 0, 1, 0xF, 0x1⟩
  | .timCapCfg => ⟨0x72040, 0, 1, 0, 1, 0, 1, 0x3FFF, 0x3FFF⟩
  | .timCapPop => ⟨0x72044, 0, 1, 0, 1, 0, 1, 0x0, 0x0⟩
  | .timCapLo => ⟨0x72048, 0, 1, 0, 1, 0, 1, 0x0, 0x0⟩
  | .timCapHi => ⟨0x7204C, 0, 1, 0, 1, 0, 1, 0x0, 0x0⟩
  | .timCapStat => ⟨0x72050, 0, 1, 0, 1, 0, 1, 0x0, 0x0⟩
  | .acqCtrl => ⟨0x80040, 0, 1, 0, 1, 0, 1, 0xFF000000, 0x8B000000⟩
  | .acqCmd => ⟨0x80044, 0, 1, 0, 1, 0, 1, 0x0, 0x0⟩
  | .acqStat => ⟨0x80048, 0, 1, 0, 1, 0, 1, 0x0, 0x0⟩
  | .acqSegCfg => ⟨0x8004C, 0, 1, 0, 1, 0, 1, 0xFFF0FFFF, 0x0⟩
  | .acqSegMax => ⟨0x80050, 0, 1, 0, 1, 0, 1, 0x1FFFF, 0x1⟩
  | .acqLastDeadB => ⟨0x80054, 0, 1, 0, 1, 0, 1, 0x0, 0x0⟩
  | .acqLastDeadNs => ⟨0x80058, 0, 1, 0, 1, 0, 1, 0x0, 0x0⟩
  | .acqDropped => ⟨0x8005C, 0, 1, 0, 1, 0, 1, 0x0, 0x0⟩
  | .acqExtLost => ⟨0x80060, 0, 1, 0, 1, 0, 1, 0x0, 0x0⟩
  | .acqLarder => ⟨0x80064, 0, 1, 0, 1, 0, 1, 0x0, 0x0⟩
  | .acqSpillBaseLo => ⟨0x80080, 0, 1, 0, 1, 0, 1, 0xFFFFF000, 0x0⟩
  | .acqSpillBaseHi => ⟨0x80084, 0, 1, 0, 1, 0, 1, 0xFFFFFFFF, 0x0⟩
  | .acqSpillSize => ⟨0x80088, 0, 1, 0, 1, 0, 1, 0x1F, 0xA⟩
  | .acqSpillDev => ⟨0x8008C, 0, 1, 0, 1, 0, 1, 0x0, 0x0⟩
  | .acqSpillHost => ⟨0x80090, 0, 1, 0, 1, 0, 1, 0xFFFFFF, 0x0⟩
  | .acqDirBaseLo => ⟨0x80094, 0, 1, 0, 1, 0, 1, 0xFFFFF001, 0x0⟩
  | .acqDirBaseHi => ⟨0x80098, 0, 1, 0, 1, 0, 1, 0xFFFFFFFF, 0x0⟩
  | .acqTuCfg => ⟨0x81040, 16, 16, 0, 1, 0, 1, 0xFFFCFFFF, 0x0⟩
  | .acqTuMask => ⟨0x81044, 16, 16, 0, 1, 0, 1, 0xFFFFFFFF, 0x0⟩
  | .acqTuValue => ⟨0x81048, 16, 16, 0, 1, 0, 1, 0xFFFFFFFF, 0x0⟩
  | .acqTuCount => ⟨0x8104C, 16, 16, 0, 1, 0, 1, 0x0, 0x0⟩
  | .acqSeqBr0 => ⟨0x82040, 8, 8, 0, 1, 0, 1, 0xFFFFFEFF, 0x0⟩
  | .acqSeqBr1 => ⟨0x82044, 8, 8, 0, 1, 0, 1, 0xFFFFFEFF, 0x0⟩
  | .tilPrbStat => ⟨0x1006040, 0x10000, 136, 0, 1, 0, 1, 0x0, 0x0⟩
  | .tilPrbMarks => ⟨0x1006044, 0x10000, 136, 0, 1, 0, 1, 0x0, 0x0⟩
  | .runCmd => ⟨0x7040, 0, 1, 0, 1, 0, 1, 0x0, 0x0⟩
  | .runStat => ⟨0x7044, 0, 1, 0, 1, 0, 1, 0x0, 0x0⟩
  | .runBatchLo => ⟨0x7048, 0, 1, 0, 1, 0, 1, 0x0, 0x0⟩
  | .runBatchHi => ⟨0x704C, 0, 1, 0, 1, 0, 1, 0x0, 0x0⟩
  | .runBcmpLo => ⟨0x7080, 16, 4, 0, 1, 0, 1, 0xFFFFFFFF, 0x0⟩
  | .runBcmpHi => ⟨0x7084, 16, 4, 0, 1, 0, 1, 0xFFFFFFFF, 0x0⟩
  | .runBcmpCtrl => ⟨0x7088, 16, 4, 0, 1, 0, 1, 0x80000003, 0x0⟩
  | .runAcmpLoLo => ⟨0x7100, 64, 8, 0, 1, 0, 1, 0xFFFFFFFF, 0x0⟩
  | .runAcmpLoHi => ⟨0x7104, 64, 8, 0, 1, 0, 1, 0xFFFFFFFF, 0x0⟩
  | .runAcmpHiLo => ⟨0x7108, 64, 8, 0, 1, 0, 1, 0xFFFFFFFF, 0x0⟩
  | .runAcmpHiHi => ⟨0x710C, 64, 8, 0, 1, 0, 1, 0xFFFFFFFF, 0x0⟩
  | .runAcmpCtrl => ⟨0x7110, 64, 8, 0, 1, 0, 1, 0xFFF00003, 0x0⟩
  | .runAcmpHit => ⟨0x7114, 64, 8, 0, 1, 0, 1, 0x0, 0x0⟩
  | .runAcmpCount => ⟨0x7118, 64, 8, 0, 1, 0, 1, 0x0, 0x0⟩
  | .runAcmpHbatchLo => ⟨0x711C, 64, 8, 0, 1, 0, 1, 0x0, 0x0⟩
  | .runAcmpHbatchHi => ⟨0x7120, 64, 8, 0, 1, 0, 1, 0x0, 0x0⟩
  | .runAcmpHaddrLo => ⟨0x7124, 64, 8, 0, 1, 0, 1, 0x0, 0x0⟩
  | .runAcmpHaddrHi => ⟨0x7128, 64, 8, 0, 1, 0, 1, 0x0, 0x0⟩
  | .wdgCfg => ⟨0x8040, 0, 1, 0, 1, 0, 1, 0x80000003, 0x0⟩
  | .wdgTimeout => ⟨0x8044, 0, 1, 0, 1, 0, 1, 0xFFFFFFFF, 0xF4240⟩
  | .wdgKick => ⟨0x8048, 0, 1, 0, 1, 0, 1, 0x0, 0x0⟩
  | .wdgStat => ⟨0x804C, 0, 1, 0, 1, 0, 1, 0x0, 0x0⟩
  | .wdgRemain => ⟨0x8050, 0, 1, 0, 1, 0, 1, 0x0, 0x0⟩
  | .criVal => ⟨0x9040, 4, 32, 0, 1, 0, 1, 0xFFFFFFFF, 0x0⟩
  | .criStat => ⟨0x90C0, 0, 1, 0, 1, 0, 1, 0x0, 0x0⟩
  | .tilWinSel => ⟨0x1008040, 0x10000, 136, 0x1000, 8, 0, 1, 0xF00007FF, 0x0⟩
  | .tilWinData => ⟨0x1008800, 0x10000, 136, 0x1000, 8, 4, 0x200, 0xFFFFFFFF, 0x0⟩
  | .prfCtrl => ⟨0xC040, 0, 1, 0, 1, 0, 1, 0xC000001F, 0x80000010⟩
  | .prfBaseLo => ⟨0xC044, 0, 1, 0, 1, 0, 1, 0xFFF00000, 0x0⟩
  | .prfBaseHi => ⟨0xC048, 0, 1, 0, 1, 0, 1, 0xFFFFFFFF, 0x0⟩
  | .prfSize => ⟨0xC04C, 0, 1, 0, 1, 0, 1, 0xFFFFFFFF, 0x800400⟩
  | .prfCmd => ⟨0xC050, 0, 1, 0, 1, 0, 1, 0x0, 0x0⟩
  | .prfStat => ⟨0xC054, 0, 1, 0, 1, 0, 1, 0x0, 0x0⟩
  | .prfCurLo => ⟨0xC058, 0, 1, 0, 1, 0, 1, 0x0, 0x0⟩
  | .prfCurHi => ⟨0xC05C, 0, 1, 0, 1, 0, 1, 0x0, 0x0⟩
  | .prfPrevLo => ⟨0xC060, 0, 1, 0, 1, 0, 1, 0x0, 0x0⟩
  | .prfPrevHi => ⟨0xC064, 0, 1, 0, 1, 0, 1, 0x0, 0x0⟩
  | .prfTimes => ⟨0xC068, 0, 1, 0, 1, 0, 1, 0x0, 0x0⟩
  | .prfLog => ⟨0xC06C, 0, 1, 0, 1, 0, 1, 0x0, 0x0⟩
  | .prfDiscard => ⟨0xC070, 0, 1, 0, 1, 0, 1, 0x0, 0x0⟩
  | .bstCfg => ⟨0xB040, 0, 1, 0, 1, 0, 1, 0x8000FFFF, 0x0⟩
  | .bstCmd => ⟨0xB044, 0, 1, 0, 1, 0, 1, 0x0, 0x0⟩
  | .bstStat => ⟨0xB048, 0, 1, 0, 1, 0, 1, 0x0, 0x0⟩
  | .bstLast => ⟨0xB04C, 0, 1, 0, 1, 0, 1, 0x0, 0x0⟩
  | .bstLastUs => ⟨0xB050, 0, 1, 0, 1, 0, 1, 0x0, 0x0⟩
  | .flsStat => ⟨0xA040, 0, 1, 0, 1, 0, 1, 0x0, 0x0⟩
  | .flsWear => ⟨0xA100, 4, 68, 0, 1, 0, 1, 0x0, 0x0⟩
  | .flsBootCfg => ⟨0xA060, 0, 1, 0, 1, 0, 1, 0xC0000003, 0x0⟩
  | .flsBootOfs => ⟨0xA064, 0, 1, 0, 1, 0, 1, 0xFFFFF000, 0x0⟩
  | .flsBootCmd => ⟨0xA068, 0, 1, 0, 1, 0, 1, 0x0, 0x0⟩
  | .glbRstCause => ⟨0x4040, 0, 1, 0, 1, 0, 1, 0x0, 0x10000000⟩
  | .glbRstCmd => ⟨0x4044, 0, 1, 0, 1, 0, 1, 0x0, 0x0⟩
  | .glbRstCount => ⟨0x4048, 0, 1, 0, 1, 0, 1, 0x0, 0x0⟩
  | .glbBootStat => ⟨0x404C, 0, 1, 0, 1, 0, 1, 0x0, 0x0⟩
  | .pwrVdio => ⟨0x2078, 0, 1, 0, 1, 0, 1, 0x0, 0x0⟩
  | .pwrVdioStat => ⟨0x207C, 0, 1, 0, 1, 0, 1, 0x0, 0x0⟩

/-- Registers of the map, piece 0. -/
def regs0 : List Reg :=
  [.pciBar2Win, .glbAlert, .glbScratch, .glbUartCfg, .glbIdent, .glbGrade, .glbUidLo, 
   .glbUidHi, .glbClkStat, .glbAonPeriod, .glbVecSrc, .pciPorterRingLo, .pciPorterRingHi, 
   .pciPorterRingSize, .pciPorterTail, .pciPorterHead, .glbChainId, .tilDpStep, .tilDpDepth, 
   .tilDpStall, .tilPhase, .tilXbatchLo, .tilXbatchHi, .tilRetry, .tilWaitLimit, 
   .tilRestLimit, .tilSeqWait, .tilFlagResidue, .tilFlag, .tilDestLo, .tilDestHi, 
   .tilMbxValid0, .tilMbxValid1, .tilMbxLo, .tilMbxHi, .tilQResidue, .tilQStat, 
   .glbSpareStat, .glbVmap, .ldrDevmap]

/-- Registers of the map, piece 1. -/
def regs1 : List Reg :=
  [.ldrMbaseLo, .ldrMbaseHi, .ldrCtrl, .ldrCmd, .ldrStat, .ldrFrames, .ldrDropped, 
   .ldrGapLimit, .ldrFirstLo, .ldrFirstHi, .ldrShadowLo, .ldrShadowHi, .ldrStage, .ldrData, 
   .ldrBuildLo, .ldrBuildHi, .ldrCrc, .ldrImage, .svcStoreOrd, .svcStoreRsv, .svcLevel, 
   .svcEngMap, .svcCacheCtrl, .svcCacheStat, .svcHqDesc, .svcHqSubmit, .svcHqStat, .svcHqCpl, 
   .svcHqCplDataLo, .svcHqCplDataHi, .svcXoutBaseLo, .svcXoutBaseHi, .svcXoutPtr, 
   .svcXinBaseLo, .svcXinBaseHi, .svcXinPtr, .svcXchSize, .svcXchStat, .svcEngStat, 
   .svcEngItems]

/-- Registers of the map, piece 2. -/
def regs2 : List Reg :=
  [.pwrLedgerCfg, .pwrHostCap, .pwrLimits, .pwrLevel, .pwrEst, .pwrLast, .pwrSupply, 
   .pwrUncore, .pwrPaceHolds, .pwrPaceTime, .pwrDeferMax, .pwrStarveLimit, .pwrIdle, 
   .pwrThCfg, .pwrCoef, .pwrTileSleep, .pwrThStat, .pwrThSensor, .tilEnSteps, .tilEnToggles, 
   .tilEnWuA, .tilEnWuB, .tilEnIdle, .tilEnLast, .tilPanOwn, .memLown, .memLstat, .memRetCfg, 
   .memChCfg, .memChEcc, .memChCe, .memChPpr, .memCapInst, .memCapUse, .memScrub, .encStat, 
   .encCarve, .encQkey, .encFailLo, .encFailHi]

/-- Registers of the map, piece 3. -/
def regs3 : List Reg :=
  [.encFailInfo, .encKeyData, .encKeyCmd, .encSlotStat, .encRgnBase, .encRgnLimit, 
   .encRgnCtrl, .encBgFirst, .encBgLast, .encBgSlots, .encBgCmd, .encBgStat, .encBgBoundLo, 
   .encBgBoundHi, .nocFwd, .nocBulk, .nocRtLo, .nocRtHi, .lnkCfg, .lnkStat, .lnkSpare, 
   .lnkPeerA, .lnkPeerB, .lnkCntA, .lnkCntB, .lnkTimers, .lnkLane, .lnkLaneErr, .timServo, 
   .timOutCfg, .timOutStat, .timOutOffset, .timNowLo, .timNowHi, .timNowFr, .timSetLo, 
   .timSetHi, .timSetFr, .timCmd, .timTsync]

/-- Registers of the map, piece 4. -/
def regs4 : List Reg :=
  [.timDomCfg, .timDomStat, .timDomOffset, .timDomRate, .timPortDelay, .timSchedLo, 
   .timSchedHi, .timSchedCtrl, .timPacePerNs, .timPacePerFr, .timPaceOverrun, .timTrgCfg, 
   .timTrgHub, .timTrgCmd, .timVl2, .timTrgDelay, .timTrgAct, .timCapCfg, .timCapPop, 
   .timCapLo, .timCapHi, .timCapStat, .acqCtrl, .acqCmd, .acqStat, .acqSegCfg, .acqSegMax, 
   .acqLastDeadB, .acqLastDeadNs, .acqDropped, .acqExtLost, .acqLarder, .acqSpillBaseLo, 
   .acqSpillBaseHi, .acqSpillSize, .acqSpillDev, .acqSpillHost, .acqDirBaseLo, .acqDirBaseHi, 
   .acqTuCfg]

/-- Registers of the map, piece 5. -/
def regs5 : List Reg :=
  [.acqTuMask, .acqTuValue, .acqTuCount, .acqSeqBr0, .acqSeqBr1, .tilPrbStat, .tilPrbMarks, 
   .runCmd, .runStat, .runBatchLo, .runBatchHi, .runBcmpLo, .runBcmpHi, .runBcmpCtrl, 
   .runAcmpLoLo, .runAcmpLoHi, .runAcmpHiLo, .runAcmpHiHi, .runAcmpCtrl, .runAcmpHit, 
   .runAcmpCount, .runAcmpHbatchLo, .runAcmpHbatchHi, .runAcmpHaddrLo, .runAcmpHaddrHi, 
   .wdgCfg, .wdgTimeout, .wdgKick, .wdgStat, .wdgRemain, .criVal, .criStat, .tilWinSel, 
   .tilWinData, .prfCtrl, .prfBaseLo, .prfBaseHi, .prfSize, .prfCmd, .prfStat]

/-- Registers of the map, piece 6. -/
def regs6 : List Reg :=
  [.prfCurLo, .prfCurHi, .prfPrevLo, .prfPrevHi, .prfTimes, .prfLog, .prfDiscard, .bstCfg, 
   .bstCmd, .bstStat, .bstLast, .bstLastUs, .flsStat, .flsWear, .flsBootCfg, .flsBootOfs, 
   .flsBootCmd, .glbRstCause, .glbRstCmd, .glbRstCount, .glbBootStat, .pwrVdio, .pwrVdioStat]

/-- Every register of the map. -/
def allRegs : List Reg :=
  regs0 ++ regs1 ++ regs2 ++ regs3 ++ regs4 ++ regs5 ++ regs6

/-- The address of register r with indices i, j, k. -/
def Reg.addr (r : Reg) (i : Nat := 0) (j : Nat := 0) (k : Nat := 0) : Nat :=
  let w := r.row
  w.base + w.s1 * i + w.s2 * j + w.s3 * k

/-- The indices at which a row of the map lies at address `a`, if it does. -/
def RegRow.locate (w : RegRow) (a : Nat) : Option (Nat × Nat × Nat) :=
  if a < w.base then none
  else
    let d := a - w.base
    let i := if w.s1 = 0 then 0 else d / w.s1
    let d := d - i * w.s1
    let j := if w.s2 = 0 then 0 else d / w.s2
    let d := d - j * w.s2
    let k := if w.s3 = 0 then 0 else d / w.s3
    let d := d - k * w.s3
    if d = 0 ∧ i < w.c1 ∧ j < w.c2 ∧ k < w.c3 then some (i, j, k) else none

/-- The first register of a list that lies at `a`, with its indices. -/
def findReg (a : Nat) : List Reg → Option (Reg × Nat × Nat × Nat)
  | [] => none
  | r :: rest =>
    match r.row.locate a with
    | some x => some (r, x)
    | none => findReg a rest

/-- The register at a BAR0 address (tile registers by physical tile). -/
def regAt (a : Nat) : Option (Reg × Nat × Nat × Nat) := findReg a allRegs

/-- The cold reset value of a register, with those that depend on the index (R178, R305, R339, R380). -/
def Reg.init (r : Reg) (i j : Nat) : Word :=
  match r with
  | .ldrDevmap =>
    BitVec.ofNat 32 (4 * i + 256 * (4 * i + 1) + 0x10000 * (4 * i + 2) + 0x1000000 * (4 * i + 3))
  | .tilPanOwn => if j = 14 ∨ j = 15 then 0x10000000 else 0
  | .memLown => if 60 ≤ i then 0x10000400 else 0
  | .encSlotStat => if i = 0 then 0x80000000 else 0
  | .lnkCfg =>
    r.row.init ||| BitVec.ofNat 32 ((i ^^^ 2) * 0x100000 + ((i ^^^ 2) + 8) * 0x1000000)
  | _ => r.row.init

/-- What a register address that nothing has written reads as: the header's PG_CTRL resets to EN and
HALT_FREEZE (R47), the other header registers to 0, an MSI-X vector masked (PRESUMED, PCIe 5.0,
assumption 31), the rest as the map gives. -/
def regInit (a : Nat) : Word :=
  if 0xAC000 ≤ a ∧ a < 0xAE000 then (if a < 0xAD000 ∧ a % 16 = 12 then 1 else 0)
  else if a % 0x1000 < 0x40 then (if a % 0x1000 = 4 then 5 else 0)
  else
    match regAt a with
    | some (r, i, j, _) => r.init i j
    | none => 0

end Sys2Proof.Machine
end

