-- ==== Sys2Proof/Machine/State.lean ====
section
/-! DEFINITION. The state of the machine: everything the spec gives the device, as plain data, with
the state after reset, the faults and the refusals. -/

namespace Sys2Proof.Machine

/-! ## Tiles (R74 to R153) -/

/-- The phase of a tile that TIL_PHASE reports (R130). -/
inductive Phase where
  | idle | start | exec | resting | batchEnd | fault
  deriving DecidableEq, Repr

/-- The power state of a tile's domain beside RUN and REST, which `phase` gives (R29). -/
inductive TilePower where
  | on | sleep | off
  deriving DecidableEq, Repr

/-- The kinds of a timed hold (R121, R122, R148). -/
inductive HoldKind where
  | wait | rest | retry | svc
  deriving DecidableEq, Repr

/-- A hold of a tile: its kind, the flag and count that a WAIT or REST names, and the time counted
so far in ns (R121). -/
structure Hold where
  kind : HoldKind
  flag : Nat
  count : Nat
  ns : Nat
  deriving DecidableEq, Repr

/-- A word unit result that is not yet visible (R98): it becomes visible in step `due`. -/
structure WuResult where
  wu : Nat
  due : Nat
  dst : Nat
  lo : Word
  hi : Option Word
  tapHi : Word
  tap : Bool
  deriving DecidableEq, Repr

/-- The four pantry operations (R102). -/
inductive PanOp where
  | ld | ldh | st | sth
  deriving DecidableEq, Repr

/-- A pantry access that has been issued and has not taken place (R103). -/
structure PanAccess where
  wu : Nat
  step : Nat
  op : PanOp
  addr : BitVec 20
  size : Nat
  data : Word
  c : Word
  dst : Nat
  tap : Bool
  deriving DecidableEq, Repr

/-- The activity counters of a tile for one batch (R248). -/
structure Energy where
  steps : Nat
  toggles : Nat
  alu : Nat
  mul : Nat
  pan : Nat
  idle : Nat
  pkts : Nat
  deriving DecidableEq, Repr

/-- Where a remote packet stands in its source interface (R137): held back, sent (alone, under item 2,
or at once) and awaiting its answer, or refused and waiting the 160 ns before it is sent again. -/
inductive RetryStage where
  | held | awaiting (alone : Bool) | refused (ns : Nat)
  deriving DecidableEq, Repr

/-- One of the 32 places of a network interface (R138). -/
structure RetryEntry where
  pkt : Packet
  stage : RetryStage
  deriving DecidableEq, Repr

/-- A MARK held in the trace buffer (R422). -/
structure Mark where
  batch : DWord
  step : Nat
  value : Half
  deriving DecidableEq, Repr

/-- One physical tile. -/
structure Tile where
  power : TilePower
  retired : Bool
  /-- the virtual tile served, when mapped (R145) -/
  vtile : Option Nat
  phase : Phase
  step : Nat
  hold : Option Hold
  /-- exchange batch (R135) -/
  xbatch : DWord
  /-- bit store, key BP * 1024 + position (R88 to R90) -/
  thenHalf : Table Bool
  nowHalf : Table (Option Bool)
  /-- outputs of the last step executed, the step bus of the next one (R87) -/
  bus : BitVec 512
  /-- spine values that word units read in the current step (R92) -/
  spine : DWord
  /-- word unit registers, key unit * 256 + register (R94) -/
  wuReg : Table Word
  /-- taps, high word above low word, key unit (R100) -/
  tap : Table DWord
  results : List WuResult
  accesses : List PanAccess
  pantry : Memory
  /-- per-line dirty bits of the two proof slots, key 64-byte line (R478) -/
  dirty0 : Table Bool
  dirty1 : Table Bool
  flags : Table (BitVec 4)
  mbx : Table DWord
  mbxValid : DWord
  /-- slots written while the set-reset holds the valid bits clear: valid from its release on (R91, R141) -/
  mbxHeld : DWord
  /-- queue storage, key queue * 16 + position, and HEAD and COUNT (R126, R153) -/
  qData : Table DWord
  qHead : Table Nat
  qCount : Table Nat
  rack : List Packet
  /-- recipe store: BP stream key step * 512 + BP, WU stream key step * 16 + unit, control stream key step -/
  bpCode : Table DWord
  wuCode : Table QWord
  ctrl : Table Word
  dest : Table DWord
  tmpl : Table QWord
  depth : Nat
  panOwnMask : Half
  probes : Nat
  probeList : Table Word
  /-- network interface: places of R138, highest reported exchange batch per entry (R137), refusals -/
  retry : List RetryEntry
  known : Table DWord
  refused : Nat
  energy : Energy
  frozen : Energy
  frozenNj : Nat
  history : List (DWord × BitVec 256)
  marks : List Mark
  deriving DecidableEq, Repr

def Energy.zero : Energy := ⟨0, 0, 0, 0, 0, 0, 0⟩

/-- A tile as a cold reset leaves it: on, resting idle, all storage zero (R507, R512 phase 6). -/
def Tile.reset : Tile where
  power := .on
  retired := false
  vtile := none
  phase := .idle
  step := 0
  hold := none
  xbatch := 0
  thenHalf := []
  nowHalf := []
  bus := 0
  spine := 0
  wuReg := []
  tap := []
  results := []
  accesses := []
  pantry := []
  dirty0 := []
  dirty1 := []
  flags := []
  mbx := []
  mbxValid := 0
  mbxHeld := 0
  qData := []
  qHead := []
  qCount := []
  rack := []
  bpCode := []
  wuCode := []
  ctrl := []
  dest := []
  tmpl := []
  depth := 0
  panOwnMask := 0
  probes := 0
  probeList := []
  retry := []
  known := []
  refused := 0
  energy := Energy.zero
  frozen := Energy.zero
  frozenNj := 0
  history := []
  marks := []

/-! ## Loader (R185 to R213) -/

/-- The loader's states (R188). -/
inductive LdrState where
  | empty | service | header | stage | write | check | commit | failed
  deriving DecidableEq, Repr

/-- What the loader keeps of an image header (R165). -/
structure Header where
  tgc : Nat
  minStepping : Nat
  reqTiles : Nat
  partialImg : Bool
  regionFirst : Nat
  regionLast : Nat
  self : Nat
  models : Nat
  frameCount : Nat
  build : DWord
  deriving DecidableEq, Repr

/-- A patch record (R175). -/
structure Reloc where
  index : Nat
  mbase : Bool
  sym : Nat
  vtile : Nat
  stream : Nat
  offset : Nat
  deriving DecidableEq, Repr

/-- A staged frame, kept by its VTILE, STREAM and OFFSET, with the larder address of its payload
(R166, R200). -/
structure Frame where
  vtile : Nat
  stream : Nat
  offset : Nat
  addr : Nat
  deriving DecidableEq, Repr

/-- A read of the SPI boot flash (R187): command, byte address, quad mode with its dummy cycles, the rate
of SPI_SCK in Hz, and the bytes of the image. -/
structure SpiRead where
  cmd : Byte
  addr : Nat
  quad : Bool
  dummy : Nat
  sckHz : Nat
  length : Nat
  deriving DecidableEq, Repr

structure Loader where
  state : LdrState
  /-- bytes received and not yet taken as header, frame or trailer -/
  buf : List Byte
  /-- header of the load in progress -/
  hdr : Option Header
  /-- header of the image in service -/
  image : Option Header
  inService : Bool
  setReset : Bool
  done : Bool
  cfgerr : Bool
  partialLoad : Bool
  /-- whether the last load to reach SERVICE was partial (R208), and LDR_FIRST of the image in service -/
  lastPartial : Bool
  imageFirst : DWord
  shadowOk : Bool
  frames : Nat
  perTileSeen : Bool
  seen : List (Nat × Nat × Nat)
  staged : List Frame
  /-- frames staged in the current or last partial load (R212) -/
  stagedCount : Nat
  relocs : List Reloc
  /-- RELOC frames taken: OFFSET and the records before the first one of KIND 0 (R175) -/
  relocFrames : List (Nat × Nat)
  /-- destination entries as the image carries them, key VTILE * 256 + entry, and the image device
  numbers with a valid ROUTE entry: the checks of R181 use the numbers of the image -/
  rawDest : Table DWord
  routeOk : List Nat
  /-- the image in service was kept at a failure (R203) -/
  kept : Bool
  /-- CRC register over the bytes taken so far, before the final XOR (R173) -/
  crc : Word
  trailer : List Byte
  /-- latched at header acceptance (R190) -/
  devmap : Table Byte
  baseLoad : Table DWord
  first : DWord
  shadowEn : Bool
  shadowAddr : DWord
  stageBanks : List Nat
  vmap : Table Nat
  /-- time since the last byte (R210), ns -/
  gapNs : Nat
  /-- model bases, declarations (SIZE, INTEGRITY) and pin bindings (DATA, ENABLE, CONFIG) in service -/
  mbase : Table DWord
  modelSize : Table DWord
  modelInteg : Table Bool
  pinData : Table Word
  pinEnable : Table Word
  pinConfig : Table Word
  /-- batch number at which the set-reset was last released; FIRST reads 1 in that batch (R85) -/
  firstBatch : DWord
  /-- the last read of the SPI boot flash that the loader began (R187) -/
  spi : Option SpiRead
  deriving DecidableEq, Repr

def Loader.reset : Loader where
  state := .empty
  buf := []
  hdr := none
  image := none
  inService := false
  setReset := true
  done := false
  cfgerr := false
  partialLoad := false
  lastPartial := false
  imageFirst := 0
  shadowOk := false
  frames := 0
  perTileSeen := false
  seen := []
  staged := []
  stagedCount := 0
  relocs := []
  relocFrames := []
  rawDest := []
  routeOk := []
  kept := false
  crc := 0xFFFFFFFF
  trailer := []
  devmap := []
  baseLoad := []
  first := 0
  shadowEn := false
  shadowAddr := 0
  stageBanks := []
  vmap := []
  gapNs := 0
  mbase := []
  modelSize := []
  modelInteg := []
  pinData := []
  pinEnable := []
  pinConfig := []
  firstBatch := 0
  spi := none

/-! ## Run control (R450 to R473) -/

/-- The run states (R450). -/
inductive RunState where
  | idle | run | halting | halted | recover
  deriving DecidableEq, Repr

structure RunCtl where
  state : RunState
  /-- comparator registers as the last start phase took them (R459), key BAR0 address -/
  cmp : Table Word
  causes : BitVec 13
  /-- RESUMABLE as R453 and R452 give it, read in HALTED only -/
  resumable : Bool
  batch : DWord
  /-- a batch is in its start, execute or batch-end phase -/
  inBatch : Bool
  /-- a single-batch step has been released and its batch has not started (R456) -/
  stepPending : Bool
  /-- the next batch is the first after a release (R253, R400, R401) -/
  firstAfterRelease : Bool
  /-- no batch of this run has started yet (R410 source 12) -/
  newRun : Bool
  /-- watchdog: remaining ns and whether it counts (R460) -/
  wdgNs : Nat
  wdgStopped : Bool
  /-- the drivers are off after a watchdog expiry with ACTION 2 (R460) -/
  driversOff : Bool
  /-- a batch that started after that expiry has begun -/
  driversArmed : Bool
  /-- crier items waiting in the crier block: crier, value, batch, output time ns (R461) -/
  criers : List (Nat × Word × DWord × DWord)
  /-- time halted without a break, and time HALTED with RESUMABLE 1, ns (R265, R30) -/
  haltedNs : Nat
  resumableNs : Nat
  /-- PWR_TILE_SLEEP as the last halt took it (R277) -/
  sleepCfg : Word
  deriving DecidableEq, Repr

def RunCtl.reset : RunCtl where
  state := .idle
  cmp := []
  causes := 0
  resumable := false
  batch := 0
  inBatch := false
  stepPending := false
  firstAfterRelease := false
  newRun := false
  wdgNs := 0
  wdgStopped := false
  driversOff := false
  driversArmed := false
  criers := []
  haltedNs := 0
  resumableNs := 0
  sleepCfg := 0x80000064

/-! ## Service plane (R214 to R246) -/

/-- The source of a work item (R222). -/
inductive SvcSource where
  | tile (vtile : Nat) | porter (p : Nat) | mcache | acq | proofs | memory | crier | sup | dbg
  deriving DecidableEq, Repr

/-- Where a store entry stands (R219 to R237). -/
inductive SvcStage where
  | collecting | ready | running (engine : Nat) | parked (chan : Nat)
  | kept (ns : Nat) | done
  /-- discarded at a drain limit, reported at the next batch end (R493) -/
  | orphaned
  deriving DecidableEq, Repr

/-- An entry of the matching store: a work item (R219, R222). -/
structure SvcItem where
  id : Nat
  source : SvcSource
  /-- TYPE and MATCH of the token that opened the entry, and its batch -/
  type : Byte
  matchId : Nat
  batch : DWord
  /-- the fields, from the lead template or the host descriptor -/
  w0 : DWord
  w1 : DWord
  hasLead : Bool
  tmplNo : Nat
  /-- virtual tile of token 0, or of the first token -/
  vtile : Nat
  t0 : Option DWord
  t1 : Option DWord
  t2 : Option DWord
  t3 : Option DWord
  /-- the virtual tile that sent each token, key token number -/
  tokVt : Table Nat
  /-- TAG of a host item -/
  tag : Half
  stage : SvcStage
  /-- time held under R227, ns -/
  heldNs : Nat
  /-- released by R256 -/
  forced : Bool
  /-- result kept with a refused completion (R231), or with a host completion -/
  result : DWord
  status : Byte
  deriving DecidableEq, Repr

/-- A line of the model cache (R233, R311). -/
structure CacheLine where
  line : Nat
  data : BitVec 512
  dirty : Bool
  slot : Nat
  /-- the larder bank that holds the line, and its set of that bank, 0 to 511 -/
  bank : Nat
  set : Nat
  deriving DecidableEq, Repr

/-- A completion waiting in a host queue (R243, R244). -/
structure HostCpl where
  item : Nat
  tag : Half
  status : Byte
  result : DWord
  deriving DecidableEq, Repr

structure Service where
  nextId : Nat
  /-- store entries, oldest first -/
  store : List SvcItem
  /-- ids of complete items in the order in which they became complete: the first 1,024 of a level hold
  its places, the others wait in the store (R223, R225) -/
  ready : List Nat
  /-- item running on each engine, by engine number -/
  engines : Table (Option Nat)
  engType : Table Byte
  retired : List Nat
  /-- completions of the supervisor queue and of the debug queue -/
  cplSup : List HostCpl
  cplDbg : List HostCpl
  /-- oldest line first -/
  cache : List CacheLine
  /-- ids parked on a channel, in the order in which they were parked (R237) -/
  parkOrder : List Nat
  /-- SVC tokens on the TOK network, in order -/
  tokens : List Token
  /-- items of the model cache that wait for an entry of the internal class (R222) -/
  waitItems : List SvcItem
  /-- engines that serve (R485), kept in the AON domain and written to flash with the spare map -/
  serving : List Nat
  /-- the write-back of an immediate stop has not been made (R228, R235) -/
  flushDue : Bool
  deriving DecidableEq, Repr

def Service.reset : Service := ⟨0, [], [], [], [], [], [], [], [], [], [], [], List.range 16, false⟩

/-! ## Energy ledger (R247 to R279) -/

structure Ledger where
  /-- level L in fJ (10^-6 nJ): µW times ns -/
  level : Int
  /-- P_TH and P_IN in µW -/
  pThUw : Int
  pInUw : Nat
  /-- uncore draw of the last 250 AON ticks in pJ, newest first (R250) -/
  uncore : List Nat
  /-- e of the last controller period in 0.25 °C, none before the first reading (R261) -/
  ePrev : Option Int
  thermOver : Bool
  /-- LIMITER, B in force and B as last recomputed, in µW: the latter takes effect at the next AON tick (R259,
  R263) -/
  limiter : Nat
  budgetUw : Nat
  nextUw : Nat
  /-- E_est of the next or current batch, E_batch of the last, both in nJ -/
  est : Nat
  estCurrent : Nat
  last : Nat
  /-- NCLK cycles that the peak guard still holds the next batch (R254), as ns * 1.6; kept in ns -/
  guardNs : Nat
  /-- a batch start is being held by R254: time held, ns; reported as starved -/
  holdNs : Option Nat
  starved : Bool
  /-- ns not yet counted into PWR_PACE_TIME -/
  paceRest : Nat
  sensors : Table (Option Int)
  deriving DecidableEq, Repr

def Ledger.reset : Ledger where
  level := 0
  pThUw := 400000000
  pInUw := 0
  uncore := []
  ePrev := none
  thermOver := false
  limiter := 0
  budgetUw := 0
  nextUw := 0
  est := 0
  estCurrent := 0
  last := 0
  guardNs := 0
  holdNs := none
  starved := false
  paceRest := 0
  sensors := []

/-! ## Memory and encryption (R280 to R341) -/

/-- A key slot (R315). -/
structure KeySlot where
  k1 : BitVec 256
  k2 : BitVec 256
  deriving DecidableEq, Repr

/-- The background engine's states (R341). -/
inductive BgState where
  | idle | rekey | done | seal
  deriving DecidableEq, Repr

structure Crypt where
  /-- valid slots 1 to 63 -/
  slots : Table (Option KeySlot)
  kt : Option (BitVec 256)
  /-- ENC_KEY_DATA, word i at bits [32i + 31 : 32i] -/
  keyData : BitVec 512
  bg : BgState
  bgRegion : Nat
  bgOld : Nat
  bgNew : Nat
  bgFirst : DWord
  bgEnd : DWord
  bound : DWord
  /-- the engine accepts no request after an integrity failure (R328) -/
  integrityHalt : Bool
  deriving DecidableEq, Repr

def Crypt.reset : Crypt := ⟨[], none, 0, .idle, 0, 0, 0, 0, 0, 0, false⟩

/-- A bank handover in progress (R283). -/
structure Handover where
  larder : Bool
  ptile : Nat
  bank : Nat
  kind : Nat
  index : Nat
  clear : Bool
  deriving DecidableEq, Repr

structure Memories where
  /-- DDR as stored: ciphertext and tags -/
  ddr : Memory
  larder : Memory
  handovers : List Handover
  /-- handovers that the device starts once a host handover of the bank has ended (R283) -/
  waiting : List Handover
  /-- next line of the patrol scrub, and the channels in self-refresh -/
  scrubNext : Nat
  selfRefresh : List Nat
  chIdleNs : Table Nat
  /-- corrected errors of the pass per (channel, rank, device) and per (channel, rank, row), and repair queues -/
  ceDevice : List ((Nat × Nat × Nat) × Nat)
  ceRow : List ((Nat × Nat × Nat) × Nat)
  pprQueue : List (Nat × Nat × Nat)
  pprSoft : List (Nat × Nat × Nat)
  pprHard : List (Nat × Nat × Nat)
  larderIdleNs : Table Nat
  /-- DRAM devices marked failed: channel, rank, device (R300) -/
  failedDev : List (Nat × Nat × Nat)
  /-- time since the last patrol item (R302), ns -/
  scrubNs : Nat
  /-- corrected SRAM errors, lines refilled for an uncorrectable one among them (R293) -/
  sramCount : Nat
  /-- the SPD identities read from the DIMMs of channels A to H (R296, R514), and the DIMM reset, held asserted until
  phase 7 of a start (R511) -/
  dimms : List (List DWord)
  dimmReset : Bool
  deriving DecidableEq, Repr

def Memories.reset : Memories := ⟨[], [], [], [], 0, [], [], [], [], [], [], [], [], [], 0, 0, [], true⟩

/-! ## Packet network and links (R342 to R384) -/

/-- The states of a logical port (R362). -/
inductive LinkState where
  | off | pll | detect | lock | eq | order | init | active | swap | failed | drain
  deriving DecidableEq, Repr

/-- A link packet in a retry buffer with the number of times it was sent (R372). -/
structure Unacked where
  pkt : LinkPacket
  sends : Nat
  deriving DecidableEq, Repr

/-- The TIME and ANNOUNCE state of one domain on one logical port (R390 to R393). -/
structure PortSync where
  txSeq : Nat
  /-- stamps x1 of the TIME cells sent, by SEQ, newest first, in 2^-16 ns -/
  sent : List (Nat × Nat)
  /-- the last four TIME cells received, newest first: SEQ, TX_NS, TX_FR, stamp x2 in 2^-16 ns -/
  rx : List (Nat × Nat × Nat × Nat)
  /-- full TX value of the last REF_SEQ, in ns -/
  full : Option Nat
  annValid : Bool
  annHops : Nat
  annMaster : Byte
  annPriority : Byte
  deriving DecidableEq, Repr

def PortSync.reset : PortSync := ⟨0, [], [], none, false, 0, 0, 0⟩

structure LogicalPort where
  state : LinkState
  /-- the port runs split, and this is a half of it (R353) -/
  split : Bool
  attempts : Nat
  /-- time in the present state, ns -/
  ns : Nat
  /-- receive lanes locked (R363) -/
  lanes : BitVec 9
  /-- receivers of this end that are satisfied, and transmit lanes that the far end is satisfied with (R365) -/
  ready : BitVec 9
  farReady : BitVec 9
  /-- status of each transmit lane's taps, PRE in bits [1:0], MAIN, POST (R366) -/
  txStatus : Table (BitVec 6)
  /-- requests outstanding for the far lane that each receive lane tunes: PRE, MAIN, POST, PRESET_REQ, PRESET -/
  rxReq : Table (BitVec 9)
  /-- far transmit lane that each receive lane reads -/
  farLane : Table Nat
  reversed : Bool
  markerDeskew : Bool
  /-- consecutive agreeing INIT cells (R368), the last one, and the receive lane that failed here in LOCK or EQ -/
  initSeen : Nat
  lastInit : QWord
  lost : Option Nat
  /-- lane errors of the last ms: receive lane, number, age in ns (R374) -/
  errs : List (Nat × Nat × Nat)
  /-- sender: next SEQ, retry buffer, cells sent per virtual network, FREED counts reported -/
  txSeq : BitVec 12
  retryBuf : List Unacked
  sentExch : Nat
  sentAns : Nat
  freedExch : Nat
  freedAns : Nat
  /-- time since ACK_SEQ advanced or the buffer became not empty, ns -/
  ackNs : Nat
  /-- receiver: SEQ expected, whether one was accepted, packets accepted and time since the last ACK cell,
  cells freed, the SEQ of the last NAK and the time since it -/
  rxSeq : BitVec 12
  rxAny : Bool
  sinceAck : Nat
  sendNs : Nat
  rxFreedExch : Nat
  rxFreedAns : Nat
  nakFor : Option (BitVec 12)
  nakNs : Nat
  /-- lane swap (R374): the logical lane, whether this end detected it, whether the far end has answered -/
  swapLane : Nat
  swapDetected : Bool
  swapAcked : Bool
  /-- NAK_SEQ of a NAK that came in SWAP, and the skew that lane 8 showed there, bit times -/
  swapNak : Option (BitVec 12)
  swapSkew : Nat
  syncA : PortSync
  syncB : PortSync
  /-- link delay samples of R391, newest first, in 2^-16 ns -/
  delays : List Int
  deriving DecidableEq, Repr

def LogicalPort.reset : LogicalPort where
  state := .off
  split := false
  attempts := 0
  ns := 0
  lanes := 0
  ready := 0
  farReady := 0
  txStatus := []
  rxReq := []
  farLane := []
  reversed := false
  markerDeskew := false
  initSeen := 0
  lastInit := 0
  lost := none
  errs := []
  txSeq := 0
  retryBuf := []
  sentExch := 0
  sentAns := 0
  freedExch := 0
  freedAns := 0
  ackNs := 0
  rxSeq := 0
  rxAny := false
  sinceAck := 0
  sendNs := 0
  rxFreedExch := 0
  rxFreedAns := 0
  nakFor := none
  nakNs := 0
  swapLane := 0
  swapDetected := false
  swapAcked := false
  swapNak := none
  swapSkew := 0
  syncA := PortSync.reset
  syncB := PortSync.reset
  delays := []

/-- A packet or answer at a hub quadrant, with the logical port it arrived through (none: a tile of
this device, R349). -/
structure QuadItem where
  arrived : Option Nat
  pkt : Packet
  deriving DecidableEq, Repr

structure QuadAnswer where
  arrived : Option Nat
  ans : Answer
  deriving DecidableEq, Repr

structure Network where
  /-- exchange packets between tiles of this device, in issue order (R132, R346) -/
  loc : List Packet
  /-- remote packets at the quadrants -/
  quad : List QuadItem
  quadAns : List QuadAnswer
  /-- remote packets delivered to this device's tiles, and answers delivered to their source -/
  arrivals : List Packet
  answers : List Answer
  /-- cells handed to a port's transmitters, in order: logical port, type, payload -/
  linkTx : List (Nat × BitVec 4 × QWord)
  /-- cells that one transmit lane sends alone, TRAIN and IDLE: port, lane, type, payload (R356, R365) -/
  laneTx : List (Nat × Nat × BitVec 4 × QWord)
  deriving DecidableEq, Repr

def Network.reset : Network := ⟨[], [], [], [], [], [], []⟩

/-! ## Time keeper (R385 to R417) -/

/-- The states of a time domain (R395). -/
inductive DomState where
  | off | search | track | locked | lost
  deriving DecidableEq, Repr

structure Domain where
  state : DomState
  /-- the estimate in 2^-40 ns, as of the last base tick -/
  est : BitVec 104
  /-- rate r and integral r_int in 2^-40 -/
  rate : Int
  rInt : Int
  /-- ns since the last update (R396), and since it while TRACK or LOCKED (R395) -/
  sinceNs : Nat
  good : Nat
  bad : Nat
  parent : Option Nat
  hops : Nat
  master : Byte
  priority : Byte
  lastE : Int
  /-- a SET waits for the next TSYNC edge -/
  setPending : Bool
  /-- time LOCKED without a break, ns (R398 item 4) -/
  lockedNs : Nat
  deriving DecidableEq, Repr

def Domain.reset : Domain := ⟨.off, 0, 0, 0, 0, 0, 0, none, 0, 0, 0, 0, false, 0⟩

/-- The states of the output (R397). -/
inductive OutState where
  | free | followA | followB | holdover
  deriving DecidableEq, Repr

/-- The VL2 states (R408). -/
inductive Vl2State where
  | idle | armed | fired
  deriving DecidableEq, Repr

/-- A capture: source and time of R385 (64 bits ns, 16 bits fraction), and the NCLK cycle in which it fell. -/
structure Capture where
  cycle : Nat
  source : Nat
  ns : DWord
  frac : Half
  deriving DecidableEq, Repr

structure TimeKeeper where
  /-- REFCLK100 present at cold reset and not lost; lost since (R388) -/
  ref : Bool
  refLost : Bool
  /-- NCLK cycles from the last AON tick to the moment at which the commands fall, 0 to 63 (R386) -/
  sub : Nat
  /-- output time in 2^-40 ns as of the last base tick, its rate and state -/
  out : BitVec 104
  rOut : Int
  outState : OutState
  valid : Bool
  eOut : Int
  switches : Nat
  domA : Domain
  domB : Domain
  /-- pacing: grid origin in 2^-16 ns and the first slot that has neither passed nor been used (R401) -/
  grid : Option Nat
  nextSlot : Nat
  /-- the slot that the next batch waits for (R400, R401) -/
  slot : Option Nat
  /-- fires to drive: line and slot; pending events: line and slot; VL2 fire to act on -/
  fires : List (Nat × Nat)
  events : List (Nat × Nat)
  vl2 : Vl2State
  /-- what the device drives on TRG7 under VL2: 1 an arm pulse, 2 a fire -/
  vl2Drive : List Nat
  vl2FallNs : Option Nat
  cal : Option Nat
  captures : List Capture
  deriving DecidableEq, Repr

def TimeKeeper.reset : TimeKeeper where
  ref := false
  refLost := false
  sub := 0
  out := 0
  rOut := 0
  outState := .free
  valid := false
  eOut := 0
  switches := 0
  domA := Domain.reset
  domB := Domain.reset
  grid := none
  nextSlot := 0
  slot := none
  fires := []
  events := []
  vl2 := .idle
  vl2Drive := []
  vl2FallNs := none
  cal := none
  captures := []

/-! ## Acquisition (R418 to R449) -/

/-- The engine states (R423). -/
inductive AcqState where
  | idle | live | window | rearm | drain
  deriving DecidableEq, Repr

/-- A sampled batch: its number, the output time of its batch end in 2^-16 ns, the external events assigned to it,
input and stamp in ns, and whether the output was VALID at its batch end (R419, R429, R432). -/
structure Sample where
  batch : DWord
  end16 : Nat
  ext : List (Nat × DWord)
  valid : Bool
  deriving DecidableEq, Repr

/-- The open segment (R432). -/
structure Segment where
  trigger : DWord
  first : DWord
  /-- the last batch recorded and the output time of its batch end, 2^-16 ns -/
  last : DWord
  lastEnd : Nat
  /-- batches dropped in the segment -/
  dropped : Nat
  /-- batches recorded and not yet written into records -/
  group : List DWord
  /-- rises per probe, key virtual tile * 256 + probe; minimum and maximum per probe word, key virtual
  tile * 8 + word; condition counts per unit -/
  counts : Table Nat
  mins : Table Word
  maxs : Table Word
  cond : Table Nat
  deriving DecidableEq, Repr

/-- What the directory keeps of a segment (R441), and the stream blocks of its SEG_START and REARM. -/
structure DirEntry where
  segment : Nat
  trigger : DWord
  stamp16 : Nat
  timeValid : Bool
  ext : Bool
  truncated : Bool
  dropped : Bool
  startBlock : Option Nat
  startRing : Nat
  rearmBlock : Option Nat
  deadB : Nat
  deadNs : Nat
  deriving DecidableEq, Repr

structure Acq where
  state : AcqState
  /-- sequencer state and current or next segment number -/
  seq : Nat
  segment : Nat
  /-- segments closed, and batches sampled, since ARM (R432) -/
  closed : Nat
  since : Nat
  /-- first batch evaluated after ARM or the last re-arm (R428 CHANGE) -/
  firstEval : Option DWord
  /-- external events not yet assigned to a batch -/
  ext : List (Nat × DWord)
  /-- inputs with an event, of the last 4,096 batches that had one, newest first -/
  extPast : List (DWord × List Nat)
  /-- batches sampled and not yet evaluated or recorded, oldest first -/
  sampled : List Sample
  /-- a HALT action waits for the start of the next batch (R430) -/
  haltNext : Bool
  seg : Option Segment
  dirs : List DirEntry
  /-- stream: the banks as ARM found them, the block in progress and the 16-byte units written of it,
  complete blocks not spilled, oldest first -/
  banks : List Nat
  wrBlock : Nat
  wrUnits : Nat
  blocks : List Nat
  /-- records that wait for room: what they are (0 other, 1 SEG_START, 2 REARM), segment, bytes -/
  out : List (Nat × Nat × List Byte)
  /-- batches dropped and not yet reported by a GAP record -/
  gap : List DWord
  deriving DecidableEq, Repr

def Acq.reset : Acq where
  state := .idle
  seq := 0
  segment := 0
  closed := 0
  since := 0
  firstEval := none
  ext := []
  extPast := []
  sampled := []
  haltNext := false
  seg := none
  dirs := []
  banks := []
  wrBlock := 0
  wrUnits := 0
  blocks := []
  out := []
  gap := []

/-! ## Proofs (R475 to R493) -/

/-- PRF_STAT.STATE (R501). -/
inductive PrfState where
  | idle | saving | restoring | replaying
  deriving DecidableEq, Repr

/-- A proof: its proof batch, the slot that holds it, and the number of undo entries made before it. -/
structure Proof where
  batch : DWord
  slot : Nat
  mark : Nat
  deriving DecidableEq, Repr

/-- An undo log entry (R481): its number, counted from the first entry made, and its batch. Its content
stands in DDR, at its number modulo the entries that the log holds. -/
structure Undo where
  pos : Nat
  batch : DWord
  deriving DecidableEq, Repr

/-- An input log record (R482). -/
inductive LogRec where
  | batch (n : DWord) (din : BitVec 128)
  | xin (vt tmpl chan : Nat) (word : DWord) (batch : DWord)
  | arrive (step : Nat) (p : Packet)
  | sent (vt entry : Nat) (tag : DWord)
  | window (vt space off : Nat) (data : Word) (batch : DWord)
  deriving DecidableEq, Repr

structure Proofs where
  state : PrfState
  cur : Option Proof
  prev : Option Proof
  /-- the reasons for which the run is unprotected, the latest first (R484) -/
  unprot : List Nat
  recoveries : Nat
  /-- XOUT items done since CUR: batch, virtual tile and template; and those that a replay does not
  repeat (R238) -/
  xoutDone : List (DWord × Nat × Nat)
  xoutRedo : List (DWord × Nat × Nat)
  /-- newest entry first, the number of the next entry, and the lowest mark that the log reaches back to -/
  undo : List Undo
  undoNext : Nat
  undoLow : Nat
  /-- oldest record first -/
  input : List LogRec
  undoFull : Bool
  inputFull : Bool
  /-- a save is due at the next boundary (R476 items 3 and 4), the base proof is due, the recipe copy is due -/
  saveDue : Bool
  baseDue : Bool
  recipeDue : Bool
  /-- the next save discards every earlier proof (R476 item 4); the batch of the last save tried -/
  discardOld : Bool
  savedAt : Option DWord
  /-- the save in progress: target slot, undo mark, tiles whose item is not issued yet, first failure -/
  target : Nat
  mark : Nat
  todo : List Nat
  saveFail : Option Nat
  /-- the mapped tiles sleep when the save completes (R30) -/
  sleepAfter : Bool
  /-- the restore in progress: its proof, whether a replay follows, and the replacement tiles -/
  restoring : Option Proof
  thenReplay : Bool
  newTiles : List Nat
  /-- a pause waits for answers (R486 step 3); from the fault to the batch end of batch f (R487) -/
  awaiting : Bool
  redo : Bool
  /-- recovery: the interrupted batch, time in the pause, the fault's code, replay input -/
  faultBatch : DWord
  pauseNs : Nat
  saveNs : Nat
  faultCode : Half
  replay : List LogRec
  haltRequests : BitVec 13
  /-- a single fault while HALTED: restore and replay follow at the next release (R489) -/
  restoreDue : Bool
  /-- a fault in HALTED found no spare, which the next release reports (R489) -/
  noSpare : Bool
  /-- physical tiles that failed and are replaced at step 4 of the pause (R486) -/
  failedTiles : List Nat
  /-- mapped tiles sleep and wait for a restore from the proof at the next release (R30) -/
  sleeping : Bool
  deriving DecidableEq, Repr

def Proofs.reset : Proofs where
  state := .idle
  cur := none
  prev := none
  unprot := []
  recoveries := 0
  xoutDone := []
  xoutRedo := []
  undo := []
  undoNext := 0
  undoLow := 0
  input := []
  undoFull := false
  inputFull := false
  saveDue := false
  baseDue := false
  recipeDue := false
  discardOld := false
  savedAt := none
  target := 0
  mark := 0
  todo := []
  saveFail := none
  sleepAfter := false
  restoring := none
  thenReplay := false
  newTiles := []
  awaiting := false
  redo := false
  faultBatch := 0
  pauseNs := 0
  saveNs := 0
  faultCode := 0
  replay := []
  haltRequests := 0
  restoreDue := false
  noSpare := false
  failedTiles := []
  sleeping := false

/-! ## Always-on domain: reset, chain, console, flash, fuses, pins -/

/-- Where the device stands between its resets (R505 to R517). -/
inductive Power where
  | unpowered | coldReset | starting | running | warmReset | trip | shutdown
  deriving DecidableEq, Repr

/-- A copy of the boot settings: the 16-byte record of R498, field by field as it stands in flash. -/
structure BootCopy where
  flags : Byte
  sck : Byte
  rsvd : Half
  offset : Word
  seq : Word
  crc : Word
  deriving DecidableEq, Repr

/-- A record that has been erased and not written. -/
def BootCopy.erased : BootCopy := ⟨0xFF, 0xFF, 0xFFFF, 0xFFFFFFFF, 0xFFFFFFFF, 0xFFFFFFFF⟩

/-- The spare map (R160, R485): the physical tile of each virtual tile, none when it is invalid, the tiles and the
service engines retired, and the engines that serve. -/
structure SpareMap where
  tiles : Table (Option Nat)
  retiredTiles : List Nat
  retiredEngines : List Nat
  servingEngines : List Nat
  deriving DecidableEq, Repr

/-- A write of a copy in flash: boot settings to copy A or to copy B, the spare map, the repair map (R497). -/
inductive FlashWrite where
  | boot (c : BootCopy) (toA : Bool)
  | spare (m : SpareMap)
  | repair (l : List Word)
  deriving DecidableEq, Repr

/-- What a planned shutdown records of DDR: the SPD identities of the DIMMs of channels A to H, and the training
results as MEM_CH_CFG tells them (R514, R516). -/
structure DdrRecord where
  dimms : List (List DWord)
  training : List Word
  deriving DecidableEq, Repr

/-- Embedded flash (R497): what the device itself reads and writes there. -/
structure Flash where
  /-- the two copies of the spare map and of the repair map; whether the second is the current one (R497) -/
  spareA : SpareMap
  spareB : SpareMap
  spareCopyB : Bool
  repairA : List Word
  repairB : List Word
  repairCopyB : Bool
  bootA : BootCopy
  bootB : BootCopy
  records : List (Nat × Nat × Nat × Word × Word × Word)
  nextSlice : Nat
  trips : List Nat
  clean : Bool
  coldStarts : Nat
  ddr : Option DdrRecord
  /-- vendor data of logical sectors 9 to 63, by byte address in the flash -/
  vendor : Memory
  /-- erases per physical sector and the physical sectors retired; logical sector n is served by
  physical sector n until it is retired -/
  erases : Table Nat
  retiredSectors : List Nat
  sectorOf : Table Nat
  readonly : Bool
  /-- copies waiting to be written, the one being written first (R497, R504) -/
  writing : List FlashWrite
  /-- a trip record that no start has reported yet (R269) -/
  tripReport : Bool
  /-- lanes, 9 * port + lane, that failed self-test and fail LOCK at their next training, and sensors that it
  marked invalid (R496) -/
  failLanes : List Nat
  badSensors : List Nat
  /-- what a cold reset interrupted that the flash still tells: bit 13 a shutdown, 15 a flash write (R519) -/
  interrupted : Nat
  deriving DecidableEq, Repr

/-- The current copy of the spare map, and its parts. -/
def Flash.spare (f : Flash) : SpareMap := if f.spareCopyB then f.spareB else f.spareA

/-- The current copy of the repair map. -/
def Flash.repairMap (f : Flash) : List Word := if f.repairCopyB then f.repairB else f.repairA

/-- Fuses (R54, R249, R162). -/
structure Fuses where
  tgc : Nat
  stepping : Byte
  deviceId : Half
  active : Nat
  sclk : Nat
  uid : DWord
  coef : Table Word
  spareTiles : List Nat
  /-- redundant columns assigned at manufacturing test, written as entries of the repair map (R294) -/
  columns : List Word
  deriving DecidableEq, Repr

/-- Fuses of the OTK9128-20 that the model takes (assumption 2; TGC, FAMILY, ACTIVE and SCLK are
those of R1, R3 and R54; COEF is the table of typical values of R249). -/
def Fuses.reset : Fuses where
  tgc := 1
  stepping := 1
  deviceId := 0x9128
  active := 128
  sclk := 20
  uid := 0
  coef := [(0, 7680), (1, 14), (2, 192), (3, 640), (4, 400), (5, 240), (6, 960)]
  spareTiles := List.range' 128 8
  columns := []

/-- Flash as a new part holds it (assumption 2): virtual tile v on physical tile v, no retired block, no
clean mark (R549), autoload off in copy A. -/
def Flash.reset : Flash where
  spareA := ⟨(List.range 128).map fun v => (v, some v), [], [], List.range 16⟩
  spareB := ⟨[], [], [], []⟩
  spareCopyB := false
  repairA := []
  repairB := []
  repairCopyB := false
  bootA := ⟨0, 1, 0, 0, 1, 0x02E77ECA⟩
  bootB := BootCopy.erased
  records := []
  nextSlice := 0
  trips := []
  clean := false
  coldStarts := 0
  ddr := none
  vendor := []
  erases := []
  retiredSectors := []
  sectorOf := []
  readonly := false
  writing := []
  tripReport := false
  failLanes := []
  badSensors := []
  interrupted := 0

/-- Supplies, and where the device stands between its resets (R505 to R528). -/
structure Supply where
  power : Power
  /-- ns of wall-clock time since the AON domain started (A of R512) -/
  ns : Nat
  /-- ns since the present reset began -/
  phaseNs : Nat
  vinMv : Nat
  vioOn : Bool
  vdioMv : Table Nat
  vdioOn : BitVec 4
  /-- the endpoint completes requests, or answers with Request Retry Status, and ns of that (R513) -/
  pcieUp : Bool
  pcieRetry : Bool
  pcieNs : Nat
  /-- the load in progress is the autoload (R186) -/
  autoload : Bool
  stepPllOn : Bool
  /-- AON clock from XTAL_IN (R540) -/
  xtal : Bool
  /-- what caused the last cold reset, as SOURCE of GLB_RST_CAUSE tells it (R519) -/
  resetSource : Nat
  /-- a planned shutdown whose step 1 drains, with its TEST (R516) -/
  shut : Option Bool
  /-- the marks of self-test on lanes and sensors, and NEXT, as the AON domain holds them (R496, R499) -/
  failLanes : List Nat
  badSensors : List Nat
  nextSlice : Nat
  /-- columns that self-test has added to the repair map since the cold reset (R496, R516) -/
  columns : List Word
  deriving DecidableEq, Repr

def Supply.reset : Supply where
  power := .coldReset
  ns := 0
  phaseNs := 0
  vinMv := 12000
  vioOn := true
  vdioMv := []
  vdioOn := 0
  pcieUp := false
  pcieRetry := false
  pcieNs := 0
  autoload := false
  stepPllOn := false
  xtal := false
  resetSource := 0
  shut := none
  failLanes := []
  badSensors := []
  nextSlice := 0
  columns := []

/-- Pins as they stand: inputs that the board drives, outputs that the device drives. -/
structure Pins where
  /-- the pins of DIO0 to DIO127 that the target drives, and the levels it drives there -/
  dioHeld : BitVec 128
  dioIn : BitVec 128
  /-- pins that the device drives, and their levels -/
  dioDrive : BitVec 128
  dioLevel : BitVec 128
  /-- DIN samples of the batch (R106) -/
  din : BitVec 128
  idbase : BitVec 4
  wrstLow : Bool
  perstLow : Bool
  thermtripN : Bool
  /-- MCH_OUT stands high between frames (R68, R511) -/
  mchOut : Bool
  /-- TDO is high-impedance: nothing is being shifted (R511, R530) -/
  tdoOff : Bool
  /-- the boundary register has the pins (R465) -/
  extest : Bool
  deriving DecidableEq, Repr

def Pins.reset : Pins where
  dioHeld := 0
  dioIn := 0
  dioDrive := 0
  dioLevel := 0
  din := 0
  idbase := 0
  wrstLow := false
  perstLow := true
  thermtripN := true
  mchOut := true
  tdoOff := true
  extest := false

/-- The management chain (R68 to R73). -/
structure Chain where
  id : Byte
  head : Bool
  valid : Bool
  stable : Bool
  /-- consecutive valid frames that carry `last` -/
  run : Nat
  last : Byte
  /-- ns until the next frame is sent -/
  timerNs : Nat
  /-- frames sent on MCH_OUT, oldest first -/
  sent : List (BitVec 11)
  deriving DecidableEq, Repr

def Chain.reset : Chain := ⟨0, false, false, false, 0, 0, 0, []⟩

/-- The UART console (R58, R59): lines waiting with the one being sent in front, lines lost, and the
bytes sent on TXD. -/
structure Console where
  lines : List (List Byte)
  lost : Nat
  txd : List Byte
  deriving DecidableEq, Repr

/-- The JTAG TAP and its debug registers (R465 to R467). -/
structure Jtag where
  ir : Nat
  /-- DBG_CFG: PEEK -/
  peek : Bool
  /-- what Capture-DR returns for DBG_REG: data, offset and reason (R466) -/
  reg : Word
  regAddr : BitVec 26
  regReason : Nat
  /-- what it returns for DBG_MEM: data, address and status (R467) -/
  mem : DWord
  memAddr : DWord
  memStatus : Nat
  /-- what Capture-DR returns for IDCODE -/
  idcode : Word
  /-- a stop of cause JTAG since the last cold reset: no run starts until the next one (R465) -/
  stopped : Bool
  deriving DecidableEq, Repr

/-- The TAP after its reset: IDCODE selected, PEEK 1 (R465). -/
def Jtag.reset : Jtag := ⟨1, true, 0, 0, 0, 0, 0, 0, 0, false⟩

/-- The PCIe configuration space as far as R35, R37 and R39 name it (assumption 66). -/
structure PciCfg where
  /-- base addresses that the host gives BAR0, BAR2 and BAR4 -/
  bar0 : DWord
  bar2 : DWord
  bar4 : DWord
  /-- largest payload and largest read request, in bytes -/
  maxPayload : Nat
  maxRead : Nat
  /-- function state D3hot, and link state L1 -/
  d3hot : Bool
  l1 : Bool
  /-- AER: status and mask of uncorrectable and correctable errors, and the header log -/
  uncStatus : Word
  uncMask : Word
  corStatus : Word
  corMask : Word
  headerLog : List Word
  /-- ASPM L1 enabled; the speed code and the width to which the link trained -/
  aspm : Bool
  speed : Nat
  width : Nat
  deriving DecidableEq, Repr

/-- The configuration space after PERST_N: values of PCIe 5.0 (assumption 66). -/
def PciCfg.reset : PciCfg := ⟨0, 0, 0, 128, 512, false, false, 0, 0x00400000, 0, 0xE000, [0, 0, 0, 0], false, 0, 0⟩

/-- What a move has met so far: the first CODE, the failed channels, and the bytes read with their offsets. -/
structure Moved where
  code : Nat
  failed : Nat
  got : List (Nat × List Byte)
  /-- what the DRAM of a channel still has in store for the transfer -/
  drams : List (Nat × Dram)
  deriving DecidableEq, Repr

/-- A porter's DDR transfer that has not ended (R222, R234): the ring index of its descriptor, the bytes to
write, the bytes moved so far, and the CEVICT item that the next 4 KiB block waits
for; with none it waits for an entry for that item. -/
structure Transfer where
  porter : Nat
  index : Nat
  desc : Descriptor
  data : List Byte
  off : Nat
  met : Moved
  item : Option Nat
  deriving DecidableEq, Repr

/-- The PCIe side: configuration space, MSI-X, the data of the last completed read, and what went to host memory. -/
structure HostPort where
  cfg : PciCfg
  masked : List Nat
  fnMask : Bool
  pendingBits : List Nat
  /-- vectors of the MSI-X messages sent, oldest first (R60) -/
  sent : List Nat
  readData : List Word
  /-- completion status of the last access: Unsupported Request, Completer Abort -/
  ur : Bool
  ca : Bool
  /-- status words written to host memory: porter, ring index, status (R65) -/
  statuses : List (Nat × Nat × Word)
  /-- data written to host memory by porters and host queues -/
  wrote : List (DWord × List Byte)
  /-- descriptors that a porter has taken and not yet reported: index, CODE, FAILED_PARTS, IRQ -/
  porter : Table (List (Nat × Nat × Nat × Bool))
  /-- transfers of those descriptors that have not ended -/
  moving : List Transfer
  /-- bytes of the last I²C read, and the offset that the target holds -/
  i2cData : List Word
  i2cOff : Nat
  i2cNack : Bool
  /-- pages whose block drains after a disable, with ns of the drain so far, and pages whose soft reset
  has not completed -/
  drains : List (Nat × Nat)
  srsts : List Nat
  deriving DecidableEq, Repr

def HostPort.reset : HostPort :=
  ⟨PciCfg.reset, List.range 256, false, [], [], [], false, false, [], [], [], [], [], 0, false, [], []⟩

/-- Self-test (R494 to R502): the slice running, whether it is a single slice, the budget left in µs
(none: no budget), the slices run by the last START, and ns of the slice so far. -/
structure Selftest where
  slice : Option Nat
  single : Bool
  budgetUs : Option Nat
  byShutdown : Bool
  ran : Nat
  ns : Nat
  deriving DecidableEq, Repr

def Selftest.reset : Selftest := ⟨none, false, none, false, 0, 0⟩

/-- The whole machine. -/
structure State where
  /-- commands that wait, first in, first out -/
  pending : List Instr
  /-- register pages, key BAR0 byte address; tile pages by physical tile -/
  regs : Table Word
  tiles : Table Tile
  ldr : Loader
  run : RunCtl
  svc : Service
  led : Ledger
  enc : Crypt
  mem : Memories
  net : Network
  ports : Table LogicalPort
  tim : TimeKeeper
  acq : Acq
  prf : Proofs
  sup : Supply
  pins : Pins
  chain : Chain
  con : Console
  jtag : Jtag
  host : HostPort
  bst : Selftest
  fuses : Fuses
  flash : Flash
  /-- the model's own: makes each free value fresh (assumption 1) -/
  freeCtr : Nat
  deriving DecidableEq, Repr

/-- Why a command stops the model. -/
inductive Fault where
  /-- Raised by every command that names a unit the device does not have (a tile at or above 136, a
  porter at or above 8, and so on). Safe: no such event exists on the device. -/
  | noSuchUnit
  deriving DecidableEq, Repr

/-- Why a command has no meaning. -/
inductive Refusal where
  /-- Raised by an arm whose command has no meaning yet. Safe. -/
  | notModelled (mnemonic : String)
  deriving DecidableEq, Repr

/-- The machine at cold reset (R507, R512), before the first start-up phase. -/
def State.reset : State where
  pending := []
  regs := []
  tiles := []
  ldr := Loader.reset
  run := RunCtl.reset
  svc := Service.reset
  led := Ledger.reset
  enc := Crypt.reset
  mem := Memories.reset
  net := Network.reset
  ports := []
  tim := TimeKeeper.reset
  acq := Acq.reset
  prf := Proofs.reset
  sup := Supply.reset
  pins := Pins.reset
  chain := Chain.reset
  con := ⟨[], 0, []⟩
  jtag := Jtag.reset
  host := HostPort.reset
  bst := Selftest.reset
  fuses := Fuses.reset
  flash := Flash.reset
  freeCtr := 0

end Sys2Proof.Machine
end

