-- ==== Sys2Proof/Machine/Ops.lean ====
section
/-! DEFINITION. The named operations over State: registers, tiles, ports, storage, errors, interrupts
and the console. -/

namespace Sys2Proof.Machine

/-- The outcome of a command. -/
abbrev Out := Host.Outcome State Fault Refusal

/-! ## Registers -/

/-- The stored value of the register at a BAR0 address. -/
def State.reg (s : State) (a : Nat) : Word := Table.get regInit s.regs a

/-- The state with the register at a BAR0 address holding v. -/
def State.setReg (s : State) (a : Nat) (v : Word) : State :=
  { s with regs := Table.set regInit s.regs a v }

/-- The stored value of register r with its indices. -/
def State.rd (s : State) (r : Reg) (i : Nat := 0) (j : Nat := 0) (k : Nat := 0) : Word :=
  s.reg (r.addr i j k)

/-- Register r set to v. -/
def State.wr (s : State) (r : Reg) (v : Word) (i : Nat := 0) (j : Nat := 0) (k : Nat := 0) : State :=
  s.setReg (r.addr i j k) v

/-- A field of a register as a number. -/
def State.fld (s : State) (r : Reg) (hi lo : Nat) (i : Nat := 0) (j : Nat := 0) : Nat :=
  bits (s.rd r i j) hi lo

/-- A field of a register set to v. -/
def State.setFld (s : State) (r : Reg) (hi lo v : Nat) (i : Nat := 0) (j : Nat := 0) : State :=
  s.wr r (setBits (s.rd r i j) hi lo v) i j

/-- A 64-bit value in a pair of registers, low word first. -/
def State.rd64 (s : State) (lo hi : Reg) (i : Nat := 0) : DWord := join32 (s.rd hi i) (s.rd lo i)

/-- A pair of registers set to a 64-bit value. -/
def State.wr64 (s : State) (lo hi : Reg) (v : DWord) (i : Nat := 0) : State :=
  (s.wr lo (lo32 v) i).wr hi (hi32 v) i

/-- A register that counts, saturating at `m`, grown by n. -/
def State.countReg (s : State) (r : Reg) (m n : Nat) (i : Nat := 0) (j : Nat := 0) : State :=
  s.wr r (BitVec.ofNat 32 (satAdd m (s.rd r i j).toNat n)) i j

/-! ## Pages (R44, R47) -/

/-- BAR0 address of page pg of physical tile t. -/
def tilePage (t pg : Nat) : Nat := 0x1000000 + t * 0x10000 + pg * 0x1000
/-- BAR0 address of the page of service engine n. -/
def engPage (n : Nat) : Nat := 0x11000 + n * 0x1000
/-- BAR0 address of the page of porter p: pages of porters 0 to 7 are adjacent. -/
def porterPage (p : Nat) : Nat := 0xA1000 + p * 0x1000
/-- BAR0 address of the page of DDR channel c. -/
def chanPage (c : Nat) : Nat := 0x40000 + c * 0x1000
/-- BAR0 address of page k of link port p. -/
def portPage (p k : Nat) : Nat := 0x50000 + p * 0x2000 + k * 0x1000

def glbPage : Nat := 0x0
def pwrPage : Nat := 0x2000
def rstPage : Nat := 0x4000
def ldrPage : Nat := 0x6000
def runPage : Nat := 0x7000
def wdgPage : Nat := 0x8000
def criPage : Nat := 0x9000
def flsPage : Nat := 0xA000
def bstPage : Nat := 0xB000
def prfPage : Nat := 0xC000
def chainPage : Nat := 0xD000
def thermPage : Nat := 0xE000
def sparePage : Nat := 0xF000
def svcPage : Nat := 0x10000
def encPage : Nat := 0x48000
def nocPage : Nat := 0x60000
def timPage : Nat := 0x70000
def acqPage : Nat := 0x80000
def lownPage : Nat := 0x90000
def pciPage : Nat := 0xA0000

/-- Pages of service engines, porters, link ports, tiles and acquisition, and the numbers on them. -/
def isEngPage (p : Nat) : Bool := decide (0x11000 ≤ p) && decide (p < 0x23000)
def isPorterPage (p : Nat) : Bool := decide (0xA1000 ≤ p) && decide (p < 0xA9000)
def isLinkPage (p : Nat) : Bool := decide (0x50000 ≤ p) && decide (p < 0x60000)
def isTilePage (p : Nat) : Bool := decide (0x1000000 ≤ p)
def isChanPage (p : Nat) : Bool := decide (0x40000 ≤ p) && decide (p < 0x48000)
def isEncPage (p : Nat) : Bool := decide (0x48000 ≤ p) && decide (p < 0x50000)
def isAcqPage (p : Nat) : Bool := decide (0x80000 ≤ p) && decide (p < 0x90000)
def engOf (p : Nat) : Nat := (p - 0x11000) / 0x1000
def porterOf (p : Nat) : Nat := (p - 0xA1000) / 0x1000
def linkOf (p : Nat) : Nat := (p - 0x50000) / 0x2000

/-- PG_CTRL.EN of a page. -/
def State.pageEn (s : State) (page : Nat) : Bool := bit (s.reg (page + 4)) 0
/-- PG_CTRL.PEEK of a page. -/
def State.pagePeek (s : State) (page : Nat) : Bool := bit (s.reg (page + 4)) 3

/-- Whether a read of an RS field of a page has no side effect: PEEK of the page, or of the JTAG path
for a read that comes through it (R462). -/
def State.peeks (s : State) (page : Nat) (via : Via) : Bool :=
  s.pagePeek page || (via == .jtag && s.jtag.peek)

/-! ## Tiles and ports -/

/-- Physical tile t. -/
def State.tile (s : State) (t : Nat) : Tile := Table.get (fun _ => Tile.reset) s.tiles t

/-- Physical tile t replaced. -/
def State.setTile (s : State) (t : Nat) (x : Tile) : State :=
  { s with tiles := Table.set (fun _ => Tile.reset) s.tiles t x }

/-- Physical tile t changed by f. -/
def State.modTile (s : State) (t : Nat) (f : Tile → Tile) : State := s.setTile t (f (s.tile t))

/-- The number of physical tiles (R2). -/
def numTiles : Nat := 136

/-- Every tile changed by f, in rising order. -/
def State.mapTiles (s : State) (f : Tile → Tile) : State :=
  (List.range numTiles).foldl (fun s t => s.modTile t f) s

/-- The physical tile that serves virtual tile v, if one does (R45, R160): GLB_VMAP[v] as it stands names it,
and the image in the tiles gives it v. -/
def State.ptile (s : State) (v : Nat) : Option Nat :=
  let w := s.rd .glbVmap v
  let t := bits w 7 0
  if v < 128 ∧ bit w 31 ∧ (s.tile t).vtile = some v then some t else none

/-- Logical port lp: 0 to 7 is port p or its half A, 8 to 15 is half B of port lp - 8 (R373). -/
def State.port (s : State) (lp : Nat) : LogicalPort := Table.get (fun _ => LogicalPort.reset) s.ports lp

/-- Logical port lp replaced. -/
def State.setPort (s : State) (lp : Nat) (x : LogicalPort) : State :=
  { s with ports := Table.set (fun _ => LogicalPort.reset) s.ports lp x }

/-- Logical port lp changed by f. -/
def State.modPort (s : State) (lp : Nat) (f : LogicalPort → LogicalPort) : State :=
  s.setPort lp (f (s.port lp))

/-! ## Free values (assumption 1) -/

/-- A fresh free word, and the state that has used it. -/
def State.free (s : State) : Word × State :=
  (Config.freeWord s.freeCtr, { s with freeCtr := s.freeCtr + 1 })

/-- A free number (assumption 1). -/
def State.freeNat (s : State) : Nat × State :=
  (Config.freeNat s.freeCtr, { s with freeCtr := s.freeCtr + 1 })

/-! ## Time -/

/-- The time since the last base tick in whole NCLK cycles of 0.625 ns, of which a REFCLK100 period has 16 and an AON
cycle 64 (R386), in 2^-40 ns. -/
def State.interp (s : State) : BitVec 104 :=
  BitVec.ofNat 104 ((if s.tim.ref then s.tim.sub % 16 else s.tim.sub) * (5 * 2 ^ 37))

/-- Output time as reads and stamps give it, interpolated between base ticks (R386), in 2^-40 ns. -/
def State.outNow (s : State) : BitVec 104 := s.tim.out + s.interp

/-- Whole nanoseconds of output time (R385, R386). -/
def State.outNs (s : State) : Nat := s.outNow.toNat / 2 ^ 40

/-- Output time in units of 2^-16 ns. -/
def State.out16 (s : State) : Nat := s.outNow.toNat / 2 ^ 24

/-! ## The console (R58, R59) -/

/-- A decimal digit or hexadecimal digit as an ASCII byte, letters in upper case. -/
def asciiDigit (d : Nat) : Byte := BitVec.ofNat 8 (if d < 10 then 0x30 + d else 0x37 + d)

/-- A number in hexadecimal, n digits. -/
def asciiHex : Nat → Nat → List Byte
  | 0, _ => []
  | n + 1, v => asciiHex n (v / 16) ++ [asciiDigit (v % 16)]

/-- A number in decimal; `fuel` bounds the digits. -/
def asciiDec : Nat → Nat → List Byte
  | 0, v => [asciiDigit (v % 10)]
  | fuel + 1, v => if v < 10 then [asciiDigit v] else asciiDec fuel (v / 10) ++ [asciiDigit (v % 10)]

/-- The decimal text of a number below 10^40. -/
def decText (v : Nat) : List Byte := asciiDec 40 v

/-- A line: its first character and its fields, separated by one space, ended by CR LF. -/
def lineText (c : Nat) (fields : List (List Byte)) : List Byte :=
  BitVec.ofNat 8 c :: (fields.flatMap fun f => 0x20 :: f) ++ [0x0D, 0x0A]

/-- Bytes that the lines held count against the 4 KiB. -/
def Console.held (c : Console) : Nat := (c.lines.map List.length).sum

/-- A line queued: alone, or with a ! line that carries the lost count, or lost (R59). -/
def Console.queue (c : Console) (l : List Byte) : Console :=
  if c.lost = 0 then
    if c.held + l.length ≤ 4096 then { c with lines := c.lines ++ [l] }
    else { c with lost := 1 }
  else
    let bang := lineText 0x21 [decText c.lost]
    if c.held + l.length + bang.length ≤ 4096 then
      { c with lines := c.lines ++ [bang, l], lost := 0 }
    else { c with lost := c.lost + 1 }

/-- A line queued while the console runs. -/
def State.sayLine (s : State) (l : List Byte) : State :=
  if bit (s.rd .glbUartCfg) 31 then { s with con := s.con.queue l } else s

/-- An event line: first character, then output time in whole µs, then the fields (R59). -/
def State.event (s : State) (c : Nat) (fields : List (List Byte)) : State :=
  if bit (s.rd .glbUartCfg) 30 then s.sayLine (lineText c (decText (s.outNs / 1000) :: fields)) else s

/-! ## Interrupts (R60) -/

/-- The pending set of a page: PG_INT_STAT AND PG_INT_EN. -/
def State.pendingSet (s : State) (page : Nat) : Word := s.reg (page + 0xC) &&& s.reg (page + 0x10)

/-- One MSI-X message on a vector: sent, or its pending bit set when the vector or the function is
masked. -/
def State.msix (s : State) (vec : Nat) : State :=
  if s.host.fnMask || vec ∈ s.host.masked then
    if vec ∈ s.host.pendingBits then s
    else { s with host := { s.host with pendingBits := s.host.pendingBits ++ [vec] } }
  else { s with host := { s.host with sent := s.host.sent ++ [vec] } }

/-- The vector of a page. -/
def State.pageVec (s : State) (page : Nat) : Nat := bits (s.reg (page + 0x14)) 7 0

/-- The cause bits of `m` set in a page's PG_INT_STAT, with one message when the pending set goes from
empty to not empty. -/
def State.raise (s : State) (page : Nat) (m : Word) : State :=
  let t := s.setReg (page + 0xC) (s.reg (page + 0xC) ||| m)
  if s.pendingSet page = 0 ∧ t.pendingSet page ≠ 0 then t.msix (s.pageVec page) else t

/-- Cause bit i raised. -/
def State.cause (s : State) (page i : Nat) : State := s.raise page (flagAt true i)

/-! ## Errors (R15, R49) -/

/-- An error recorded on a page: FIRST and INFO only when COUNT is zero, COUNT grows and saturates,
the ERR cause is set, and the console says a page's first error (R47, R49, R59). -/
def State.err (s : State) (page code info : Nat) : State :=
  let old := s.reg (page + 0x18)
  let s :=
    if bits old 31 16 = 0 then
      ((s.setReg (page + 0x18) (BitVec.ofNat 32 (0x10000 + code))).setReg (page + 0x1C)
        (BitVec.ofNat 32 info)).event 0x45 [asciiHex 4 code, asciiHex 8 info]
    else
      s.setReg (page + 0x18)
        (BitVec.ofNat 32 (satAdd 0xFFFF (bits old 31 16) 1 * 0x10000 + bits old 15 0))
  s.cause page 0

/-- An error recorded on page 0 of a tile unless another page is named. -/
def State.tileErr (s : State) (t pg code info : Nat) : State := s.err (tilePage t pg) code info

/-- GLB_ALERT bit i set or cleared; ALERT_N is asserted while any bit is 1 (R53). -/
def State.alert (s : State) (i : Nat) (b : Bool) : State := s.setFld .glbAlert i i (b2n b)

/-! ## RS counters -/

/-- Data returned to the master that reads. -/
def State.answer (s : State) (v : List Word) : State :=
  { s with host := { s.host with readData := v, ur := false, ca := false } }

/-- A read of a register whose fields in `m` clear at a read unless PEEK holds (R11, R462). -/
def State.readClear (s : State) (page : Nat) (via : Via) (r : Reg) (m : Word)
    (i : Nat := 0) (j : Nat := 0) : State :=
  let v := s.rd r i j
  let s := if s.peeks page via then s else s.wr r (v &&& ~~~m) i j
  s.answer [v]

/-! ## Guards -/

/-- A command on a unit that the device has. -/
@[inline] def guardUnit (ok : Bool) (k : Out) : Out := if ok then k else .fault .noSuchUnit

/-- A command on a physical tile. -/
@[inline] def onTile (t : Nat) (k : Out) : Out :=
  guardUnit (t < numTiles) k

/-- An event that comes about only when `due` holds; otherwise nothing happens (assumption 4). -/
@[inline] def whenDue (due : Bool) (s : State) (t : State) : Out := .next (if due then t else s)

/-- The registers answer their masters: from the end of phase 5 of the start to a shutdown or a cold reset,
outside a warm reset (R510, R513, R517). -/
def State.reachable (s : State) : Bool := s.sup.power = .starting || s.sup.power = .running

/-- PG_CTRL.SRST of a page. -/
def State.srst (s : State) (page : Nat) : Bool := bit (s.reg (page + 4)) 1

/-- A write to a register of a page: dropped while no master reaches it, and while the page is being reset
(R48, R510). -/
@[inline] def onWrite (page : Nat) (s : State) (k : Out) : Out :=
  if s.reachable && !s.srst page then k else .next s

/-- The acquisition engine is armed. -/
def State.acqArmed (s : State) : Bool := s.acq.state ≠ .idle

/-- Pages that take no write: acquisition pages 1 and 2 while the engine is armed (R425). -/
def State.pageLocked (s : State) (page : Nat) : Bool :=
  s.acqArmed && (page = acqPage + 0x1000 || page = acqPage + 0x2000)

/-- A write at an offset of a locked page: ACQ_BUSY. -/
def State.lockedWrite (s : State) (page off : Nat) : State := s.err acqPage 0x5101 ((page + off) % 0x10000)

/-- A write to a word of a page's common header. -/
@[inline] def onHeader (page off : Nat) (s : State) (k : Out) : Out :=
  onWrite page s (if s.pageLocked page then .next (s.lockedWrite page off) else k)

/-- The pages visible through BAR4 at their own addresses (R44): all but those marked S. -/
def userPage (a : Nat) : Bool :=
  let p := a / 0x1000 * 0x1000
  p = 0x1000 || p = runPage || p = criPage || p = chainPage || p = thermPage || isEngPage p || isAcqPage p ||
    (decide (0xA5000 ≤ p) && decide (p < 0xA9000)) || (decide (0x2000000 ≤ p) && decide (p < 0x2800000))

/-- A page that a read does not see through its view: through BAR4 a page marked S, and a tile that no virtual
tile's alias names (R40, R45). -/
def State.hidden (s : State) (page : Nat) (via : Via) : Bool :=
  via == .bar4 &&
    (if isTilePage page then (s.tile ((page - 0x1000000) / 0x10000)).vtile.isNone else !userPage page)

/-- A read of a register of a page: 0, without side effect, while no master reaches it and through a view that
does not show the page (R40, R510). The I²C target reads it while the AON domain runs (R56). -/
@[inline] def onRead (page : Nat) (via : Via) (s : State) (k : Out) : Out :=
  if (via == .i2c || s.reachable) && !s.hidden page via then k else .next (s.answer [0])

/-! ## Run state and halts (R450 to R453) -/

/-- The code of a run state (R450). -/
def RunState.code : RunState → Nat
  | .idle => 0 | .run => 1 | .halting => 2 | .halted => 3 | .recover => 4

/-- The run state changed, with its event line (R59). -/
def State.setRun (s : State) (r : RunState) : State :=
  if s.run.state = r then s
  else ({ s with run := { s.run with state := r } }).event 0x58 [decText r.code]

/-- "The device is halted" (R451): the run state is IDLE or HALTED. -/
def State.isHalted (s : State) : Bool := s.run.state = .idle || s.run.state = .halted

/-- A run is in progress: every run state but IDLE. -/
def State.inRun (s : State) : Bool := s.run.state ≠ .idle

/-- Bit c of CAUSES. -/
def causeBit (c : Nat) : BitVec 13 := BitVec.ofNat 13 (2 ^ c)

/-- A halt request of a cause at or below 9 (R453): none in IDLE or HALTED; in RECOVER its bit is set and the halt
is kept pending (R457, R469). -/
def State.haltRequest (s : State) (c : Nat) : State :=
  match s.run.state with
  | .idle => s
  | .halted => s
  | .recover => { s with
      run := { s.run with causes := s.run.causes ||| causeBit c }
      prf := { s.prf with haltRequests := s.prf.haltRequests ||| causeBit c } }
  | .run => ({ s with run := { s.run with causes := s.run.causes ||| causeBit c } }).setRun .halting
  | .halting =>
    { s with run := { s.run with causes := s.run.causes ||| causeBit c,
                                 stepPending := s.run.stepPending && s.run.inBatch } }

/-- A tile stopped at once: FAULT, at the step where it stood, or 1,024 when it was resting (R109, R130). -/
def Tile.stop (x : Tile) : Tile :=
  { x with phase := .fault, hold := none, step := if x.phase = .resting then 1024 else x.step }

/-- Soft post-package repair of every queued row at a halt; whether a row's bank group still has a
spare row, the DRAM alone knows (assumption 1). A row without one is PPR_EXHAUSTED. -/
def State.softRepair (s : State) : State :=
  s.mem.pprQueue.foldl (fun s q =>
    let f := s.freeNat
    let s := { f.2 with mem := { f.2.mem with pprQueue := f.2.mem.pprQueue.erase q } }
    if f.1 % 2 = 0 then { s with mem := { s.mem with pprSoft := s.mem.pprSoft ++ [q] } }
    else s.err (chanPage q.1) 0x3005 (q.2.1 * 2 ^ 28 + q.2.2 % 2 ^ 28)) s

/-- What every halt does: queued rows get their soft repair, PWR_TILE_SLEEP is taken, the halted times begin,
and a start held by the ledger is held no longer (R274, R277, R303). DEDUCED (assumption 88): a start held again after
the resume is a new hold, which R257 counts and reports anew. -/
def State.haltTaken (s : State) : State :=
  let s := s.softRepair
  { s with
    run := { s.run with haltedNs := 0, resumableNs := 0, sleepCfg := s.rd .pwrTileSleep }
    led := { s.led with holdNs := none } }

/-- Every mapped tile stopped at its current step (R143, R328). -/
def State.stopTiles (s : State) : State := s.mapTiles fun x => if x.vtile.isSome then x.stop else x

/-- The device stopped at once (R143): every mapped tile goes to FAULT, no batch-end phase starts, the
run state is HALTED without RESUMABLE. The model cache writes back once the engines have completed what they run
(R228, R235), but for an integrity failure (R328). -/
def State.stopAll (s : State) (causes : BitVec 13) : State :=
  let s := (s.stopTiles).haltTaken
  let s := { s with
    run := { s.run with
      causes := s.run.causes ||| causes, resumable := false, inBatch := false, stepPending := false }
    svc := { s.svc with flushDue := !s.enc.integrityHalt } }
  (s.setRun .halted).cause runPage 1

/-- An immediate stop of cause c (R453): from RUN, HALTING and, during a pause, RECOVER; without effect in IDLE
and HALTED. -/
def State.immediateStop (s : State) (c : Nat) : State :=
  if s.isHalted then s else s.stopAll (causeBit c)

/-- Self-test runs slice k: its block is isolated from every other block (R495). -/
def State.underTest (s : State) (k : Nat) : Bool := s.bst.slice = some k

/-- This device's ID (R72). -/
def State.devId (s : State) : Byte := s.chain.id

end Sys2Proof.Machine
end

