-- ==== Sys2Proof/Machine/Clock.lean ====
section
/-! DEFINITION. The time keeper: captures, the output, the two time domains with their servo, and the
choice of a parent port (R385 to R398, R410, R411). -/

namespace Sys2Proof.Machine

/-! ## Time values (R385) -/

/-- A time value of TIM_SET or TIM_SCHED and its fraction in the internal format. -/
def timeOf (ns : DWord) (frac : Nat) : BitVec 104 := BitVec.ofNat 104 (ns.toNat * 2 ^ 40 + frac * 2 ^ 24)

/-- TIM_SET. -/
def State.timSet (s : State) : BitVec 104 :=
  timeOf (s.rd64 .timSetLo .timSetHi) (s.fld .timSetFr 15 0)

/-- Output time in units of 1/327,680 ns, in which 2^-16 ns and 50 ps are both whole (R404). -/
def State.out5 (s : State) : Nat := s.out16 * 5
/-- Nanoseconds in those units. -/
def ns5 (n : Nat) : Nat := n * 327680
/-- Steps of 50 ps in those units. -/
def steps5 (n : Nat) : Nat := n * 16384

/-- An error on TIM page k. -/
def State.timErr (s : State) (k code info : Nat) : State := s.err (timPage + k * 0x1000) code info

/-- TIM_BUSY for the register at an offset of TIM page k. -/
def State.timBusy (s : State) (k off : Nat) : State := s.timErr k 0x5009 (k * 2 ^ 12 + off)

/-! ## Captures (R410) -/

/-- The NCLK cycle, of 625 ps, in which an output time of t 2^-16 ns lies. -/
def nclkCycle (t : Nat) : Nat := t * 8 / (5 * 2 ^ 16)

/-- A capture entered in a FIFO: behind what was there, but before those of its own cycle with a higher source. -/
def Capture.into (c : Capture) : List Capture → List Capture
  | [] => [c]
  | d :: rest => if d.cycle = c.cycle ∧ c.source < d.source then c :: d :: rest else d :: c.into rest

/-- A capture that falls in an NCLK cycle: it enters the FIFO when its source is enabled and the page takes work
(R48); what does not fit in the 256 entries is dropped. -/
def State.captureIn (s : State) (cycle src : Nat) (ns : Nat) (frac : Nat) : State :=
  if !(bit (s.rd .timCapCfg) src && s.pageEn (timPage + 0x2000)) then s
  else
    let l := (⟨cycle, src, BitVec.ofNat 64 ns, BitVec.ofNat 16 frac⟩ : Capture).into s.tim.captures
    let t : State := { s with tim := { s.tim with captures := l.take 256 } }
    let t := if s.tim.captures.isEmpty then t.cause (timPage + 0x2000) 1 else t
    (l.drop 256).foldl (fun t d =>
      (t.setFld .timCapStat 31 16 (satAdd 0xFFFF (t.fld .timCapStat 31 16) 1)).timErr 2 0x5008 d.source) t

/-- A capture now. -/
def State.capture (s : State) (src : Nat) (ns : Nat) (frac : Nat) : State :=
  s.captureIn (nclkCycle s.out16) src ns frac

/-- A capture stamped at a value in 2^-16 ns. -/
def State.captureAt (s : State) (src : Nat) (t16 : Nat) : State :=
  s.capture src (t16 / 2 ^ 16) (t16 % 2 ^ 16)

/-! ## Domains -/

/-- Domain d: 0 A, 1 B. -/
def State.dom (s : State) (d : Nat) : Domain := if d = 0 then s.tim.domA else s.tim.domB

/-- Domain d replaced. -/
def State.setDom (s : State) (d : Nat) (x : Domain) : State :=
  if d = 0 then { s with tim := { s.tim with domA := x } } else { s with tim := { s.tim with domB := x } }

/-- SOURCE of domain d (R389). -/
def State.domSource (s : State) (d : Nat) : Nat := s.fld .timDomCfg 31 30 d

/-- The estimate of domain d as stamps give it, interpolated between base ticks (R386), in 2^-40 ns. -/
def State.estNow (s : State) (d : Nat) : BitVec 104 := (s.dom d).est + s.interp

/-- The estimate of domain d in 2^-16 ns. -/
def State.est16 (s : State) (d : Nat) : Nat := (s.estNow d).toNat / 2 ^ 24

/-- The code of an output state. -/
def OutState.code : OutState → Nat
  | .free => 0 | .followA => 1 | .followB => 2 | .holdover => 3

/-- The code of a domain state. -/
def DomState.code : DomState → Nat
  | .off => 0 | .search => 1 | .track => 2 | .locked => 3 | .lost => 4

/-- The domain that the output follows. -/
def State.followed (s : State) : Option Nat :=
  match s.tim.outState with
  | .followA => some 0
  | .followB => some 1
  | _ => none

/-- Following domain d. -/
def followState (d : Nat) : OutState := if d = 0 then .followA else .followB

/-- TIM_OUT_CFG.PREF. -/
def State.pref (s : State) : Nat := s.fld .timOutCfg 31 31

/-- The first LOCKED domain, the preferred one first. -/
def State.lockedDom (s : State) : Option Nat :=
  [s.pref, 1 - s.pref].find? fun d => (s.dom d).state = .locked

/-- An output switch of R398 items 2 to 4: no step, r_out continuous. -/
def State.switchOut (s : State) (n : OutState) (why : Nat) : State :=
  let s := { s with tim := { s.tim with
    outState := n, switches := satAdd 0xFFFF s.tim.switches 1 } }
  ((s.timErr 0 0x5004 (why * 16 + n.code)).cause timPage 1).captureAt 13 s.out16

/-- The output after a change of a domain (R398 items 1 to 3). `why` is the cause that a switch away from
the followed domain records. -/
def State.outputCheck (s : State) (why : Nat) : State :=
  match s.tim.outState with
  | .free =>
    match s.lockedDom with
    | some d => { s with tim := { s.tim with
        out := (s.dom d).est, outState := followState d, valid := true } }
    | none => s
  | .holdover =>
    match s.lockedDom with
    | some d => s.switchOut (followState d) 3
    | none => s
  | _ =>
    let d := s.followed.getD 0
    match (s.dom d).state with
    | .locked => s
    | .track => s
    | _ =>
      if (s.dom (1 - d)).state = .locked then s.switchOut (followState (1 - d)) why
      else s.switchOut .holdover why

/-- A device that had no REFCLK100 at its cold reset: its domains are held OFF, and it takes no part in system time
(R33, R388). -/
def State.refAbsent (s : State) : Bool := !s.tim.ref && !s.tim.refLost

/-- Whether a domain may enter a state. -/
def State.domMay (s : State) (n : DomState) : Bool := !s.refAbsent || n = .off

/-- Domain d in a new state: a change raises DOMAIN, LOST is recorded, and the output reacts. DESIGN CHOICE
(assumption 96): a switch away from a followed domain whose SOURCE was written has cause 1 where the domain goes to
SEARCH, 0 where it goes OFF. -/
def State.domTo (s : State) (d : Nat) (n : DomState) : State :=
  let x := s.dom d
  if x.state = n ∨ !s.domMay n then s
  else
    let s := (s.setDom d { x with state := n, good := 0, bad := 0, lockedNs := 0 }).cause timPage 2
    let s := if n = .lost then s.timErr 0 0x5002 d else s
    s.outputCheck (if n = .search then 1 else 0)

/-! ## The servo (R395, R396) -/

/-- RANGE_PPM: values outside 1 to 500 act as 500. -/
def State.rangePpm (s : State) : Nat :=
  let v := s.fld .timServo 24 16
  if v = 0 ∨ 500 < v then 500 else v

/-- A ppm figure in 2^-40 units. -/
def ppm40 (n : Nat) : Int := (n * 2 ^ 40 / 1000000 : Nat)

/-- An integer within ±r. -/
def clampInt (v r : Int) : Int := max (-r) (min r v)

/-- The lock threshold in 2^-16 ns; 0 acts as 1. -/
def State.lockThresh (s : State) : Int := (max 1 (s.fld .timServo 15 8) * 16384 : Nat)

/-- The rates after an update with offset e (2^-16 ns), t ns after the previous one. -/
def State.servo (s : State) (x : Domain) (e : Int) : Domain × State :=
  let r := ppm40 s.rangePpm
  let f := s.free
  let u : Int := if x.sinceNs = 0 then f.1.toInt else (e * 2 ^ 24).tdiv x.sinceNs
  let ri := clampInt (x.rInt + u / 2 ^ s.fld .timServo 7 4) r
  ({ x with rInt := ri, rate := clampInt (ri + u / 2 ^ s.fld .timServo 3 0) r },
    if x.sinceNs = 0 then f.2 else s)

/-- An update of domain d with offset e (R395, R396); a device that had no REFCLK100 takes none (R33). -/
def State.update (s : State) (d : Nat) (e : Int) : State :=
  let x := { s.dom d with lastE := e }
  if s.refAbsent then s
  else
  match x.state with
  | .off => s
  | .search =>
    (s.setDom d { x with est := BitVec.ofInt 104 (x.est.toNat + e * 2 ^ 24), sinceNs := 0 }).domTo d .track
  | .lost =>
    (s.setDom d { x with est := BitVec.ofInt 104 (x.est.toNat + e * 2 ^ 24), sinceNs := 0 }).domTo d .track
  | .track =>
    let r := s.servo x e
    let good := if e.natAbs ≤ s.lockThresh.toNat then x.good + 1 else 0
    let s := r.2.setDom d { r.1 with sinceNs := 0, good := good }
    if 8 ≤ good then s.domTo d .locked else s
  | .locked =>
    let r := s.servo x e
    let bad := if 4 * s.lockThresh.toNat < e.natAbs then x.bad + 1 else 0
    let s := r.2.setDom d { r.1 with sinceNs := 0, bad := bad }
    if 4 ≤ bad then s.domTo d .track else s

/-! ## Link delay and parent (R391, R392) -/

/-- The sync state of domain d on a logical port. -/
def LogicalPort.sync (x : LogicalPort) (d : Nat) : PortSync := if d = 0 then x.syncA else x.syncB

/-- The sync state of domain d on a logical port replaced. -/
def LogicalPort.setSync (x : LogicalPort) (d : Nat) (y : PortSync) : LogicalPort :=
  if d = 0 then { x with syncA := y } else { x with syncB := y }

/-- TIM_PORT_DELAY.VALID. -/
def State.delayValid (s : State) (lp : Nat) : Bool := bit (s.rd .timPortDelay lp) 31

/-- The candidates of domain d, each with what they are chosen by: PRIORITY, MASTER, HOPS, logical port. -/
def State.candidates (s : State) (d : Nat) : List (Nat × Nat × Nat × Nat) :=
  (List.range 16).filterMap fun lp =>
    let y := (s.port lp).sync d
    if y.annValid && decide (y.annHops ≤ 14) && s.delayValid lp then
      some (y.annPriority.toNat, y.annMaster.toNat, y.annHops, lp)
    else none

/-- The order of two candidates by two keys. -/
def before2 (a b : Nat × Nat) : Bool := decide (a.1 < b.1) || (a.1 = b.1 && decide (a.2 < b.2))

/-- The first of the candidates by two keys. -/
def bestBy {α : Type} (key : α → Nat × Nat) (l : List α) : Option α :=
  l.foldl (fun o c => match o with
    | none => some c
    | some b => if before2 (key c) (key b) then some c else some b) none

/-- The master with the lowest (PRIORITY, MASTER) pair, then among the ports that announce that master the
one with the lowest HOPS and then the lowest logical port: PRIORITY, MASTER, HOPS, port (R392). -/
def bestParent (l : List (Nat × Nat × Nat × Nat)) : Option (Nat × Nat × Nat × Nat) :=
  (bestBy (fun c => (c.1, c.2.1)) l).bind fun m =>
    (bestBy (fun c => c.2.2) (l.filter fun c => c.2.1 = m.2.1)).map fun c => (m.1, c.2)

/-- TIM_MASTER_CHANGED: the domain returns to SEARCH (R395). -/
def State.masterChanged (s : State) (d : Nat) (old new : Byte) : State :=
  (s.timErr 0 0x5003 (d * 2 ^ 16 + new.toNat * 2 ^ 8 + old.toNat)).domTo d .search

/-- The parent of a LINK domain chosen anew (R392). -/
def State.chooseParent (s : State) (d : Nat) : State :=
  if s.domSource d ≠ 1 then s
  else
    let x := s.dom d
    match bestParent (s.candidates d) with
    | none =>
      if x.parent.isNone then s
      else (s.setDom d { x with parent := none }).masterChanged d x.master 0xFF
    | some (p, m, h, lp) =>
      let new := BitVec.ofNat 8 m
      let s := s.setDom d { x with
        parent := some lp, hops := h + 1, master := new, priority := BitVec.ofNat 8 p }
      if x.parent.isSome ∧ x.master ≠ new then s.masterChanged d x.master new else s

/-- Both parents chosen anew. -/
def State.chooseParents (s : State) : State := (s.chooseParent 0).chooseParent 1

/-- The delay samples of a logical port discarded: its link delay is not VALID (R391). -/
def State.dropDelays (s : State) (lp : Nat) : State :=
  ((s.modPort lp fun x => { x with delays := [] }).wr .timPortDelay 0 lp).chooseParents

/-- One delay sample in 2^-16 ns. -/
def State.addDelay (s : State) (lp : Nat) (v : Int) : State :=
  let l := (v :: (s.port lp).delays).take 8
  let mean := (l.sum / (l.length : Int)).toNat
  let s := s.modPort lp fun x => { x with delays := l }
  (s.wr .timPortDelay (BitVec.ofNat 32 (b2n (decide (l.length = 8)) * 2 ^ 31 + mean % 2 ^ 31)) lp).chooseParents

/-! ## Trigger lines as fire requests see them (R403, R404, R409) -/

/-- TIM page 1 takes work: with EN 0 the trigger lines take no request, no sample and no pulse (R48). -/
def State.trgOn (s : State) : Bool := s.pageEn (timPage + 0x1000)

/-- Whether line n is native (R403). -/
def State.native (s : State) (n : Nat) : Bool :=
  bit (s.rd .timTrgCfg) (16 + n) && (n ≠ 7 || !bit (s.rd .timTrgCfg) 31)

/-- Whether the device drives and samples its native lines: it has REFCLK100 and follows a LOCKED domain (R388,
R403). -/
def State.trgSynced (s : State) : Bool :=
  match s.followed with
  | some d => s.tim.ref && (s.dom d).state = .locked
  | none => false

/-- D_n in 50 ps, at most 4,000. -/
def State.trgDelay (s : State) (n : Nat) : Nat := min 4000 (s.fld .timTrgDelay 11 0 n)
/-- H in 50 ps, at most 1,000. -/
def State.trgHub (s : State) : Nat := min 1000 (s.fld .timTrgHub 9 0)
/-- LAT_NS, within 250 to 1,000. -/
def State.trgLat (s : State) : Nat := max 250 (min 1000 (s.fld .timTrgCfg 9 0))

/-- The slot that a fire request of line n takes now (R404). -/
def State.fireSlot (s : State) (n : Nat) : Nat :=
  ceilDiv (s.out5 + ns5 20 + steps5 (s.trgDelay n + s.trgHub)) (ns5 10)

/-- A fire request for a set of lines (R403, R404). -/
def State.fireLines (s : State) (lines : BitVec 8) : State :=
  if lines = 0 ∨ !s.trgOn then s
  else if !s.trgSynced then s.timErr 1 0x5006 lines.toNat
  else
    ((List.range 8).filter fun n => bit lines n && s.native n).foldl (fun s n =>
      if (n, s.fireSlot n) ∈ s.tim.fires then s
      else { s with tim := { s.tim with fires := s.tim.fires ++ [(n, s.fireSlot n)] } }) s

/-- A VL2 fire driven, only while the device is ARMED (R409). -/
def State.vl2FireNow (s : State) : State :=
  if bit (s.rd .timTrgCfg) 31 ∧ s.trgOn ∧ s.tim.vl2 = .armed then
    { s with tim := { s.tim with vl2Drive := s.tim.vl2Drive ++ [2] } }
  else s

end Sys2Proof.Machine
end

