-- ==== Sys2Proof/Machine/Ledger.lean ====
section
/-! DEFINITION. The arithmetic of the energy ledger (R247 to R259). -/

namespace Sys2Proof.Machine

/-- Coefficient i in 1/16 pJ: 0 STEP, 1 TOG, 2 ALU, 3 MUL, 4 PAN, 5 IDLE, 6 PKT (R249, R276). -/
def State.coef (s : State) (i : Nat) : Nat := (Table.get (fun _ => 0) s.fuses.coef i).toNat

/-- E_t in 1/16 pJ (R249). -/
def State.tileEnergy16 (s : State) (e : Energy) : Nat :=
  e.steps * s.coef 0 + e.toggles * s.coef 1 + e.alu * s.coef 2 + e.mul * s.coef 3 +
    e.pan * s.coef 4 + e.idle * s.coef 5 + e.pkts * s.coef 6

/-- 1/16 pJ as nJ, rounded up. -/
def nj16 (x : Nat) : Nat := ceilDiv x 16000

/-- The physical tiles that serve a virtual tile, in rising order. -/
def State.mapped (s : State) : List Nat :=
  (List.range numTiles).filter fun t => (s.tile t).vtile.isSome

/-- E_batch: the sum over the mapped tiles, in nJ rounded up (R249). -/
def State.batchEnergy (s : State) : Nat :=
  nj16 ((s.mapped.map fun t => s.tileEnergy16 (s.tile t).energy).sum)

/-- E_max in nJ, rounded up (R253). -/
def State.eMax (s : State) : Nat :=
  nj16 ((s.mapped.map fun t =>
    ((s.tile t).depth + 4) * (s.coef 0 + 512 * s.coef 1 + 16 * s.coef 3)).sum)

/-- MARGIN (R271). -/
def State.margin (s : State) : Nat := s.fld .pwrLedgerCfg 15 8

/-- E_est of the batch after one that took `last` nJ (R253). -/
def State.nextEst (s : State) (last : Nat) : Nat := min s.eMax (ceilDiv (last * (256 + s.margin)) 256)

/-- fJ of an energy in nJ. -/
def fjOfNj (n : Nat) : Int := (n : Int) * 1000000

/-- The ledger is in deficit (R255). DEDUCED (assumption 88): while a batch executes the next estimate is not known yet,
and the one in force is that of the batch in progress. -/
def State.deficit (s : State) : Bool :=
  match s.run.state with
  | .idle => decide (s.led.level < 0)
  | .halted => decide (s.led.level < fjOfNj s.eMax)
  | _ => decide (s.led.level < fjOfNj s.led.est)

/-- P_U in µW: the draw averaged over the last 10 µs (R250). -/
def State.pU (s : State) : Nat := s.led.uncore.sum / 10

/-- P_HOST in W; none while no cap is set (R262). -/
def State.hostCap (s : State) : Option Nat :=
  let w := s.fld .pwrHostCap 9 0
  if w = 0 then none else some (max 40 (min 400 w))

/-- B in µW and LIMITER: the least of the terms, the first of equal ones in the order thermal, input,
host, envelope (R259). -/
def State.budget (s : State) : Nat × Nat :=
  let th := s.led.pThUw.toNat
  let inp := s.led.pInUw
  let host := (s.hostCap.getD 400) * 1000000
  let b := min (min th inp) (min host 400000000)
  (b, if th = b then 0 else if inp = b then 1 else if s.hostCap.isSome ∧ host = b then 2 else 3)

/-- WINDOW in µs (R271). -/
def State.windowUs (s : State) : Nat :=
  let w := s.fld .pwrLedgerCfg 25 16
  if 10 ≤ w ∧ w ≤ 1000 then w else 1000

/-- The capacity B × WINDOW in fJ, of B in force. -/
def State.capacityFj (s : State) : Int := (s.led.budgetUw * s.windowUs * 1000 : Nat)

/-- B recomputed at a change of one of its terms, with LIMITER and its cause; B itself takes effect at the next
AON tick (R259, R263). -/
def State.rebudget (s : State) : State :=
  let b := s.budget
  let s : State := { s with led := { s.led with nextUw := b.1 } }
  if s.led.limiter = b.2 then s
  else ({ s with led := { s.led with limiter := b.2 } }).cause pwrPage 1

/-- The level kept at or below the capacity (R251). DESIGN CHOICE (assumption 90): a WINDOW written lower acts on the
level at the next credit of LEDGER_TICK or of a freeze, not at the write. -/
def State.clampLevel (s : State) : State :=
  { s with led := { s.led with level := min s.led.level s.capacityFj } }

/-- PWR_EST: E_est of the next or current batch; the first batch of a run and of a resume is estimated at E_max
(R253, R255). -/
def State.pwrEstNow (s : State) : Nat :=
  match s.run.state with
  | .idle => if s.ldr.inService then s.eMax else 0
  | .halted => s.eMax
  | _ => s.led.est

end Sys2Proof.Machine
end

