-- ==== Sys2Proof/Machine/Operands.lean ====
section
/-! DEFINITION. Operand forms: BP operand selects (R83 to R86), the inputs of word unit instructions
(R94, R99), the data source of SEND, ENQ and SVC (R113), pantry addresses (R102). -/

namespace Sys2Proof.Machine

/-- An error met in a step, with the keys by which the page chooses its first (R108): code, stream,
BP or WU number. `pg` is the tile page that records it. -/
structure StepErr where
  pg : Nat
  code : Nat
  stream : Nat
  num : Nat
  info : Nat
  deriving DecidableEq, Repr

/-- What a recipe sees beside its tile: the DIN samples of the batch, whether this is the batch in
which FIRST reads 1, and the pantry banks that the tile owns. -/
structure TileEnv where
  din : BitVec 128
  first : Bool
  owned : Nat → Bool

/-! ## Bit store -/

/-- Then-half bit n of BP b. -/
def Tile.thenBit (x : Tile) (b n : Nat) : Bool := Table.get (fun _ => false) x.thenHalf (b * 1024 + n)

/-- The now view of bit n of BP b (R89): the value that step n wrote in this batch, else the
then-half bit. -/
def Tile.nowBit (x : Tile) (b n : Nat) : Bool :=
  match Table.get (fun _ => none) x.nowHalf (b * 1024 + n) with
  | some v => v
  | none => x.thenBit b n

/-- Now-half bit n of BP b written. -/
def Tile.writeNow (x : Tile) (b n : Nat) (v : Bool) : Tile :=
  { x with nowHalf := Table.set (fun _ => none) x.nowHalf (b * 1024 + n) (some v) }

/-! ## Mailbox, taps, registers -/

/-- Stored data of mailbox slot m. -/
def Tile.slot (x : Tile) (m : Nat) : DWord := Table.get (fun _ => 0) x.mbx m

/-- Slot m written and made valid (R125). -/
def Tile.writeSlot (x : Tile) (m : Nat) (d : DWord) : Tile :=
  { x with mbx := Table.set (fun _ => 0) x.mbx m d, mbxValid := x.mbxValid ||| BitVec.ofNat 64 (2 ^ m) }

/-- The tap of WU u: high word above low word (R100). -/
def Tile.tapOf (x : Tile) (u : Nat) : DWord := Table.get (fun _ => 0) x.tap u

/-- Register r of WU u. -/
def Tile.wreg (x : Tile) (u r : Nat) : Word := Table.get (fun _ => 0) x.wuReg (u * 256 + r)

/-- Register r of WU u written. -/
def Tile.setWreg (x : Tile) (u r : Nat) (v : Word) : Tile :=
  { x with wuReg := Table.set (fun _ => 0) x.wuReg (u * 256 + r) v }

/-- Whether register r of WU u has a write pending in the current step from an instruction issued in
an earlier one (R99). -/
def Tile.notReady (x : Tile) (u r : Nat) : Bool :=
  (x.results.any fun w => w.wu = u && decide (x.step < w.due) && decide (w.due < x.step + 4) &&
      (w.dst = r || (w.hi.isSome && (w.dst + 1) % 256 = r))) ||
  (x.accesses.any fun a => a.wu = u && decide (a.step < x.step) && (a.op = .ld || a.op = .ldh) &&
      a.dst = r)

/-! ## Boolean processor operands (R83) -/

/-- The value that a BP operand select gives BP b in position `upper` (c and d read the now view),
with the error that the read meets. -/
def bpOperand (e : TileEnv) (x : Tile) (b code : Nat) (upper : Bool) : Bool × Option (Nat × Nat) :=
  if code < 0x400 then (if upper then x.nowBit b code else x.thenBit b code, none)
  else if code < 0x600 then (bit x.bus (code - 0x400), none)
  else if code < 0x680 then (bit e.din (code - 0x600), none)
  else if code = 0x680 then (e.first, none)
  else if code < 0x7F0 then (false, some (0x1024, x.step * 2 ^ 22 + b))
  else if code = 0x7F0 then (false, none)
  else if code = 0x7F1 then (true, none)
  else if code < 0x7FA then
    let m := 8 * (code - 0x7F2) + b / 64
    if bit x.mbxValid m then (bit (x.slot m) (b % 64), none)
    else (false, some (0x1022, x.step * 2 ^ 22 + m * 2 ^ 16 + b))
  else if code = 0x7FA then (bit (x.tapOf (b / 32)) (b % 32), none)
  else if code = 0x7FB then (bit (x.tapOf (b / 32)) (32 + b % 32), none)
  else (false, some (0x1024, x.step * 2 ^ 22 + b))

/-! ## Word unit inputs (R94, R97, R99) -/

/-- An error of the WU stream met in the current step. -/
def Tile.wuErr (x : Tile) (u code info : Nat) : StepErr := ⟨4, code, 1, u, x.step * 2 ^ 22 + info⟩

/-- ILLEGAL_ENCODING of the WU stream (R108). -/
def Tile.wuIllegal (x : Tile) (u : Nat) : StepErr := x.wuErr u 0x1024 (2 ^ 20 + u)

/-- Register r of WU u read as input number k: its value before any pending write, and WU_NOT_READY
when one is pending. -/
def Tile.readReg (x : Tile) (u r k : Nat) : Word × List StepErr :=
  (x.wreg u r, if x.notReady u r then [x.wuErr u 0x1021 (u * 2 ^ 18 + k * 2 ^ 16 + r * 2 ^ 8)] else [])

/-- Input a (R94: AM). -/
def Tile.inA (x : Tile) (u : Nat) (f : WuFields) : Word × List StepErr :=
  match f.am.toNat with
  | 0 => x.readReg u f.sa.toNat 0
  | 1 => (lo32 x.spine, [])
  | 2 => (hi32 x.spine, [])
  | _ => (0, [x.wuIllegal u])

/-- Input b (R94: BM); for a pantry operation BM = 3 reads 0 (R97). -/
def Tile.inB (x : Tile) (u : Nat) (f : WuFields) (pantry : Bool) : Word × List StepErr :=
  match f.bm.toNat with
  | 0 => x.readReg u f.sb.toNat 1
  | 1 => (lo32 x.spine, [])
  | 2 => (hi32 x.spine, [])
  | _ => if pantry then (0, [x.wuIllegal u]) else (f.imm, [])

/-- Input c: always register SC. -/
def Tile.inC (x : Tile) (u : Nat) (f : WuFields) : Word × List StepErr := x.readReg u f.sc.toNat 2

/-- The byte address E of a pantry operation (R102). -/
def pantryAddr (a imm : Word) : Nat := (a.toNat + imm.toNat) % 2 ^ 20

/-! ## The data of SEND, ENQ and SVC (R113) -/

/-- The 64 data bits that SRC selects, with the errors that the read meets. -/
def Tile.source (x : Tile) (src wu reg : Nat) : DWord × List StepErr :=
  if src = 0 then (x.spine, [])
  else
    let r1 := (reg + 1) % 256
    let e (r : Nat) : List StepErr :=
      if x.notReady wu r then
        [⟨4, 0x1021, 2, wu, x.step * 2 ^ 22 + wu * 2 ^ 18 + 3 * 2 ^ 16 + r * 2 ^ 8⟩]
      else []
    let odd : List StepErr :=
      if reg % 2 = 1 then [⟨4, 0x1024, 2, 0, x.step * 2 ^ 22 + 2 * 2 ^ 20⟩] else []
    (join32 (x.wreg wu r1) (x.wreg wu reg), e reg ++ e r1 ++ odd)

/-! ## Encodings -/

/-- A word unit instruction's fields (R94). -/
def WuFields.ofQ (q : QWord) : WuFields where
  tap := bit q 121
  rsvdHi := bit q 120
  dst := q.extractLsb' 112 8
  sa := q.extractLsb' 104 8
  sb := q.extractLsb' 96 8
  sc := q.extractLsb' 88 8
  am := q.extractLsb' 86 2
  bm := q.extractLsb' 84 2
  cc := q.extractLsb' 80 4
  p1 := q.extractLsb' 72 8
  p2 := q.extractLsb' 64 8
  imm := q.extractLsb' 32 32
  rsvdLo := q.extractLsb' 0 32

/-- OP of a word unit instruction. -/
def wuOp (q : QWord) : Nat := bits q 127 122

/-- Instruction of BP b in step n of the recipe store. -/
def Tile.bpInstr (x : Tile) (n b : Nat) : DWord := Table.get (fun _ => 0) x.bpCode (n * 512 + b)
/-- Instruction of WU u in step n. -/
def Tile.wuInstr (x : Tile) (n u : Nat) : QWord := Table.get (fun _ => 0) x.wuCode (n * 16 + u)
/-- Control word of step n. -/
def Tile.ctrlWord (x : Tile) (n : Nat) : Word := Table.get (fun _ => 0) x.ctrl n
/-- Service template n is a lead template: some SVC word names it for token 0 (R216). -/
def Tile.leads (x : Tile) (n : Nat) : Bool :=
  (List.range 1024).any fun k =>
    let w := x.ctrlWord k
    bits w 31 28 = 6 && bits w 27 20 = n && bits w 6 5 = 0
/-- Entry e of the destination table (R115): high word above low word. -/
def Tile.destEntry (x : Tile) (e : Nat) : DWord := Table.get (fun _ => 0) x.dest e
/-- Service template n (R217). -/
def Tile.template (x : Tile) (n : Nat) : QWord := Table.get (fun _ => 0) x.tmpl n

end Sys2Proof.Machine
end

