-- ==== Sys2Proof/Machine/Flags.lean ====
section
/-! DEFINITION. Counting flags (R117 to R120), the conditions of CMP (R96), and the queues' counts. -/

namespace Sys2Proof.Machine

/-- Flag f of a tile, 0 to 15. -/
def Tile.flag (x : Tile) (f : Nat) : Nat := (Table.get (fun _ => (0 : BitVec 4)) x.flags f).toNat

/-- Flag f set. -/
def Tile.setFlag (x : Tile) (f v : Nat) : Tile :=
  { x with flags := Table.set (fun _ => (0 : BitVec 4)) x.flags f (BitVec.ofNat 4 v) }

/-- One increment of flag f: 15 stays 15 and the increment is lost (R120). -/
def Tile.incFlag (x : Tile) (f : Nat) : Tile × Bool :=
  if x.flag f = 15 then (x, true) else (x.setFlag f (x.flag f + 1), false)

/-- COUNT subtracted from flag f, where it covers it (R118). -/
def Tile.consume (x : Tile) (f c : Nat) : Option Tile :=
  if c ≤ x.flag f then some (x.setFlag f (x.flag f - c)) else none

/-- The condition of CMP (R96), with whether CC is reserved (R97: gives 0). -/
def cmpHolds (cc : Nat) (a b : Word) : Bool × Bool :=
  match cc with
  | 0 => (a = b, false)
  | 1 => (a ≠ b, false)
  | 2 => (a.toNat < b.toNat, false)
  | 3 => (b.toNat ≤ a.toNat, false)
  | 4 => (a.toInt < b.toInt, false)
  | 5 => (b.toInt ≤ a.toInt, false)
  | _ => (false, true)

/-! ## Queues (R126, R127, R153) -/

/-- Entries held in queue q. -/
def Tile.qLen (x : Tile) (q : Nat) : Nat := Table.get (fun _ => 0) x.qCount q
/-- Position of the head entry of queue q. -/
def Tile.qPos (x : Tile) (q : Nat) : Nat := Table.get (fun _ => 0) x.qHead q

/-- An entry appended to queue q at position (HEAD + COUNT) mod 16; none when the queue is full. -/
def Tile.enqueue (x : Tile) (q : Nat) (d : DWord) : Option Tile :=
  if x.qLen q < 16 then
    some { x with
      qData := Table.set (fun _ => 0) x.qData (q * 16 + (x.qPos q + x.qLen q) % 16) d
      qCount := Table.set (fun _ => 0) x.qCount q (x.qLen q + 1) }
  else none

/-- HEAD of queue q advanced modulo 16, as each DEQ advances it (R153). -/
def Tile.advanceHead (x : Tile) (q : Nat) : Tile :=
  { x with qHead := Table.set (fun _ => 0) x.qHead q ((x.qPos q + 1) % 16) }

/-- The head entry of queue q removed: HEAD advances modulo 16 and COUNT falls; none when empty. -/
def Tile.dequeue (x : Tile) (q : Nat) : Option (DWord × Tile) :=
  if x.qLen q = 0 then none
  else
    some (Table.get (fun _ => 0) x.qData (q * 16 + x.qPos q),
      { x.advanceHead q with qCount := Table.set (fun _ => 0) x.qCount q (x.qLen q - 1) })

end Sys2Proof.Machine
end

