-- ==== Sys2Proof/Machine/Tile.lean ====
section
/-! DEFINITION. The word unit instructions (R94 to R102), pantry accesses (R103 to R105) and Boolean
processors (R79 to R93) of one step of a tile. -/

namespace Sys2Proof.Machine

/-! ## Results -/

/-- A tile with the errors that it met. -/
abbrev TileRes := Tile × List StepErr

/-- One WU operation counted as ALU activity (R248). -/
def Tile.countAlu (x : Tile) : Tile := { x with energy := { x.energy with alu := x.energy.alu + 1 } }

/-- One multiply counted. -/
def Tile.countMul (x : Tile) : Tile := { x with energy := { x.energy with mul := x.energy.mul + 1 } }

/-- The result of an instruction issued in the current step: visible in step s + 4 (R98). -/
def Tile.issue (x : Tile) (u : Nat) (f : WuFields) (lo : Word) : Tile :=
  { x with results := x.results ++ [⟨u, x.step + 4, f.dst.toNat, lo, none, 0, f.tap⟩] }

/-- A 64-bit product issued in the current step: DST and DST + 1 modulo 256 (R95, R97). -/
def Tile.issue2 (x : Tile) (u : Nat) (f : WuFields) (p : DWord) : Tile :=
  { x with results := x.results ++ [⟨u, x.step + 4, f.dst.toNat, lo32 p, some (hi32 p), hi32 p, f.tap⟩] }

/-- A reserved CC is reported under every operation; only CMP takes a value from it (R97, assumption 18). -/
def ccIllegal (x : Tile) (u : Nat) (f : WuFields) : List StepErr :=
  if 6 ≤ f.cc.toNat then [x.wuIllegal u] else []

/-- AM = 3 is reported under an operation that reads no input a, too (R97, assumption 18). -/
def amIllegal (x : Tile) (u : Nat) (f : WuFields) : List StepErr :=
  if f.am = 3 then [x.wuIllegal u] else []

/-- An operation on inputs a and b. -/
def wu2 (g : Word → Word → Word) (x : Tile) (u : Nat) (f : WuFields) : TileRes :=
  let a := x.inA u f
  let b := x.inB u f false
  ((x.issue u f (g a.1 b.1)).countAlu, a.2 ++ b.2 ++ ccIllegal x u f)

/-! ## Operations (R95) -/

/-- TAP on an operation without a result loads nothing and is reported (R97). -/
def tapIllegal (x : Tile) (u : Nat) (f : WuFields) : List StepErr := if f.tap then [x.wuIllegal u] else []

def wuNop (x : Tile) (u : Nat) (f : WuFields) : TileRes :=
  (x, tapIllegal x u f ++ amIllegal x u f ++ ccIllegal x u f)

def wuMov (x : Tile) (u : Nat) (f : WuFields) : TileRes :=
  let b := x.inB u f false
  ((x.issue u f b.1).countAlu, b.2 ++ amIllegal x u f ++ ccIllegal x u f)

def wuAdd : Tile → Nat → WuFields → TileRes := wu2 (· + ·)
def wuSub : Tile → Nat → WuFields → TileRes := wu2 (· - ·)
def wuAnd : Tile → Nat → WuFields → TileRes := wu2 (· &&& ·)
def wuOr : Tile → Nat → WuFields → TileRes := wu2 (· ||| ·)
def wuXor : Tile → Nat → WuFields → TileRes := wu2 (· ^^^ ·)

/-- The shift amount n = b[4:0]. -/
def shamt (b : Word) : Nat := bits b 4 0

def wuShl : Tile → Nat → WuFields → TileRes := wu2 fun a b => a <<< shamt b
def wuShr : Tile → Nat → WuFields → TileRes := wu2 fun a b => a >>> shamt b
def wuSar : Tile → Nat → WuFields → TileRes := wu2 fun a b => a.sshiftRight (shamt b)
def wuRor : Tile → Nat → WuFields → TileRes := wu2 fun a b => a.rotateRight (shamt b)

/-- CMP (R96): a reserved CC gives 0 and is reported. -/
def wuCmp (x : Tile) (u : Nat) (f : WuFields) : TileRes :=
  let a := x.inA u f
  let b := x.inB u f false
  let c := cmpHolds f.cc.toNat a.1 b.1
  ((x.issue u f (BitVec.ofNat 32 (b2n c.1))).countAlu,
    a.2 ++ b.2 ++ if c.2 then [x.wuIllegal u] else [])

/-- SEL: a if c[0] = 1, else b. -/
def wuSel (x : Tile) (u : Nat) (f : WuFields) : TileRes :=
  let a := x.inA u f
  let b := x.inB u f false
  let c := x.inC u f
  ((x.issue u f (if bit c.1 0 then a.1 else b.1)).countAlu, a.2 ++ b.2 ++ c.2 ++ ccIllegal x u f)

/-- pos of EXT, INS and MRG. -/
def fieldPos (f : WuFields) : Nat := bits f.p1 4 0
/-- w of EXT, INS and MRG. -/
def fieldW (f : WuFields) : Nat := bits f.p2 5 0

/-- The mask M: bits pos to min(pos + w - 1, 31), none when w = 0 (R95, R97). -/
def fieldMask (f : WuFields) : Word :=
  BitVec.ofNat 32 ((2 ^ fieldW f - 1) * 2 ^ fieldPos f)

/-- w and pos outside 1 ≤ w and pos + w ≤ 32 are reserved (R95). -/
def fieldIllegal (x : Tile) (u : Nat) (f : WuFields) : List StepErr :=
  if fieldW f = 0 ∨ 32 < fieldPos f + fieldW f then [x.wuIllegal u] else []

/-- EXT: (a AND M) shifted right by pos. -/
def wuExt (x : Tile) (u : Nat) (f : WuFields) : TileRes :=
  let a := x.inA u f
  ((x.issue u f ((a.1 &&& fieldMask f) >>> fieldPos f)).countAlu, a.2 ++ fieldIllegal x u f ++ ccIllegal x u f)

/-- INS: (c AND NOT M) OR ((a shifted left by pos) AND M). -/
def wuIns (x : Tile) (u : Nat) (f : WuFields) : TileRes :=
  let a := x.inA u f
  let c := x.inC u f
  let m := fieldMask f
  ((x.issue u f ((c.1 &&& ~~~m) ||| ((a.1 <<< fieldPos f) &&& m))).countAlu,
    a.2 ++ c.2 ++ fieldIllegal x u f ++ ccIllegal x u f)

/-- MRG: (c AND NOT M) OR (a AND M). -/
def wuMrg (x : Tile) (u : Nat) (f : WuFields) : TileRes :=
  let a := x.inA u f
  let c := x.inC u f
  let m := fieldMask f
  ((x.issue u f ((c.1 &&& ~~~m) ||| (a.1 &&& m))).countAlu, a.2 ++ c.2 ++ fieldIllegal x u f ++ ccIllegal x u f)

/-- An odd DST of a multiply is reserved (R96). -/
def oddIllegal (x : Tile) (u : Nat) (f : WuFields) : List StepErr :=
  if f.dst.toNat % 2 = 1 then [x.wuIllegal u] else []

/-- A multiply of inputs a and b. -/
def wuMul (g : Word → Word → DWord) (x : Tile) (u : Nat) (f : WuFields) : TileRes :=
  let a := x.inA u f
  let b := x.inB u f false
  ((x.issue2 u f (g a.1 b.1)).countMul, a.2 ++ b.2 ++ oddIllegal x u f ++ ccIllegal x u f)

/-- MULU: the unsigned 64-bit product. -/
def wuMulu : Tile → Nat → WuFields → TileRes :=
  wuMul fun a b => BitVec.ofNat 64 (a.toNat * b.toNat)

/-- MULS: the two's complement 64-bit product. -/
def wuMuls : Tile → Nat → WuFields → TileRes :=
  wuMul fun a b => BitVec.ofInt 64 (a.toInt * b.toInt)

/-! ## Pantry operations (R102) -/

/-- The size of a store from P1[1:0]: 3 is reserved and acts as 4. -/
def storeSize (f : WuFields) : Nat :=
  match bits f.p1 1 0 with
  | 1 => 1
  | 2 => 2
  | _ => 4

/-- A pantry access issued in the current step. -/
def Tile.access (x : Tile) (u : Nat) (f : WuFields) (op : PanOp) (a b c : Word) : Tile :=
  { x with accesses := x.accesses ++
      [⟨u, x.step, op, BitVec.ofNat 20 (pantryAddr a f.imm), storeSize f, b, c, f.dst.toNat, f.tap⟩] }

/-- BM = 3 with a load is reserved, though a load reads no b (R96, R97). -/
def bmIllegal (x : Tile) (u : Nat) (f : WuFields) : List StepErr :=
  if f.bm = 3 then [x.wuIllegal u] else []

def wuLd (x : Tile) (u : Nat) (f : WuFields) : TileRes :=
  let a := x.inA u f
  (x.access u f .ld a.1 0 0, a.2 ++ bmIllegal x u f ++ ccIllegal x u f)

def wuLdh (x : Tile) (u : Nat) (f : WuFields) : TileRes :=
  let a := x.inA u f
  let c := x.inC u f
  (x.access u f .ldh a.1 0 c.1, a.2 ++ c.2 ++ bmIllegal x u f ++ ccIllegal x u f)

/-- A store: size 3 is reserved, and TAP loads nothing (R97, R102). -/
def wuStore (op : PanOp) (x : Tile) (u : Nat) (f : WuFields) : TileRes :=
  let a := x.inA u f
  let b := x.inB u f true
  (x.access u f op a.1 b.1 0,
    a.2 ++ b.2 ++ tapIllegal x u f ++ ccIllegal x u f ++
      if bits f.p1 1 0 = 3 then [x.wuIllegal u] else [])

def wuSt : Tile → Nat → WuFields → TileRes := wuStore .st
def wuSth : Tile → Nat → WuFields → TileRes := wuStore .sth

/-- The instruction of WU u by its OP; a reserved OP executes as NOP and is reported (R97). DEDUCED (assumption 18): a
reserved OP is reported alone, since without an operation the other fields have no meaning. -/
def wuExec (x : Tile) (u : Nat) (q : QWord) : TileRes :=
  let f := WuFields.ofQ q
  match wuOp q with
  | 0x00 => wuNop x u f
  | 0x01 => wuMov x u f
  | 0x02 => wuAdd x u f
  | 0x03 => wuSub x u f
  | 0x04 => wuAnd x u f
  | 0x05 => wuOr x u f
  | 0x06 => wuXor x u f
  | 0x07 => wuCmp x u f
  | 0x08 => wuSel x u f
  | 0x09 => wuShl x u f
  | 0x0A => wuShr x u f
  | 0x0B => wuSar x u f
  | 0x0C => wuRor x u f
  | 0x0D => wuExt x u f
  | 0x0E => wuIns x u f
  | 0x0F => wuMrg x u f
  | 0x10 => wuMulu x u f
  | 0x11 => wuMuls x u f
  | 0x18 => wuLd x u f
  | 0x19 => wuLdh x u f
  | 0x1A => wuSt x u f
  | 0x1B => wuSth x u f
  | _ => (x, [x.wuIllegal u])

/-! ## Results becoming visible (R98, R100) -/

/-- One result written to its register, its second register and, with TAP, the tap. -/
def Tile.land (x : Tile) (w : WuResult) : Tile :=
  let x := x.setWreg w.wu w.dst w.lo
  let x := match w.hi with
    | some h => x.setWreg w.wu ((w.dst + 1) % 256) h
    | none => x
  if w.tap then { x with tap := Table.set (fun _ => 0) x.tap w.wu (join32 w.tapHi w.lo) } else x

/-- Every result due by step n becomes visible, in issue order. -/
def Tile.landDue (x : Tile) (n : Nat) : Tile :=
  let due := x.results.filter fun w => w.due ≤ n
  due.foldl Tile.land { x with results := x.results.filter fun w => n < w.due }

/-! ## Pantry accesses taking place (R103 to R105) -/

/-- The pantry word that an access touches, if it touches one (R102). -/
def PanAccess.word (a : PanAccess) : Option Nat :=
  let e := a.addr.toNat
  let q := e / 4
  let k := e % 4
  match a.op with
  | .ld => some q
  | .st => some q
  | .ldh => if k = 0 then none else some ((q + 1) % 2 ^ 18)
  | .sth => if 4 < k + a.size then some ((q + 1) % 2 ^ 18) else none

/-- The bank of a pantry word. -/
def wordBank (w : Nat) : Nat := w / 2 ^ 14

/-- Whether an access is a load. -/
def PanAccess.isLoad (a : PanAccess) : Bool := a.op = .ld || a.op = .ldh

/-- A word of the pantry, little-endian. -/
def Tile.panWord (x : Tile) (w : Nat) : Word := BitVec.ofNat 32 (x.pantry.readNat (4 * w) 4)

/-- The value that a load gives. -/
def Tile.loadValue (x : Tile) (a : PanAccess) : Word :=
  let k := a.addr.toNat % 4
  match a.op, a.word with
  | .ldh, none => a.c
  | .ldh, some w =>
    let l : Word := BitVec.ofNat 32 (2 ^ 32 - 2 ^ (8 * (4 - k)))
    (a.c &&& ~~~l) ||| ((x.panWord w).rotateRight (8 * k) &&& l)
  | _, some w => (x.panWord w).rotateRight (8 * k)
  | _, none => 0

/-- The bytes that a store writes: byte address and value (lanes of the rotated data). -/
def PanAccess.stores (a : PanAccess) : List (Nat × Byte) :=
  let k := a.addr.toNat % 4
  let v := a.data.rotateLeft (8 * k)
  match a.op, a.word with
  | .st, some w =>
    (List.range' k (min 4 (k + a.size) - k)).map fun j => (4 * w + j, v.extractLsb' (8 * j) 8)
  | .sth, some w => (List.range (k + a.size - 4)).map fun j => (4 * w + j, v.extractLsb' (8 * j) 8)
  | _, _ => []

/-- One byte written into the pantry: any write sets both dirty bits of its line (R478). -/
def Tile.panPut (x : Tile) (a : Nat) (b : Byte) : Tile :=
  { x with
    pantry := x.pantry.write a b
    dirty0 := Table.set (fun _ => false) x.dirty0 (a / 64) true
    dirty1 := Table.set (fun _ => false) x.dirty1 (a / 64) true }

/-- An access that an address comparator may watch: write or read, step of issue, first byte, bytes. -/
structure Watch where
  write : Bool
  step : Nat
  first : Nat
  len : Nat
  deriving DecidableEq, Repr

/-- The bytes that an access reads or writes in step s + 2. -/
def PanAccess.watch (a : PanAccess) : List Watch :=
  match a.word with
  | none => []
  | some w =>
    if a.isLoad then [⟨false, a.step, 4 * w, 4⟩]
    else
      match a.stores with
      | [] => []
      | (e, b) :: rest => [⟨true, a.step, e, ((e, b) :: rest).length⟩]

/-- PANTRY_OWNER of a refused access. -/
def PanAccess.ownerErr (a : PanAccess) (w : Nat) : StepErr :=
  ⟨4, 0x1023, 1, a.wu, a.step * 2 ^ 22 + a.wu * 2 ^ 18 + wordBank w * 2 ^ 14 + w % 2 ^ 14⟩

/-- SCLK cycles that bank k needs for a list of words (R105). -/
def bankCycles (k : Nat) (ws : List Nat) : Nat :=
  let n := (ws.filter fun w => wordBank w = k).length
  if 14 ≤ k then ceilDiv n 2 else n

/-- What the accesses due by step n do: the tile after them, errors, watched accesses, stall cycles. -/
structure PanRes where
  x : Tile
  errs : List StepErr
  watches : List Watch
  stall : Nat

/-- The accesses of the instructions issued by step n - 2 take place: reads before writes, writes in
rising WU order; loads give results that become visible two steps later (R103). DEDUCED (assumption 80): an LDH or STH
whose W[q + 1] lies in the next bank counts, and is checked, as an access of that bank, where R102 says E[19:16]; and
the owner is judged when the access takes place, so one whose instruction came before PENDING rose is refused after it
(R283). -/
def Tile.pantryStep (e : TileEnv) (x : Tile) (n : Nat) : PanRes :=
  let due := x.accesses.filter fun a => a.step + 2 ≤ n
  let x := { x with accesses := x.accesses.filter fun a => n < a.step + 2 }
  let ok (a : PanAccess) : Bool :=
    match a.word with
    | none => true
    | some w => e.owned (wordBank w)
  let made := due.filter fun a => a.word.isSome && ok a
  let words := made.filterMap PanAccess.word
  let errs := due.filterMap fun a =>
    match a.word with
    | some w => if ok a then none else some (a.ownerErr w)
    | none => none
  let results := (due.filter PanAccess.isLoad).map fun a =>
    (⟨a.wu, a.step + 4, a.dst, if ok a then x.loadValue a else (if a.op = .ldh then a.c else 0), none,
      0, a.tap⟩ : WuResult)
  let puts := (List.range 16).flatMap fun u =>
    (made.filter fun a => a.wu = u).flatMap PanAccess.stores
  let x := puts.foldl (fun x p => x.panPut p.1 p.2) x
  let stall := ((List.range 16).map fun k => bankCycles k words).foldl max 0 - 1
  { x := { x with
      results := x.results ++ results
      energy := { x.energy with pan := x.energy.pan + made.length, steps := x.energy.steps + stall } }
    errs := errs
    watches := made.flatMap PanAccess.watch
    stall := stall }

/-! ## Boolean processors (R79 to R93) -/

/-- What one BP does in a step: its output, whether it writes the now-half, the wire it drives with
the value driven, and its errors. -/
structure BpRes where
  out : Bool
  now : Bool
  wire : Option (Nat × Bool)
  errs : List StepErr

/-- ILLEGAL_ENCODING of the BP stream. -/
def bpIllegal (x : Tile) (b : Nat) : StepErr := ⟨4, 0x1024, 0, b, x.step * 2 ^ 22 + b⟩

/-- BP b executes instruction w (R80 to R82, R97). DEDUCED (assumption 18): each reserved encoding of the instruction is
one ILLEGAL_ENCODING of its own, so several of them count one each. -/
def bpExec (e : TileEnv) (x : Tile) (b : Nat) (w : DWord) : BpRes :=
  let wr := bits w 3 2
  let sp := bits w 1 0
  let nowsp := wr = 2
  let ra := bpOperand e x b (bits w 47 37) false
  let rb := bpOperand e x b (bits w 36 26) false
  let rc := bpOperand e x b (bits w 25 15) true
  let rd := if nowsp then (bit w 0, none) else bpOperand e x b (bits w 14 4) true
  let out := bit w (48 + 8 * b2n rd.1 + 4 * b2n rc.1 + 2 * b2n rb.1 + b2n ra.1)
  let opErr (r : Bool × Option (Nat × Nat)) : List StepErr :=
    match r.2 with
    | some (code, info) => [⟨4, code, 0, b, info⟩]
    | none => []
  { out := out
    now := wr = 1 || wr = 2
    wire := if nowsp then some (bits w 9 4, out != bit w 1) else none
    errs := opErr ra ++ opErr rb ++ opErr rc ++ opErr rd ++
      (if wr = 3 then [bpIllegal x b] else []) ++
      (if !nowsp && sp ≠ 0 then [bpIllegal x b] else []) ++
      (if nowsp && bits w 14 10 ≠ 0 then [bpIllegal x b] else []) }

/-- The BP instructions of a step that are not the no-op, with their BP, in rising order. -/
def Tile.bpList (x : Tile) : List (Nat × DWord) :=
  (x.bpCode.filter fun e => x.step * 512 ≤ e.1 && decide (e.1 < x.step * 512 + 512)).map fun e =>
    (e.1 - x.step * 512, e.2)

/-- The number of ones of a step bus. -/
def popcount (v : BitVec 512) : Nat := ((List.range 512).filter fun i => v.getLsbD i).length

/-- All BPs execute the step on the tile as it stands: new step bus, spine and now-half (R87 to R93);
the step number does not move yet. DEDUCED (assumption 18): the BP number that orders SPINE_CONFLICT among the errors of
R108 is that of the lowest BP that lost the wire, which PG_ERR_INFO names. -/
def Tile.bpStep (e : TileEnv) (x : Tile) : TileRes :=
  let rs := x.bpList.map fun p => (p.1, bpExec e x p.1 p.2)
  let bus := rs.foldl (fun v r => if r.2.out then v ||| BitVec.ofNat 512 (2 ^ r.1) else v) 0
  let drives := rs.filterMap fun r => r.2.wire.map fun w => (w.1, r.1, w.2)
  let spine := (List.range 64).foldl (fun v w =>
    match drives.find? fun d => d.1 = w with
    | some d => if d.2.2 then v ||| BitVec.ofNat 64 (2 ^ w) else v
    | none => v) (0 : DWord)
  let conflicts := (List.range 64).filterMap fun w =>
    match drives.filter fun d => d.1 = w with
    | _ :: d :: _ => some (⟨4, 0x1020, 0, d.2.1, x.step * 2 ^ 22 + w * 2 ^ 16 + d.2.1⟩ : StepErr)
    | _ => none
  let y := rs.foldl (fun y r => if r.2.now then y.writeNow r.1 x.step r.2.out else y) x
  ({ y with
      bus := bus
      spine := spine
      energy := { y.energy with toggles := y.energy.toggles + popcount (x.bus ^^^ bus) } },
    conflicts ++ rs.flatMap fun r => r.2.errs)

/-- The WU instructions of a step that are not all zero, with their WU. -/
def Tile.wuList (x : Tile) : List (Nat × QWord) :=
  (x.wuCode.filter fun e => x.step * 16 ≤ e.1 && decide (e.1 < x.step * 16 + 16)).map fun e =>
    (e.1 - x.step * 16, e.2)

/-- All WUs execute the step: each reads the tile as it stands at the step's beginning, since no
result of the step is visible before step s + 4. -/
def Tile.wuStep (x : Tile) : TileRes :=
  x.wuList.foldl (fun r p => let y := wuExec r.1 p.1 p.2; (y.1, r.2 ++ y.2)) (x, [])

/-! ## Errors of a step (R108) -/

/-- The order in which a page takes the errors of one step: lowest code, then stream, then number. -/
def StepErr.before (a b : StepErr) : Bool :=
  a.code < b.code || (a.code = b.code && (a.stream < b.stream ||
    (a.stream = b.stream && a.num < b.num)))

/-- An error put into its place, after those that do not come after it. Errors that the keys of R108 do not order
(one code, stream and number: a BP's reads of two empty slots, a WU's inputs) keep the order of the
operands a, b, c, d (assumption 18). -/
def insertErr (e : StepErr) : List StepErr → List StepErr
  | [] => [e]
  | h :: rest => if e.before h then e :: h :: rest else h :: insertErr e rest

/-- Errors in the order of R108. -/
def sortErrs (l : List StepErr) : List StepErr := l.foldl (fun acc e => insertErr e acc) []

/-- The errors of a step recorded on the pages of tile t; any of them halts the device at the boundary
after the batch (R108, R142). -/
def State.stepErrs (s : State) (t : Nat) (l : List StepErr) : State :=
  match sortErrs l with
  | [] => s
  | e :: rest =>
    ((e :: rest).foldl (fun s e => s.tileErr t e.pg e.code e.info) s).haltRequest 8

end Sys2Proof.Machine
end

