-- ==== Sys2Proof/Machine/Compare.lean ====
section
/-! DEFINITION. Address and batch comparators (R458, R459, R470, R471). -/

namespace Sys2Proof.Machine

/-- A comparator register as the last start phase took it (R459). -/
def State.cmpReg (s : State) (r : Reg) (j : Nat) : Word := Table.get regInit s.run.cmp (r.addr j)

/-- A 64-bit comparator bound. -/
def State.cmpReg64 (s : State) (lo hi : Reg) (j : Nat) : Nat := (join32 (s.cmpReg hi j) (s.cmpReg lo j)).toNat

/-- The comparator registers taken over at a start phase: every register of the RUN page at or above
offset 0x080. -/
def State.latchCompare (s : State) : State :=
  { s with run := { s.run with cmp := s.regs.filter fun e => 0x7080 ≤ e.1 && decide (e.1 < 0x7300) } }

/-- An access that a comparator may watch. -/
structure Seen where
  /-- SPACE: 0 memory item, 1 pantry -/
  space : Nat
  read : Bool
  write : Bool
  vtile : Nat
  /-- step of issue; 0x7FF for a memory item -/
  step : Nat
  batch : DWord
  first : Nat
  len : Nat
  deriving DecidableEq, Repr

/-- Whether comparator j hits on an access. -/
def State.acmpHits (s : State) (j : Nat) (a : Seen) : Bool :=
  let c := s.cmpReg .runAcmpCtrl j
  let lo := s.cmpReg64 .runAcmpLoLo .runAcmpLoHi j
  let hi := s.cmpReg64 .runAcmpHiLo .runAcmpHiHi j
  bit c 31 && (b2n (bit c 30) = a.space) &&
  ((bit c 28 && a.read) || (bit c 29 && a.write)) &&
  (a.space = 0 || bit c 27 || bits c 26 20 = a.vtile) &&
  decide (lo ≤ a.first + a.len - 1) && decide (a.first ≤ hi) && decide (lo ≤ hi)

/-- A hit of comparator j: counted, the first recorded, and its halt request and interrupt made. -/
def State.acmpHit (s : State) (j : Nat) (a : Seen) : State :=
  let c := s.cmpReg .runAcmpCtrl j
  let lo := s.cmpReg64 .runAcmpLoLo .runAcmpLoHi j
  let s := s.countReg .runAcmpCount 0xFFFFFFFF 1 j
  let s :=
    if bit (s.rd .runAcmpHit j) 31 then s
    else
      ((s.wr .runAcmpHit (BitVec.ofNat 32
          (2 ^ 31 + b2n a.write * 2 ^ 30 + a.vtile * 2 ^ 23 + a.step * 2 ^ 12)) j).wr64
        .runAcmpHbatchLo .runAcmpHbatchHi a.batch j).wr64
        .runAcmpHaddrLo .runAcmpHaddrHi (BitVec.ofNat 64 (max a.first lo)) j
  let s := if bit c 0 then s.haltRequest 4 else s
  if bit c 1 then s.cause runPage 3 else s

/-- An access shown to the eight address comparators; in a recovery pause none is evaluated (R457). -/
def State.watch (s : State) (a : Seen) : State :=
  if s.run.state = .recover then s
  else (List.range 8).foldl (fun s j => if s.acmpHits j a then s.acmpHit j a else s) s

/-- Batch comparator i in the batch-end phase of batch n (R458). -/
def State.bcmp (s : State) (n : DWord) (i : Nat) : State :=
  let c := s.cmpReg .runBcmpCtrl i
  if bit c 31 && (s.cmpReg64 .runBcmpLo .runBcmpHi i = n.toNat) then
    let s := s.setFld .runBcmpCtrl 30 30 1 i
    let s := if bit c 0 then s.haltRequest 3 else s
    if bit c 1 then s.cause runPage 2 else s
  else s

/-- The four batch comparators. -/
def State.bcmpAll (s : State) (n : DWord) : State := (List.range 4).foldl (fun s i => s.bcmp n i) s

end Sys2Proof.Machine
end

