-- ==== Sys2Proof/Machine/Crypto.lean ====
section
/-! DEFINITION. The arithmetic that the spec names: AES-256 (FIPS 197), XTS (IEEE 1619), GMAC (SP
800-38D) and the CRCs, as far as R173, R313, R315, R323 and R369 use them. -/

namespace Sys2Proof.Machine

/-! ## AES-256 -/

/-- The forward substitution table, entry i in bits [8i + 7 : 8i]. -/
def aesSbox : Nat :=
  0x16BB54B00F2D99416842E6BF0D89A18CDF2855CEE9871E9B948ED9691198F8E19E1DC186B95735610EF6034866B53E708A8BBD4B1F74DDE8C6B4A61C2E2578BA08AE7A65EAF4566CA94ED58D6D37C8E779E4959162ACD3C25C2406490A3A32E0DB0B5EDE14B8EE4688902A22DC4F816073195D643D7EA7C41744975FEC130CCDD2F3FF1021DAB6BCF5389D928F40A351A89F3C507F02F94585334D43FBAAEFD0CF584C4A39BECB6A5BB1FC20ED00D153842FE329B3D63B52A05A6E1B1A2C830975B227EBE28012079A059618C323C7041531D871F1E5A534CCF73F362693FDB7C072A49CAFA2D4ADF04759FA7DC982CA76ABD7FE2B670130C56F6BF27B777C63

/-- The inverse substitution table, entry i in bits [8i + 7 : 8i]. -/
def aesInvSbox : Nat :=
  0x7D0C2155631469E126D677BA7E042B17619953833CBBEBC8B0F52AAE4D3BE0A0EF9CC9939F7AE52D0D4AB519A97F51605FEC8027591012B131C7078833A8DD1FF45ACD78FEC0DB9A2079D2C64B3E56FC1BBE18AA0E62B76F89C5291D711AF1476EDF751CE837F9E28535ADE72274AC9673E6B4F0CECFF297EADC674F4111913A6B8A130103BDAFC1020F3FCA8F1E2CD00645B3B80558E4F70AD3BC8C00ABD890849D8DA75746155EDAB9EDFD5048706C92B6655DCC5CA4D41698688664F6F87225D18B6D49A25B76B224D92866A12E084EC3FA420B954CEE3D23C2A632947B54CBE9DEC444438E3487FF2F9B8239E37CFBD7F3819EA340BF38A53630D56A0952

/-- An entry of a substitution table. -/
def subByte (tbl : Nat) (b : Byte) : Byte := BitVec.ofNat 8 (tbl >>> (8 * b.toNat))

/-- A field element times x, modulo x^8 + x^4 + x^3 + x + 1. -/
def xtime (b : Byte) : Byte := if bit b 7 then (b <<< 1) ^^^ 0x1B else b <<< 1

/-- The product of two field elements, by the low `fuel` bits of the second. -/
def gmul : Nat → Byte → Byte → Byte
  | 0, _, _ => 0
  | n + 1, a, b => (if bit b 0 then a else 0) ^^^ gmul n (xtime a) (b >>> 1)

/-- Two byte strings added. -/
def xorBytes : List Byte → List Byte → List Byte := List.zipWith (· ^^^ ·)

/-- The byte at place i of a string, 0 beyond its end. -/
def byteAt (l : List Byte) (i : Nat) : Byte := l.getD i 0

/-- The columns shifted row by row: byte r + 4c comes from r + 4((c + r) mod 4). -/
def shiftRows (s : List Byte) : List Byte :=
  (List.range 16).map fun i => byteAt s (i % 4 + 4 * ((i / 4 + i % 4) % 4))

/-- The inverse row shift. -/
def invShiftRows (s : List Byte) : List Byte :=
  (List.range 16).map fun i => byteAt s (i % 4 + 4 * ((i / 4 + 4 - i % 4) % 4))

/-- Each column times the matrix whose first row is given. -/
def mixWith (row : List Byte) (s : List Byte) : List Byte :=
  (List.range 16).map fun i =>
    let c := 4 * (i / 4)
    let r := i % 4
    (List.range 4).foldl (fun a k => a ^^^ gmul 8 (byteAt s (c + k)) (byteAt row ((k + 4 - r) % 4))) 0

def mixColumns : List Byte → List Byte := mixWith [2, 3, 1, 1]
def invMixColumns : List Byte → List Byte := mixWith [14, 11, 13, 9]

/-- The words of the key schedule after the first eight, newest first: word i from word i - 1 and word
i - 8; `rc` is the round constant. -/
def expandKey : Nat → Nat → Byte → List (List Byte) → List (List Byte)
  | 0, _, _, ws => ws
  | n + 1, i, rc, ws =>
    let prev := ws.headD []
    let old := ws.getD 7 []
    let t :=
      if i % 8 = 0 then xorBytes ((prev.rotate 1).map (subByte aesSbox)) [rc, 0, 0, 0]
      else if i % 8 = 4 then prev.map (subByte aesSbox)
      else prev
    expandKey n (i + 1) (if i % 8 = 0 then xtime rc else rc) (xorBytes old t :: ws)

/-- Bytes in groups of four. -/
def words4 : List Byte → List (List Byte)
  | a :: b :: c :: d :: rest => [a, b, c, d] :: words4 rest
  | _ => []

/-- The fifteen round keys of a 32-byte key. -/
def roundKeys (key : List Byte) : List (List Byte) :=
  let ws := (expandKey 52 8 1 (words4 key).reverse).reverse
  (List.range 15).map fun r => (List.range 4).flatMap fun c => ws.getD (4 * r + c) []

/-- One block encrypted under a 32-byte key. -/
def aesEnc (key blk : List Byte) : List Byte :=
  let rk := roundKeys key
  let k (r : Nat) : List Byte := rk.getD r []
  let s := (List.range' 1 13).foldl
    (fun s r => xorBytes (mixColumns (shiftRows (s.map (subByte aesSbox)))) (k r)) (xorBytes blk (k 0))
  xorBytes (shiftRows (s.map (subByte aesSbox))) (k 14)

/-- One block decrypted under a 32-byte key. -/
def aesDec (key blk : List Byte) : List Byte :=
  let rk := roundKeys key
  let k (r : Nat) : List Byte := rk.getD r []
  let s := (List.range' 1 13).foldr
    (fun r s => invMixColumns (xorBytes ((invShiftRows s).map (subByte aesInvSbox)) (k r)))
    (xorBytes blk (k 14))
  xorBytes ((invShiftRows s).map (subByte aesInvSbox)) (k 0)

/-! ## XTS (R313) -/

/-- A tweak times x: the bytes are little-endian, and the carry out of bit 127 adds 0x87. -/
def xtsDouble (t : List Byte) : List Byte :=
  let v := leNat t * 2
  leBytes 16 (if 2 ^ 128 ≤ v then (v - 2 ^ 128) ^^^ 0x87 else v)

/-- The 32 bytes of a key held as a vector, byte i in bits [8i + 7 : 8i]. -/
def keyBytes (k : BitVec 256) : List Byte := leBytes 32 k.toNat

/-- The four blocks of a line run through a cipher with their tweaks. -/
def xtsRun (cipher : List Byte → List Byte) : Nat → List Byte → List Byte → List Byte
  | 0, _, _ => []
  | n + 1, t, d =>
    xorBytes (cipher (xorBytes (d.take 16) t)) t ++ xtsRun cipher n (xtsDouble t) (d.drop 16)

/-- The first tweak of line number l. -/
def xtsTweak (k2 : BitVec 256) (l : Nat) : List Byte := aesEnc (keyBytes k2) (leBytes 16 l)

/-- A 64-byte line encrypted under K1 and K2. -/
def xtsEnc (k1 k2 : BitVec 256) (l : Nat) (d : List Byte) : List Byte :=
  xtsRun (aesEnc (keyBytes k1)) 4 (xtsTweak k2 l) d

/-- A 64-byte line decrypted under K1 and K2. -/
def xtsDec (k1 k2 : BitVec 256) (l : Nat) (d : List Byte) : List Byte :=
  xtsRun (aesDec (keyBytes k1)) 4 (xtsTweak k2 l) d

/-- The key check value: the first three bytes of the all-zero block encrypted, byte 0 highest (R315). -/
def kcv (k : BitVec 256) : Nat :=
  let e := aesEnc (keyBytes k) (List.replicate 16 0)
  (byteAt e 0).toNat * 2 ^ 16 + (byteAt e 1).toNat * 2 ^ 8 + (byteAt e 2).toNat

/-! ## GMAC (R323) -/

/-- The number that bytes spell, most significant first. -/
def beNat (l : List Byte) : Nat := l.foldl (fun a b => a * 256 + b.toNat) 0

/-- A number as n bytes, most significant first. -/
def beBytes (n v : Nat) : List Byte := (leBytes n v).reverse

/-- The product of GHASH: bit 127 of a number is the first bit of the block. -/
def ghashMul : Nat → Nat → Nat → Nat → Nat
  | 0, _, _, z => z
  | n + 1, x, v, z =>
    let z := if x.testBit n then z ^^^ v else z
    ghashMul n x (if v % 2 = 1 then (v / 2) ^^^ (0xE1 * 2 ^ 120) else v / 2) z

/-- GHASH of a list of blocks. -/
def ghash (h : Nat) (blocks : List Nat) : Nat :=
  blocks.foldl (fun y b => ghashMul 128 (y ^^^ b) h 0) 0

/-- Bytes in blocks of sixteen, as numbers; n blocks. -/
def blocks16 : Nat → List Byte → List Nat
  | 0, _ => []
  | n + 1, d => beNat (d.take 16) :: blocks16 n (d.drop 16)

/-- The 8-byte tag of line l whose stored bytes are d: GCM with an empty plaintext, the line as
additional data, and the 96-bit line number as IV. -/
def gmacTag (kt : BitVec 256) (l : Nat) (d : List Byte) : List Byte :=
  let key := keyBytes kt
  let h := beNat (aesEnc key (List.replicate 16 0))
  let s := ghash h (blocks16 4 d ++ [512 * 2 ^ 64])
  let e := beNat (aesEnc key (beBytes 12 l ++ [0, 0, 0, 1]))
  (beBytes 16 (s ^^^ e)).take 8

/-! ## CRC (R173, R369) -/

/-- Eight steps of a reflected CRC register. -/
def crcShift (poly : Nat) : Nat → Nat → Nat
  | 0, c => c
  | n + 1, c => crcShift poly n (if c % 2 = 1 then (c / 2) ^^^ poly else c / 2)

/-- A reflected CRC register after more bytes. -/
def crcUpdate (poly : Nat) (c : Nat) (l : List Byte) : Nat :=
  l.foldl (fun c b => crcShift poly 8 (c ^^^ b.toNat)) c

/-- The CRC-32 of IEEE 802.3: its reflected polynomial. -/
def crc32Poly : Nat := 0xEDB88320
/-- The CRC-32C: its reflected polynomial. -/
def crc32cPoly : Nat := 0x82F63B78

/-- A CRC with initial value and final XOR of all ones. -/
def crcOf (poly : Nat) (l : List Byte) : Word :=
  BitVec.ofNat 32 (crcUpdate poly 0xFFFFFFFF l ^^^ 0xFFFFFFFF)

end Sys2Proof.Machine
end

