-- ==== Sys2Proof/Machine/Encrypt.lean ====
section
/-! DEFINITION. The encryption engine, the key store, the region table and the background engine
(R20, R299, R310 to R341). -/

namespace Sys2Proof.Machine

/-! ## Capacity (R298, R299, R322) -/

/-- The installed DDR that the device uses, in GiB: none where no DDR is usable (R296, R309). -/
def State.usedGib (s : State) : Nat := if s.fld .memCapInst 15 12 = 0 then 0 else s.fld .memCapInst 11 0

/-- Installed DDR in bytes; 0 while no DDR is usable. -/
def State.ddrInstalled (s : State) : Nat := s.usedGib * 2 ^ 30

/-- Usable DDR in bytes: MEM_CAP_USE.MIB × 1 MiB. -/
def State.ddrCap (s : State) : Nat := s.fld .memCapUse 21 0 * 2 ^ 20

/-- MEM_CAP_USE.MIB and ENC_CARVE.BASE_MIB set from the installed capacity and ENC_CARVE.EN. -/
def State.setCap (s : State) : State :=
  let mib := s.usedGib * 1024
  let use := if bit (s.rd .encCarve) 31 then mib * 7 / 8 else mib
  (s.wr .memCapUse (BitVec.ofNat 32 use)).setFld .encCarve 21 0 use

/-- log2 of the populated channels. -/
def State.chanLog2 (s : State) : Nat := if s.fld .memCapInst 15 12 = 8 then 3 else 2

/-- The channel of a DDR address, and the address within it (R298). -/
def State.ddrChannel (s : State) (a : Nat) : Nat := a / 256 % 2 ^ s.chanLog2
def State.chanAddr (s : State) (a : Nat) : Nat := a / 2 ^ (8 + s.chanLog2) * 256 + a % 256

/-! ## Regions (R319 to R321) -/

def rgnEn (w : Word) : Bool := bit w 31
def rgnInteg (w : Word) : Bool := bit w 30

/-- The deciding region of a byte's line: the lowest-numbered enabled region that covers it. -/
def State.region (s : State) (a : Nat) : Option Nat :=
  (List.range 32).find? fun r =>
    rgnEn (s.rd .encRgnCtrl r) && decide (s.fld .encRgnBase 21 0 r ≤ a / 2 ^ 20) &&
      decide (a / 2 ^ 20 ≤ s.fld .encRgnLimit 21 0 r)

/-- Classes (R320). -/
def clsSup : Nat := 0
def clsUsr : Nat := 1
def clsPorter : Nat := 2
def clsService : Nat := 3
def clsDebug : Nat := 5
def clsProof : Nat := 6
def clsAcq : Nat := 7

/-- Whether a region's RIGHTS grant a class the access. -/
def rightsOk (w : Word) (cls : Nat) (read write : Bool) : Bool :=
  (!read || bit w (2 * cls)) && (!write || bit w (2 * cls + 1))

/-! ## Key slots (R315 to R317, R330) -/

/-- The keys of slot n; none while it is not valid. Slot 0 is plaintext and not asked here. -/
def State.slotKey (s : State) (n : Nat) : Option KeySlot := Table.get (fun _ => none) s.enc.slots n

/-- Whether a slot is valid. -/
def State.slotValid (s : State) (n : Nat) : Bool := n = 0 || (s.slotKey n).isSome

/-- ENC_QKEY of a queue. -/
def State.qkey (s : State) (q : Nat) : Nat := s.fld .encQkey 5 0 q

/-- A key change is in force: from START until RELEASE. -/
def State.rekeying (s : State) : Bool := s.enc.bg = .rekey || s.enc.bg = .done

/-- Whether a slot is OLD or NEW of an unreleased key change. -/
def State.slotLocked (s : State) (n : Nat) : Bool :=
  s.rekeying && (n = s.enc.bgOld || n = s.enc.bgNew)

/-- The slot that applies to a line whose request names slot n (R330). -/
def State.useSlot (s : State) (n a : Nat) : Nat :=
  if s.slotLocked n && decide (s.enc.bgFirst.toNat ≤ a) && decide (a < s.enc.bgEnd.toNat) then
    (if a < s.enc.bound.toNat then s.enc.bgNew else s.enc.bgOld)
  else n

/-! ## What a request meets -/

/-- The outcome of a request. -/
inductive EncRes where
  | ok (data : List Byte)
  /-- refused with the code recorded (R327) -/
  | refused (code : Nat)
  /-- an uncorrected DDR error on a channel (R301) -/
  | ue (chan : Nat)
  /-- an integrity failure, or an engine halted by one (R328) -/
  | integrity
  deriving DecidableEq, Repr

/-- A requester: class and queue. -/
structure Requester where
  cls : Nat
  queue : Nat
  deriving DecidableEq, Repr

/-- The checks of R327 for one line: the code and PG_ERR_INFO of a refusal. -/
def State.encRefuse (s : State) (r : Requester) (slot a : Nat) (read write : Bool) : Option (Nat × Nat) :=
  let info := r.cls * 2 ^ 29 + slot * 2 ^ 23
  if s.ddrCap ≤ a then some (0x3101, info + a / 64 % 2 ^ 23)
  else
    match s.region a with
    | none => some (0x3102, info + 0x7FFFFF)
    | some g =>
      if !rightsOk (s.rd .encRgnCtrl g) r.cls read write then some (0x3102, info + a / 64 % 2 ^ 23)
      else if !s.slotValid slot then some (0x3103, info + a / 64 % 2 ^ 23)
      else none

/-- Whether tags are written for a line's region, and whether a read is checked: not above the
boundary of a running seal (R324). -/
def State.integ (s : State) (a : Nat) : Bool :=
  match s.region a with
  | some g => rgnInteg (s.rd .encRgnCtrl g)
  | none => false

def State.checked (s : State) (a : Nat) : Bool :=
  s.integ a && !(s.enc.bg = .seal && s.region a = some s.enc.bgRegion &&
    decide (s.enc.bound.toNat ≤ a))

/-- The address of a line's tag (R322). -/
def State.tagAddr (s : State) (a : Nat) : Nat := s.ddrCap + 8 * (a / 64)

/-- The 64 stored bytes of the line at a. -/
def State.rawLine (s : State) (a : Nat) : List Byte := s.mem.ddr.readBytes (a / 64 * 64) 64

/-- Whether the stored tag agrees with the stored line. -/
def State.tagGood (s : State) (a : Nat) : Bool :=
  match s.enc.kt with
  | some k => s.mem.ddr.readBytes (s.tagAddr a) 8 = gmacTag k (a / 64) (s.rawLine a)
  | none => false

/-- A stored line decrypted under a slot. -/
def State.decrypt (s : State) (slot a : Nat) (d : List Byte) : List Byte :=
  match slot, s.slotKey slot with
  | 0, _ => d
  | _, some k => xtsDec k.k1 k.k2 (a / 64) d
  | _, none => d

/-- A line encrypted under a slot. -/
def State.encrypt (s : State) (slot a : Nat) (d : List Byte) : List Byte :=
  match slot, s.slotKey slot with
  | 0, _ => d
  | _, some k => xtsEnc k.k1 k.k2 (a / 64) d
  | _, none => d

/-- DDR bytes written from address a. -/
def State.ddrPut (s : State) (a : Nat) (d : List Byte) : State :=
  { s with mem := { s.mem with ddr := s.mem.ddr.writeBytes a d } }

/-- An access to a channel wakes it from self-refresh (R266). -/
def State.touchChannel (s : State) (c : Nat) : State :=
  { s with mem := { s.mem with
      selfRefresh := s.mem.selfRefresh.filter (· ≠ c)
      chIdleNs := Table.set (fun _ => 0) s.mem.chIdleNs c 0 } }

/-- The channel of the tag line of the line at a accessed (R265, R312, R322). The model's check always reads the tag
line: what the tag cache holds the spec leaves open (assumption 7). -/
def State.touchTag (s : State) (a : Nat) : State := s.touchChannel (s.ddrChannel (s.tagAddr a))

/-- The tag of the line at a written from its stored bytes. -/
def State.writeTag (s : State) (a : Nat) : State :=
  match s.enc.kt with
  | some k => (s.touchTag a).ddrPut (s.tagAddr a) (gmacTag k (a / 64) (s.rawLine a))
  | none => s

/-- The count of a key in a list of counts. -/
def countOf (l : List ((Nat × Nat × Nat) × Nat)) (k : Nat × Nat × Nat) : Nat :=
  (l.lookup k).getD 0

/-- A key counted once more. -/
def bump (l : List ((Nat × Nat × Nat) × Nat)) (k : Nat × Nat × Nat) : List ((Nat × Nat × Nat) × Nat) :=
  (k, countOf l k + 1) :: l.filter fun e => e.1 ≠ k

/-- A device marked failed: from then on its errors are corrected as erasures (R300). -/
def State.deviceFails (s : State) (c rank dev : Nat) : State :=
  let s : State := { s with mem := { s.mem with failedDev := s.mem.failedDev ++ [(c, rank, dev)] } }
  let s := s.err (chanPage c) 0x3002 (rank * 2 ^ 8 + dev)
  if bit (s.rd .memChEcc c) 31 then s
  else
    (s.wr .memChEcc ((s.rd .memChEcc c &&& 0xFFFF) |||
      BitVec.ofNat 32 (2 ^ 31 + rank % 16 * 2 ^ 27 + dev % 32 * 2 ^ 22)) c).cause (chanPage c) 1

/-- One corrected DDR error: channel, rank, device, row. The channel counts it; a device that reaches
64 in a pass is marked failed, once (R300); a row that reaches THRESH is queued, at most 16 a channel (R303). -/
def State.ddrCe (s : State) (e : Nat × Nat × Nat × Nat) : State :=
  let (c, rank, dev, row) := e
  let s := s.countReg .memChCe 0xFFFFFFFF 1 c
  let s : State := { s with mem := { s.mem with
    ceDevice := bump s.mem.ceDevice (c, rank, dev)
    ceRow := bump s.mem.ceRow (c, rank, row) } }
  let s :=
    if countOf s.mem.ceDevice (c, rank, dev) = 64 ∧ (c, rank, dev) ∉ s.mem.failedDev then s.deviceFails c rank dev
    else s
  let th := s.fld .memChPpr 7 0 c
  let queued := (s.mem.pprQueue.filter fun q => q.1 = c).length
  if th ≠ 0 ∧ th ≤ countOf s.mem.ceRow (c, rank, row) ∧ (c, rank, row) ∉ s.mem.pprQueue ∧ queued < 16 then
    { s with mem := { s.mem with pprQueue := s.mem.pprQueue ++ [(c, rank, row)] } }
  else s

/-- Channel c cannot correct what the DRAM meets: an error in two devices, or an error of a second device of a
rank that has a failed one (R300). -/
def State.dramFails (s : State) (c : Nat) (d : Dram) : Bool :=
  match d with
  | .clean => false
  | .failed => true
  | .corrected rank dev _ => s.mem.failedDev.any fun f => f.1 = c && f.2.1 = rank && f.2.2 ≠ dev

/-- What the channel does about an error that it corrects. -/
def State.dramMeets (s : State) (c : Nat) (d : Dram) : State :=
  match d with
  | .corrected rank dev row => s.ddrCe (c, rank, dev, row)
  | _ => s

/-- DDR_UE recorded on the channel page (R301, R304, R308). -/
def State.ddrUe (s : State) (a : Nat) : State :=
  let c := s.ddrChannel a
  let s := s.setFld .memChEcc 15 0 (satAdd 0xFFFF (s.fld .memChEcc 15 0 c) 1) c
  s.err (chanPage c) 0x3001 (s.chanAddr a / 64 % 2 ^ 32)

/-- An integrity failure of the line at a (R328): no further request is served, every tile stops, the
engines end their items without completions, porters discard, a save, a restore and a replay end, the
background engine stands, and the failure is recorded. From RUN, HALTING and RECOVER the run state becomes HALTED
with cause INTEGRITY; in IDLE and HALTED the device is halted already, and the request changes neither the run state
nor CAUSES (R453). -/
def State.integrityFail (s : State) (a cls slot queue : Nat) (rmw : Bool) : State :=
  let s :=
    if bit (s.rd .encFailInfo) 31 then s
    else
      (s.wr64 .encFailLo .encFailHi (BitVec.ofNat 64 (a / 64 * 64))).wr .encFailInfo
        (BitVec.ofNat 32 (2 ^ 31 + cls * 2 ^ 28 + slot * 2 ^ 22 + (s.region a).getD 0 * 2 ^ 17 +
          b2n rmw * 2 ^ 16 + queue * 2 ^ 12))
  let running (i : SvcItem) : Bool := match i.stage with | .running _ => true | _ => false
  let discard (p : Nat × List (Nat × Nat × Nat × Bool)) : Nat × List (Nat × Nat × Nat × Bool) :=
    (p.1, p.2.map fun d => (d.1, 1, 0, d.2.2.2))
  let s : State := { s with enc := { s.enc with integrityHalt := true } }
  let s : State := { s with svc := { s.svc with
    store := s.svc.store.filter fun i => !running i
    engines := [] } }
  let s : State := { s with host := { s.host with porter := s.host.porter.map discard, moving := [] } }
  let s : State := { s with mem := { s.mem with selfRefresh := List.range 8 } }
  let s : State := { s with prf := { s.prf with
    state := .idle, todo := [], restoring := none, awaiting := false, redo := false, sleepAfter := false } }
  let s := s.setFld .encStat 31 31 1
  let s := (s.err encPage 0x3104 0).cause encPage 1
  ((s.alert 1 true).stopTiles).immediateStop 11

/-! ## Reads and writes -/

/-- The engine and the channel of an address take new requests: EN of ENC page 0 and of the channel's page (R48),
and no self-test of the engine (R495). A request that they do not take ends as DDR_UE, as R493 has it for discarded
work (assumption 69). -/
def State.engineTakes (s : State) (a : Nat) : Bool :=
  s.pageEn (encPage) && s.pageEn (chanPage (s.ddrChannel a)) && !s.underTest 164

/-- The channel of an address wakes for a request that the engine takes; no other reaches it (R20). -/
def State.meetChannel (s : State) (a : Nat) : State :=
  if s.engineTakes a then s.touchChannel (s.ddrChannel a) else s

/-- One line read by a requester with a slot: refused, failed, or its 64 plaintext bytes. `ue` says what the
DRAM meets in the line; DESIGN CHOICE (assumption 91): its tag line meets no error. -/
def State.lineRead (s : State) (r : Requester) (slot a : Nat) (read write : Bool) (ue : Dram) :
    EncRes × State :=
  if s.enc.integrityHalt then (.integrity, s)
  else
    match s.encRefuse r slot a read write with
    | some (code, info) => (.refused code, s.err encPage code info)
    | none =>
      let s := s.meetChannel a
      let used := s.useSlot slot a
      if s.dramFails (s.ddrChannel a) ue || !s.engineTakes a then (.ue (s.ddrChannel a), s.ddrUe a)
      else
      let s := s.dramMeets (s.ddrChannel a) ue
      let s := if s.checked a then s.touchTag a else s
      if s.checked a && !s.tagGood a then
        (.integrity, s.integrityFail a r.cls used r.queue write)
      else (.ok (s.decrypt used a (s.rawLine a)), s)

/-- The bytes of a line with `d` put at offset o. -/
def splice (line : List Byte) (o : Nat) (d : List Byte) : List Byte :=
  line.take o ++ d ++ line.drop (o + d.length)

/-- Bytes within one line written by a requester (R314, R324): whole blocks are encrypted as they are;
a partial block, and anything less than the line under integrity, is a read-modify-write whose read is
checked. -/
def State.linePut (s : State) (r : Requester) (slot a : Nat) (d : List Byte) (ue : Dram) :
    EncRes × State :=
  if s.enc.integrityHalt then (.integrity, s)
  else
    match s.encRefuse r slot a false true with
    | some (code, info) => (.refused code, s.err encPage code info)
    | none =>
      let s := s.meetChannel a
      let used := s.useSlot slot a
      let base := a / 64 * 64
      let whole := d.length = 64
      let blocks := a % 16 = 0 ∧ d.length % 16 = 0
      let rmw := !decide whole && (s.integ a || !decide blocks)
      if (rmw && s.dramFails (s.ddrChannel a) ue) || !s.engineTakes a then (.ue (s.ddrChannel a), s.ddrUe a)
      else
      let s := if rmw then s.dramMeets (s.ddrChannel a) ue else s
      let s := if rmw && s.checked a then s.touchTag a else s
      if rmw && s.checked a && !s.tagGood a then
        (.integrity, s.integrityFail a r.cls used r.queue true)
      else
        let plain := splice (s.decrypt used base (s.rawLine base)) (a % 64) d
        let s := s.ddrPut base (s.encrypt used base plain)
        (.ok [], if s.integ base then s.writeTag base else s)

/-! ## Model ranges and the undo log (R481, R483, R484) -/

/-- The run becomes unprotected for a reason that did not stand: the error and the cause are recorded, and a save is
due at the next boundary (R476 item 3, R484). -/
def State.unprotect (s : State) (why : Nat) : State :=
  if why ∈ s.prf.unprot then s
  else
    (({ s with prf := { s.prf with unprot := why :: s.prf.unprot, saveDue := true } } : State).err prfPage 0x8003
      why).cause prfPage 4

/-- PRF_STAT.WHY while several reasons stand: 4, else 2, which no save ends, else the latest (assumption 34). -/
def State.whyUnprot (s : State) : Option Nat :=
  if 4 ∈ s.prf.unprot then some 4 else if 2 ∈ s.prf.unprot then some 2 else s.prf.unprot.head?

/-- Model base of symbol m as latched, and its SIZE. -/
def State.modelBase (s : State) (m : Nat) : Nat := (Table.get (fun _ => 0) s.ldr.mbase m).toNat
def State.modelLen (s : State) (m : Nat) : Nat := (Table.get (fun _ => 0) s.ldr.modelSize m).toNat

/-- Whether the bytes [a, a + n) touch a model range of the image in service. -/
def State.inModel (s : State) (a n : Nat) : Bool :=
  s.ldr.inService && s.ldr.modelSize.any fun e =>
    decide (a < s.modelBase e.1 + e.2.toNat) && decide (s.modelBase e.1 < a + n)

/-- PRF_BASE. -/
def State.prfBase (s : State) : Nat := (s.rd64 .prfBaseLo .prfBaseHi).toNat

/-- REQ_TILES of the image in service. -/
def State.reqTiles (s : State) : Nat := (s.ldr.image.map fun h => h.reqTiles).getD 0

/-- The offsets of the proof area (R477). -/
def kib (n : Nat) : Nat := n * 1024
def State.prfSlotAddr (s : State) (slot v : Nat) : Nat :=
  s.prfBase + kib (4368 + 1104 * slot) * s.reqTiles + kib 1104 * v
def State.prfCopyAddr (s : State) (v : Nat) : Nat := s.prfBase + kib 4368 * v
def State.undoBase (s : State) : Nat := s.prfBase + kib 6576 * s.reqTiles
def State.undoBytes (s : State) : Nat := s.fld .prfSize 31 16 * 2 ^ 20
def State.inputBase (s : State) : Nat := s.undoBase + s.undoBytes
def State.inputBytes (s : State) : Nat :=
  s.fld .prfSize 15 0 * 2 ^ 20 - (kib 6576 * s.reqTiles + s.undoBytes)

/-- The undo log records: a proof is held, and the log has not filled (R481, R483). -/
def State.undoOn (s : State) : Bool := s.prf.cur.isSome && !s.prf.undoFull

/-- A save is due at the next boundary once a log passes three quarters of its size (R476 item 3). -/
def State.logSave (s : State) : State :=
  if s.inputBytes / 32 * 3 < s.prf.input.length * 4 ∨ s.undoBytes / 128 * 3 < s.prf.undo.length * 4 then
    { s with prf := { s.prf with saveDue := true } }
  else s

/-- The requesters of the engine by queue (R310). -/
def reqService : Requester := ⟨clsService, 9⟩
def reqProof : Requester := ⟨clsProof, 12⟩

/-- The DDR address of undo entry k. -/
def State.undoAddr (s : State) (k : Nat) : Nat := s.undoBase + 128 * (k % (s.undoBytes / 128))

/-- An entry of the undo log written (R481): the old plaintext, the address, the batch, zeros. -/
def State.undoPut (s : State) (line : Nat) (old : List Byte) : State :=
  let pos := s.prf.undoNext
  let bytes := old ++ leBytes 8 line ++ leBytes 8 s.run.batch.toNat ++ List.replicate 48 0
  let a := s.undoAddr pos
  let w := s.linePut reqProof (s.qkey 12) a (bytes.take 64) .clean
  let w := w.2.linePut reqProof (s.qkey 12) (a + 64) (bytes.drop 64) .clean
  let s := w.2
  State.logSave { s with prf := { s.prf with
    undo := ⟨pos, s.run.batch⟩ :: s.prf.undo, undoNext := s.prf.undoNext + 1 } }

/-- Before a line of a model range is written by a requester other than PROOF, its old value goes to
the undo log, read through the rules of queue 9; a full log ends the record (R481, R483). -/
def State.undoBefore (s : State) (r : Requester) (slot a : Nat) : State :=
  let line := a / 64 * 64
  if r.cls = clsProof || !s.undoOn || !s.inModel line 64 || s.enc.integrityHalt ||
      (s.encRefuse r slot a false true).isSome then s
  else if s.undoBytes / 128 ≤ s.prf.undo.length then
    ({ s with prf := { s.prf with undoFull := true } }).unprotect 1
  else
    match s.lineRead reqService (s.qkey 9) line true false .clean with
    | (.ok old, s) => s.undoPut line old
    | (_, s) => s

/-- A write within one line, with its undo entry. -/
def State.lineWrite (s : State) (r : Requester) (slot a : Nat) (d : List Byte) (ue : Dram) :
    EncRes × State :=
  (s.undoBefore r slot a).linePut r slot a d ue

/-- The snoop that a write from outside the model cache sends: a clean copy of the line is invalid, a
dirty one stays (R234). -/
def State.snoop (s : State) (a : Nat) : State :=
  { s with svc := { s.svc with cache := s.svc.cache.filter fun c => c.line ≠ a / 64 || c.dirty } }

/-- The parts of [a, a + n) by line: start and length; `fuel` bounds the lines. -/
def lineParts : Nat → Nat → Nat → List (Nat × Nat)
  | 0, _, _ => []
  | fuel + 1, a, n =>
    if n = 0 then []
    else
      let k := min n (64 - a % 64)
      (a, k) :: lineParts fuel (a + k) (n - k)

/-- What a request of several lines answers, of what a line has met and what the lines after it have met: an integrity
failure, which halts the engine, else the first failure (assumption 92). -/
def EncRes.andThen (e f : EncRes) : EncRes :=
  match e, f with
  | .ok _, f => f
  | _, .integrity => .integrity
  | e, _ => e

/-- A read of n bytes from a: each line is decided by itself, those after a failed one too (R310). -/
def State.ddrReadParts (s : State) (r : Requester) (slot : Nat) (ue : Dram) :
    List (Nat × Nat) → List Byte → EncRes × State
  | [], acc => (.ok acc, s)
  | (a, k) :: rest, acc =>
    match s.lineRead r slot a true false ue with
    | (.ok d, s) => State.ddrReadParts s r slot .clean rest (acc ++ (d.drop (a % 64)).take k)
    | (e, s) =>
      let q := State.ddrReadParts s r slot .clean rest acc
      (e.andThen q.1, q.2)

def State.ddrRead (s : State) (r : Requester) (slot a n : Nat) (ue : Dram := .clean) : EncRes × State :=
  s.ddrReadParts r slot ue (lineParts (n / 64 + 2) a n) []

/-- A host write to a model range ends the protection of the run (R484). -/
def State.hostTouches (s : State) (a n : Nat) : State :=
  if s.prf.cur.isSome && s.inModel a n then s.unprotect 0 else s

/-- A write of bytes from a, line by line: each line is decided by itself, so the lines after a failed one are written
too (R310). Each line that BAR2, on queue 0, stores in a model range ends protection. -/
def State.ddrWriteParts (s : State) (r : Requester) (slot : Nat) (ue : Dram) (d : List Byte) :
    List (Nat × Nat) → EncRes × State
  | [] => (.ok [], s)
  | (a, k) :: rest =>
    match (s.snoop a).lineWrite r slot a (d.take k) ue with
    | (.ok _, s) =>
      State.ddrWriteParts (if r.queue = 0 then s.hostTouches a k else s) r slot .clean (d.drop k) rest
    | (e, s) =>
      let q := State.ddrWriteParts s r slot .clean (d.drop k) rest
      (e.andThen q.1, q.2)

def State.ddrWrite (s : State) (r : Requester) (slot a : Nat) (d : List Byte) (ue : Dram := .clean) :
    EncRes × State :=
  s.ddrWriteParts r slot ue d (lineParts (d.length / 64 + 2) a d.length)

/-- Whether an outcome is a success. -/
def EncRes.isOk : EncRes → Bool
  | .ok _ => true
  | _ => false

/-! ## The key store cleared (R318) -/

/-- Every register and field that the key store holds set to its reset value; KEY_CLEARED recorded
after the clear when it is not a cold reset. -/
def State.clearKeys (s : State) (record : Bool) : State :=
  let s := { s with
    regs := s.regs.filter fun e =>
      !((0x48080 ≤ e.1 && decide (e.1 < 0x480C0)) || (0x49100 ≤ e.1 && decide (e.1 < 0x49200)) ||
        (0x4A040 ≤ e.1 && decide (e.1 < 0x4B000)) || (0x4B040 ≤ e.1 && decide (e.1 < 0x4C000)))
    enc := { Crypt.reset with integrityHalt := s.enc.integrityHalt, keyData := s.enc.keyData } }
  let s := (s.setFld .encCarve 31 31 1).setCap
  let s := s.setFld .encStat 30 30 0
  if record then (s.setFld .encStat 29 29 1).err encPage 0x3109 0 else s

/-! ## Key commands (R316, R317) -/

/-- SLOT of ENC_KEY_CMD. -/
def keySlotOf (val : Word) : Nat := bits val 5 0

/-- ENC_KEY_DATA zeroed, as after every write of ENC_KEY_CMD. -/
def State.zeroKeyData (s : State) : State := { s with enc := { s.enc with keyData := 0 } }

/-- ENC_BUSY with the page and offset of the dropped write. -/
def State.encBusy (s : State) (page off : Nat) : State := s.err encPage 0x3105 (page * 2 ^ 12 + off)

/-- Whether a slot command is dropped (R317). -/
def State.keyBusy (s : State) (n : Nat) : Bool :=
  s.slotLocked n || (n = 0 && ((List.range 32).any (fun r => rgnInteg (s.rd .encRgnCtrl r)) ||
    s.enc.bg = .seal))

/-- LOAD of slot n from ENC_KEY_DATA. -/
def State.loadKey (s : State) (n : Nat) : State :=
  let k1 : BitVec 256 := s.enc.keyData.setWidth 256
  let k2 : BitVec 256 := s.enc.keyData.extractLsb' 256 256
  if n = 0 then
    ({ s with enc := { s.enc with kt := some k1 } }).setFld .encStat 30 30 1
  else if k1 = k2 then s.err encPage 0x3106 n
  else { s with enc := { s.enc with slots := Table.set (fun _ => none) s.enc.slots n (some ⟨k1, k2⟩) } }

/-- INVALIDATE of slot n. -/
def State.dropKey (s : State) (n : Nat) : State :=
  if n = 0 then ({ s with enc := { s.enc with kt := none } }).setFld .encStat 30 30 0
  else { s with enc := { s.enc with slots := Table.set (fun _ => none) s.enc.slots n none } }

/-- A slot command carried out, or dropped with ENC_BUSY; the data is zeroed either way. -/
def State.keyCmd (s : State) (val : Word) (f : State → Nat → State) : State :=
  let n := keySlotOf val
  (if s.keyBusy n then s.encBusy 1 0x080 else f s n).zeroKeyData

/-- ENC_KEY_CMD with OP 1. -/
def execEncKeyLoad (val : Word) (s : State) : Out := onWrite (encPage + 0x1000) s (
    whenDue (bits val 9 8 = 1) s (s.keyCmd val State.loadKey))

/-- ENC_KEY_CMD with OP 2. -/
def execEncKeyInvalidate (val : Word) (s : State) : Out := onWrite (encPage + 0x1000) s (
    whenDue (bits val 9 8 = 2) s (s.keyCmd val State.dropKey))

/-- ENC_KEY_CMD with OP 0 or 3. -/
def execEncKeyNoOp (val : Word) (s : State) : Out := onWrite (encPage + 0x1000) s (
    whenDue (bits val 9 8 = 0 || bits val 9 8 = 3) s s.zeroKeyData)

/-- ENC_KEY_DATA word i written. -/
def State.putKeyData (s : State) (i : Nat) (v : Word) : State :=
  let m : BitVec 512 := BitVec.ofNat 512 (0xFFFFFFFF * 2 ^ (32 * i))
  { s with enc := { s.enc with
      keyData := (s.enc.keyData &&& ~~~m) ||| BitVec.ofNat 512 (v.toNat * 2 ^ (32 * i)) } }

/-! ## Region control (R321, R326) -/

/-- ENC_REGION_BAD for region r. -/
def State.regionBad (s : State) (r : Nat) : State := s.err encPage 0x3107 r

/-- A seal of region r started, from its first line to its last. A region whose LIMIT lies below its BASE, or that
reaches past the usable capacity, is possible while EN is 0, and the spec does not say what its seal covers: the
model's seal goes over the line at BASE at least, and over every line up to LIMIT (assumption 74). -/
def State.startSeal (s : State) (r : Nat) : State :=
  { s with enc := { s.enc with
      bg := .seal, bgRegion := r
      bound := BitVec.ofNat 64 (s.fld .encRgnBase 21 0 r * 2 ^ 20)
      bgEnd := BitVec.ofNat 64 ((s.fld .encRgnLimit 21 0 r + 1) * 2 ^ 20) } }

/-- A write of ENC_RGN_CTRL[r] (R321). The end of a running seal sets BG_DONE, as the end of every seal does
(R341). -/
def State.writeRgnCtrl (s : State) (r : Nat) (val : Word) : State :=
  let old := s.rd .encRgnCtrl r
  let base := s.fld .encRgnBase 21 0 r
  let limit := s.fld .encRgnLimit 21 0 r
  let rising := rgnInteg val && !rgnInteg old
  if rgnEn val && !rgnEn old && (decide (limit < base) || decide (s.ddrCap ≤ limit * 2 ^ 20)) then
    s.regionBad r
  else if rising && (!bit (s.rd .encCarve) 31 || s.enc.kt.isNone) then s.regionBad r
  else if rising && s.enc.bg ≠ .idle then s.encBusy 2 (0x048 + 16 * r)
  else
    let keep := if rgnInteg val then old &&& 0x20000000 else 0
    let s := s.wr .encRgnCtrl ((val &&& 0xC000FFFF) ||| (if rising then 0 else keep)) r
    if rising then s.startSeal r
    else if !rgnInteg val && rgnInteg old && s.enc.bg = .seal && s.enc.bgRegion = r then
      ({ s with enc := { s.enc with bg := .idle } } : State).cause (encPage + 0x3000) 1
    else s

/-- ENC_RGN_CTRL_WRITE. -/
def execEncRgnCtrlWrite (r : Nat) (val : Word) (s : State) : Out :=
  guardUnit (r < 32) (onWrite (encPage + 0x2000) s (
    .next (s.writeRgnCtrl r val)))

/-- A write of ENC_RGN_BASE or ENC_RGN_LIMIT: dropped with ENC_BUSY while EN is 1. -/
def State.writeRgnBound (s : State) (reg : Reg) (off r : Nat) (val : Word) : State :=
  if rgnEn (s.rd .encRgnCtrl r) then s.encBusy 2 (off + 16 * r) else s.wr reg (val &&& 0x3FFFFF) r

/-- A write of ENC_CARVE (R322). -/
def State.writeCarve (s : State) (val : Word) : State :=
  if bit val 31 = bit (s.rd .encCarve) 31 then s
  else if (List.range 32).any (fun r => rgnInteg (s.rd .encRgnCtrl r)) || s.ldr.inService ||
      s.enc.bg ≠ .idle then s.encBusy 0 0x044
  else (s.setFld .encCarve 31 31 (b2n (bit val 31))).setCap

/-- ENC_CARVE_WRITE. -/
def execEncCarveWrite (val : Word) (s : State) : Out := onWrite encPage s (
    .next (s.writeCarve val))

/-! ## The background engine (R326, R329 to R334) -/

/-- ENC_BG_CMD.START (R329). -/
def State.bgStart (s : State) : State :=
  let first := s.fld .encBgFirst 21 0
  let last := s.fld .encBgLast 21 0
  let old := s.fld .encBgSlots 5 0
  let new := s.fld .encBgSlots 13 8
  if s.enc.bg ≠ .idle || old = new || !s.slotValid old || !s.slotValid new || decide (last < first) ||
      decide (s.ddrCap < (last + 1) * 2 ^ 20) then s.encBusy 3 0x04C
  else
    { s with enc := { s.enc with
        bg := .rekey, bgOld := old, bgNew := new
        bgFirst := BitVec.ofNat 64 (first * 2 ^ 20)
        bgEnd := BitVec.ofNat 64 ((last + 1) * 2 ^ 20)
        bound := BitVec.ofNat 64 (first * 2 ^ 20) } }

/-- ENC_BG_START: a write of ENC_BG_CMD with START. -/
def execEncBgStart (val : Word) (s : State) : Out := onWrite (encPage + 0x3000) s (
    whenDue (bit val 0) s s.bgStart)

/-- ENC_BG_CMD.RELEASE (R332): ignored unless STATE is DONE. -/
def State.bgRelease (s : State) : State :=
  if s.enc.bg = .done then { s with enc := { s.enc with bg := .idle } } else s

/-- ENC_BG_RELEASE: a write of ENC_BG_CMD with RELEASE. -/
def execEncBgRelease (val : Word) (s : State) : Out := onWrite (encPage + 0x3000) s (
    whenDue (bit val 1) s s.bgRelease)

/-- The background engine is paused (R333): page 3 is disabled, or the device is halted and honours
HALT_FREEZE, or the engine is halted. -/
def State.bgPaused (s : State) : Bool :=
  !s.pageEn (encPage + 0x3000) || (s.isHalted && bit (s.reg (encPage + 0x3004)) 2) ||
    s.enc.integrityHalt || s.underTest 164

/-- The boundary advanced past one line; at the last line the job ends (R326, R332). -/
def State.bgAdvance (s : State) : State :=
  let next := s.enc.bound.toNat + 64
  let s := { s with enc := { s.enc with bound := BitVec.ofNat 64 next } }
  if s.enc.bgEnd.toNat ≤ next then
    let s :=
      if s.enc.bg = .seal then
        ({ s with enc := { s.enc with bg := .idle } }).setFld .encRgnCtrl 29 29 1 s.enc.bgRegion
      else { s with enc := { s.enc with bg := .done } }
    s.cause (encPage + 0x3000) 1
  else s

/-- One line of a seal or key change at the boundary (R326, R331). An uncorrected error is DDR_UE of the channel as well
as BG_UE (R301, R324). The CLASS that ENC_FAIL_INFO holds for
the background engine, which has none, is open (assumption 1). -/
def State.bgLine (s : State) (ue : Dram) : State :=
  let a := s.enc.bound.toNat
  let on := s.pageEn (chanPage (s.ddrChannel a))
  let s := if on then s.touchChannel (s.ddrChannel a) else s
  if s.dramFails (s.ddrChannel a) ue || !on then
    ((s.ddrUe a).err (encPage + 0x3000) 0x3108 (a / 64 % 2 ^ 32)).bgAdvance
  else
  let s := s.dramMeets (s.ddrChannel a) ue
  if s.enc.bg = .seal then (s.writeTag a).bgAdvance
  else
  let s := if s.checked a then s.touchTag a else s
  if s.checked a && !s.tagGood a then
    let f := s.free
    f.2.integrityFail a (bits f.1 2 0) s.enc.bgOld 15 false
  else
    let plain := s.decrypt s.enc.bgOld a (s.rawLine a)
    let s := s.ddrPut a (s.encrypt s.enc.bgNew a plain)
    (if s.integ a then s.writeTag a else s).bgAdvance

/-- BG_LINE. -/
def execBgLine (ue : Dram) (s : State) : Out :=
  whenDue ((s.enc.bg = .seal || s.enc.bg = .rekey) && !s.bgPaused) s (s.bgLine ue)

end Sys2Proof.Machine
end

