-- ==== Sys2Proof/Machine/Log.lean ====
section
/-! DEFINITION. The input log of proofs (R482, R483), as records of State and as bytes in the proof
area. -/

namespace Sys2Proof.Machine

/-- KIND as a number (R115). -/
def PktKind.code : PktKind → Nat
  | .invalid => 0 | .mailbox => 1 | .flag => 2 | .queue => 3

/-- The 32 bytes of a record (R482). -/
def LogRec.bytes : LogRec → List Byte
  | .batch n din => leBytes 8 1 ++ leBytes 8 n.toNat ++ leBytes 16 din.toNat
  | .xin vt tmpl chan word n =>
    leBytes 8 (2 + vt * 2 ^ 8 + tmpl * 2 ^ 16 + chan * 2 ^ 24) ++ leBytes 8 word.toNat ++
      leBytes 16 n.toNat
  | .arrive step p =>
    leBytes 8 (3 + p.dstVt * 2 ^ 8 + step * 2 ^ 16 + p.kind.code * 2 ^ 32 + p.index * 2 ^ 40 +
      p.flag * 2 ^ 48) ++ leBytes 8 p.data.toNat ++ leBytes 8 (p.srcDev.toNat + p.srcVt * 2 ^ 8) ++
      leBytes 8 p.tag.toNat
  | .sent vt entry tag => leBytes 24 (4 + vt * 2 ^ 8 + entry * 2 ^ 16) ++ leBytes 8 tag.toNat
  | .window vt space off data n =>
    leBytes 8 (5 + vt * 2 ^ 8 + space * 2 ^ 16 + off * 2 ^ 32) ++ leBytes 16 data.toNat ++
      leBytes 8 n.toNat

/-- The input log records: a proof is held, and the log has not filled (R482, R483). -/
def State.inputOn (s : State) : Bool := s.prf.cur.isSome && !s.prf.inputFull

/-- A record appended to the input log, in State and in the proof area; a full log ends the record and
the protection (R482, R483). -/
def State.logInput (s : State) (r : LogRec) : State :=
  if !s.inputOn then s
  else if s.inputBytes / 32 ≤ s.prf.input.length then
    ({ s with prf := { s.prf with inputFull := true } }).unprotect 1
  else
    let w := s.ddrWrite reqProof (s.qkey 12) (s.inputBase + 32 * s.prf.input.length) r.bytes
    let s := w.2
    State.logSave { s with prf := { s.prf with input := s.prf.input ++ [r] } }

end Sys2Proof.Machine
end

