-- ==== Sys2Proof/Machine/Sync.lean ====
section
/-! DEFINITION. Exchange: packets, destination table, network interfaces, racks, and the application
of arrivals (R115 to R139). -/

namespace Sys2Proof.Machine

/-! ## Applying a packet (R119, R120, R125, R126) -/

/-- The data part of a packet: mailbox data and valid bit, or a queue entry. -/
def Tile.takeData (x : Tile) (p : Packet) : Tile × Bool :=
  match p.kind with
  | .mailbox => (x.writeSlot p.index p.data, false)
  | .queue =>
    match x.enqueue p.index p.data with
    | some y => (y, false)
    | none => (x, true)
  | _ => (x, false)

/-- A packet applied to a tile in one piece: data first, then the flag increment. The two truth values
say whether the queue overran and whether the increment was lost. -/
def Tile.take (x : Tile) (p : Packet) : Tile × Bool × Bool :=
  let d := x.takeData p
  let f := d.1.incFlag p.flag
  (f.1, d.2, f.2)

/-- PG_ERR_INFO bits that name a packet's source. -/
def srcInfo (p : Packet) : Nat := p.srcDev.toNat * 2 ^ 24 + p.srcVt * 2 ^ 17

/-- A tile while the set-reset is asserted: its valid bits are held clear (R91), and a slot that a packet writes
becomes valid when the set-reset is released (R141; assumption 70). -/
def Tile.holdValid (x : Tile) : Tile := { x with mbxValid := 0, mbxHeld := x.mbxHeld ||| x.mbxValid }

/-- The valid bits of a tile at the release of the set-reset. -/
def Tile.freeValid (x : Tile) : Tile := { x with mbxValid := x.mbxValid ||| x.mbxHeld, mbxHeld := 0 }

/-- A packet applied to physical tile t, with QUEUE_OVERRUN and FLAG_OVERFLOW (R142). While the set-reset is asserted
the valid bits are held clear (R91; assumption 70). -/
def State.applyPacket (s : State) (t : Nat) (p : Packet) : State :=
  let r := (s.tile t).take p
  let s := s.setTile t (if s.ldr.setReset then r.1.holdValid else r.1)
  let s := if r.2.1 then (s.tileErr t 3 0x1012 (srcInfo p + p.index * 2 ^ 11)).haltRequest 8 else s
  if r.2.2 then (s.tileErr t 1 0x1011 (srcInfo p + p.flag * 2 ^ 7)).haltRequest 8 else s

/-! ## Destination table entries (R115) -/

def destDevice (e : DWord) : Byte := e.extractLsb' 24 8
def destVtile (e : DWord) : Nat := bits e 23 17
def destFlag (e : DWord) : Nat := bits e 16 7
def destIndex (e : DWord) : Nat := bits e 6 1
def destKind (e : DWord) : Nat := bits e 63 62

/-- KIND as a packet carries it. -/
def kindOf : Nat → PktKind
  | 1 => .mailbox
  | 2 => .flag
  | 3 => .queue
  | _ => .invalid

/-- DEST_INVALID at physical tile t: step, entry or virtual tile field, reason (R142). -/
def State.destInvalid (s : State) (t step where_ reason : Nat) : State :=
  (s.tileErr t 1 0x1014 (step * 2 ^ 22 + where_ + reason * 2 ^ 12)).haltRequest 8

/-- One packet injected into the network (R248). -/
def Tile.countPkt (x : Tile) : Tile := { x with energy := { x.energy with pkts := x.energy.pkts + 1 } }

/-! ## Route table (R347, R349) -/

/-- Entry d of the route table: VALID, COUNT, HALF, hops. -/
def State.route (s : State) (d : Byte) : Option (Nat × BitVec 12 × BitVec 36) :=
  let lo := s.rd .nocRtLo d.toNat
  let hi := s.rd .nocRtHi d.toNat
  if bit hi 31 then
    some (bits hi 27 24, hi.extractLsb' 12 12, hi.extractLsb' 0 12 ++ lo.extractLsb' 0 24)
  else none

/-! ## The source network interface (R137, R138) -/

/-- The highest exchange batch that entry e's destination has reported. -/
def Tile.knownBatch (x : Tile) (first : DWord) (e : Nat) : Nat :=
  (Table.get (fun _ => first) x.known e).toNat

/-- A packet leaves the interface by its route, or is removed with DEST_INVALID reason 1 when the
route entry is not VALID (R349). It stands at place `i` of the tile's places; it counts as injected
when it is sent for the first time (R248). -/
def State.sendPlace (s : State) (t i : Nat) (alone : Bool) : State :=
  let x := s.tile t
  match x.retry[i]? with
  | none => s
  | some r =>
    match s.route r.pkt.dstDev with
    | none =>
      (s.setTile t { x with retry := x.retry.eraseIdx i }).destInvalid t r.pkt.step
        (r.pkt.entry * 2 ^ 14) 1
    | some (count, half, hops) =>
      let p := { r.pkt with count := count, half := half, hop := hops, next := 1, rcount := 0, ret := 0 }
      let x := { x with retry := x.retry.set i { pkt := r.pkt, stage := .awaiting alone } }
      let s := s.setTile t (if r.stage = .held then x.countPkt else x)
      { s with net := { s.net with quad := s.net.quad ++ [⟨none, p⟩] } }

/-- The next held packet that the rules of R137 let go, with whether it is sent alone: item 1 for KIND
1 and 2 whose tag is at most known + 1 with no refused packet waiting, else item 2. Packets of one
entry leave in issue order. -/
def nextSend (known : Nat → Nat) (all : List RetryEntry) : Nat → List RetryEntry → Option (Nat × Bool)
  | _, [] => none
  | i, r :: rest =>
    match r.stage with
    | .held =>
      let mine := all.filter fun q => q.pkt.entry = r.pkt.entry
      let refused := mine.any fun q => match q.stage with | .refused _ => true | _ => false
      let awaiting := mine.any fun q => match q.stage with | .awaiting _ => true | _ => false
      let alone := mine.any fun q => match q.stage with | .awaiting b => b | _ => false
      let earlier := (all.take i).any fun q => q.pkt.entry = r.pkt.entry && q.stage = .held
      if refused || alone || earlier then nextSend known all (i + 1) rest
      else if r.pkt.kind ≠ .queue ∧ r.pkt.tag.toNat ≤ known r.pkt.entry + 1 then some (i, false)
      else if awaiting then nextSend known all (i + 1) rest
      else some (i, true)
    | _ => nextSend known all (i + 1) rest

/-- Held packets sent as far as R137 allows; `fuel` bounds their number. -/
def State.pump (t : Nat) : Nat → State → State
  | 0, s => s
  | n + 1, s =>
    let x := s.tile t
    match nextSend (x.knownBatch s.ldr.imageFirst) x.retry 0 x.retry with
    | none => s
    | some (i, alone) => State.pump t n (s.sendPlace t i alone)

/-- A packet issued by physical tile t (R123): to the device itself it joins the local exchange, to
another device it takes a place of the interface, unless a replay finds it logged as SENT (R487). -/
def State.issuePacket (s : State) (t : Nat) (p : Packet) : State :=
  if p.dstDev = s.devId then
    let s := s.modTile t Tile.countPkt
    { s with net := { s.net with loc := s.net.loc ++ [p] } }
  else if LogRec.sent p.srcVt p.entry p.tag ∈ s.prf.replay then
    { s with prf := { s.prf with replay := s.prf.replay.erase (.sent p.srcVt p.entry p.tag) } }
  else
    State.pump t 33 (s.modTile t fun x => { x with retry := x.retry ++ [⟨p, .held⟩] })

/-- A packet of physical tile t in its current step. -/
def State.mkPacket (s : State) (t : Nat) (dev : Byte) (vt flag index entry : Nat) (kind : PktKind)
    (data : DWord) : Packet where
  dstDev := dev
  srcDev := s.devId
  count := 0
  next := 0
  half := 0
  hop := 0
  rcount := 0
  ret := 0
  tag := s.run.batch
  dstVt := vt
  srcVt := (s.tile t).vtile.getD 0
  kind := kind
  index := index
  flag := flag
  entry := entry
  data := data
  step := (s.tile t).step

/-! ## The actions of control words (R112) -/

/-- SIGNAL: a packet of KIND 2 to a virtual tile of this device; DEST_INVALID reason 3 when the device
does not serve it (R123, R142). -/
def State.signalOp (s : State) (t vt flag : Nat) : State :=
  match s.ptile vt with
  | none => s.destInvalid t (s.tile t).step (vt * 2 ^ 15) 3
  | some _ => s.issuePacket t (s.mkPacket t s.devId vt flag 0 256 .flag 0)

/-- SEND or ENQ: the data is read whatever the entry (R113); an unfit KIND, or a local virtual tile that
is not served, sends nothing and is DEST_INVALID reason 0 (R116, R181). The errors of the data read are recorded
with the step's. -/
def State.sendOp (s : State) (t entry src wu reg : Nat) (enq : Bool) : State :=
  let x := s.tile t
  let d := x.source src wu reg
  let e := x.destEntry entry
  let kindFits := if enq then destKind e = 3 else destKind e = 1 ∨ destKind e = 2
  let fit := kindFits ∧ (destDevice e ≠ s.devId ∨ (s.ptile (destVtile e)).isSome)
  if fit then
    s.issuePacket t (s.mkPacket t (destDevice e) (destVtile e) (destFlag e) (destIndex e) entry
      (kindOf (destKind e)) (if destKind e = 2 then 0 else d.1))
  else s.destInvalid t x.step (entry * 2 ^ 14) 0

/-- DEQ: the head entry moves into the slot; an empty queue gives 0 and QUEUE_UNDERRUN (R127). -/
def State.deqOp (s : State) (t q slot : Nat) : State :=
  let x := s.tile t
  match x.dequeue q with
  | some (d, y) => s.setTile t (y.writeSlot slot d)
  | none =>
    ((s.setTile t ((x.advanceHead q).writeSlot slot 0)).tileErr t 3 0x1013
      (x.step * 2 ^ 22 + q * 2 ^ 16 + slot * 2 ^ 10)).haltRequest 8

/-- Entries of the shared ordinary pool in a list of entries (R222). -/
def ordinary (l : List SvcItem) : Nat :=
  (l.filter fun i => match i.source with | .tile _ => true | .porter _ => true | _ => false).length

/-- Entries of the shared ordinary pool occupied (R241). -/
def State.poolUsed (s : State) : Nat := ordinary s.svc.store

/-- MATCH of a template (R216). -/
def tmplMatch (q : QWord) : Nat := bits q 27 16

/-- Whether token slot k of a store entry holds a token. -/
def SvcItem.hasTok (i : SvcItem) (k : Nat) : Bool :=
  match k with
  | 0 => i.t0.isSome
  | 1 => i.t1.isSome
  | 2 => i.t2.isSome
  | _ => i.t3.isSome

/-- Whether a store entry came from a tile. -/
def SvcItem.fromTile (i : SvcItem) : Bool :=
  match i.source with
  | .tile _ => true
  | _ => false

/-- Whether an entry takes a token of the key in slot k (R219 item 1). -/
def SvcItem.takes (i : SvcItem) (m : Nat) (batch : DWord) (k : Nat) : Bool :=
  i.fromTile && i.matchId = m && i.batch = batch && !i.hasTok k

/-- A plain item of a source, not yet in the store. -/
def blankItem (src : SvcSource) (type : Byte) (w0 w1 : DWord) : SvcItem where
  id := 0
  source := src
  type := type
  matchId := 0
  batch := 0
  w0 := w0
  w1 := w1
  hasLead := true
  tmplNo := 0
  vtile := 0
  t0 := none
  t1 := none
  t2 := none
  t3 := none
  tokVt := []
  tag := 0
  stage := .collecting
  heldNs := 0
  forced := false
  result := 0
  status := 0

/-- Token k of an entry, sent by virtual tile v. -/
def SvcItem.setTok (i : SvcItem) (k v : Nat) (d : DWord) : SvcItem :=
  let i := { i with tokVt := Table.set (fun _ => 0) i.tokVt k v }
  match k with
  | 0 => { i with t0 := some d }
  | 1 => { i with t1 := some d }
  | 2 => { i with t2 := some d }
  | _ => { i with t3 := some d }

/-- The place of the entry that a token of a key joins: the oldest one that takes it (R219 item 1). -/
def joins (l : List SvcItem) (tk : Token) : Option Nat :=
  l.findIdx? fun i => i.takes (tmplMatch tk.tmpl) tk.batch tk.token

/-- The store with a token that is on its way at its entry. -/
def placeToken (l : List SvcItem) (tk : Token) : List SvcItem :=
  match joins l tk with
  | some k => l.modify k fun i => i.setTok tk.token tk.vtile tk.data
  | none =>
    l ++ [{ blankItem (.tile tk.vtile) (tk.tmpl.setWidth 8) 0 0 with
      matchId := tmplMatch tk.tmpl, batch := tk.batch }.setTok tk.token tk.vtile tk.data]

/-- Whether the dispatcher accepts a token at once (R223): it joins an entry, or the ordinary pool has
a free entry, the tokens on their way counted where they will be. -/
def State.svcAccepts (s : State) (t tmpl token : Nat) : Bool :=
  let l := s.svc.tokens.foldl placeToken s.svc.store
  s.pageEn svcPage &&
    (l.any (fun i => i.takes (tmplMatch ((s.tile t).template tmpl)) (s.tile t).xbatch token) ||
      decide (ordinary l < 3520))

/-- SVC: the token goes to the dispatcher (R128, R219). -/
def State.svcOp (s : State) (t tmpl src wu reg token : Nat) : State :=
  let x := s.tile t
  let d := x.source src wu reg
  let s := s.modTile t Tile.countPkt
  { s with svc := { s.svc with tokens := s.svc.tokens ++
      [⟨d.1, x.xbatch, x.vtile.getD 0, token, tmpl, x.template tmpl, x.leads tmpl⟩] } }

/-- MARK: the marker goes to the trace buffer while ACQ_CTRL.MARKS is 1, at most 64 for a batch and
2,048 in the history (R129, R422). A tile without probes takes no part (R419); a step that is executed again in
a recovery gives its mark once (R435). -/
def State.markOp (s : State) (t : Nat) (v : Half) : State :=
  let x := s.tile t
  let b := s.run.batch
  let marks := x.marks.filter fun m => !(m.batch = b && m.step = x.step)
  if !bit (s.rd .acqCtrl) 27 || x.probes = 0 then s
  else if (marks.filter fun m => m.batch = b).length < 64 ∧ marks.length < 2048 then
    s.setTile t { x with marks := marks ++ [⟨b, x.step, v⟩] }
  else
    (s.wr .tilPrbMarks (BitVec.ofNat 32 (satAdd 0xFFFFFFFF (s.rd .tilPrbMarks t).toNat 1)) t).err acqPage
      0x5105 (x.vtile.getD 0 * 2 ^ 24 + x.step)

/-! ## Holds (R118, R121, R138) -/

/-- A hold entered, or kept with its time when the tile already holds for the same reason. -/
def Tile.holdFor (x : Tile) (k : HoldKind) (flag count : Nat) : Tile :=
  match x.hold with
  | some h => if h.kind = k then x else { x with hold := some ⟨k, flag, count, 0⟩ }
  | none => { x with hold := some ⟨k, flag, count, 0⟩ }

/-- The places of a network interface are full (R138). -/
def Tile.placesFull (x : Tile) : Bool := decide (32 ≤ x.retry.length)

/-! ## Arrivals from other devices (R135, R136) -/

/-- The OUTCOME for a remote packet at a tile, by the table of R135; `none` in the second place means
not kept, otherwise applied at once (false) or held in the rack (true). -/
def Tile.place (x : Tile) (p : Packet) : AnsOutcome × Option Bool :=
  let t := p.tag.toNat
  let b := x.xbatch.toNat
  let busy := x.phase = .batchEnd || x.power = .sleep
  let room := decide (x.rack.length < 64) && !(x.power = .sleep)
  if t < b then (.stale, none)
  else if t = b ∧ !busy then (.accepted, some false)
  else if t ≤ b + 1 then (if room then (.accepted, some true) else (.refused, none))
  else (.refused, none)

/-- The answer to a remote packet (R350, R370). -/
def answerTo (p : Packet) (dev : Byte) (o : AnsOutcome) (x : DWord) : Answer where
  dstDev := p.srcDev
  srcDev := dev
  rcount := p.rcount
  ret := p.ret
  xbatch := x
  srcVt := p.srcVt
  dstVt := p.dstVt
  outcome := o
  entry := p.entry
  tag := p.tag.setWidth 16

/-- An answer handed to the quadrant, to travel back by the return list. -/
def State.sendAnswer (s : State) (a : Answer) : State :=
  { s with net := { s.net with quadAns := s.net.quadAns ++ [⟨none, a⟩] } }

/-- The step under which an applied packet is logged (R482): the step whose control word the tile has
not evaluated, 1,024 for a resting tile. -/
def Tile.logStep (x : Tile) : Nat :=
  match x.phase with
  | .exec => x.step
  | .resting => 1024
  | _ => 0

/-- A remote packet at the tile that serves its virtual tile (R135), or UNSERVED. During a recovery
pause every packet is refused with the exchange batch (R137, R486). A packet for the batch that an idle tile
starts next is applied also while the set-reset is asserted; its slot becomes valid at the release (R91, assumption
70). -/
def State.arriveRemote (s : State) (p : Packet) : State :=
  match s.ptile p.dstVt with
  | none => s.sendAnswer (answerTo p s.devId .unserved 0)
  | some t =>
    let x := s.tile t
    if s.run.state = .recover then s.sendAnswer (answerTo p s.devId .refused x.xbatch)
    else
      let r := x.place p
      let s := s.sendAnswer (answerTo p s.devId r.1 x.xbatch)
      match r with
      | (.stale, _) =>
        (s.tileErr t 1 0x1015 (srcInfo p + (x.xbatch.toNat - p.tag.toNat) % 2 ^ 16)).haltRequest 8
      | (_, some false) => (s.applyPacket t p).logInput (.arrive x.logStep p)
      | (_, some true) => s.setTile t { x with rack := x.rack ++ [p] }
      | (_, none) => s

/-- The place whose packet an answer is for: the first awaiting one of the entry with that tag. -/
def Tile.answered (x : Tile) (a : Answer) : Option Nat :=
  x.retry.findIdx? fun r =>
    r.pkt.entry = a.entry && r.pkt.tag.setWidth 16 = a.tag &&
    match r.stage with | .awaiting _ => true | _ => false

/-- An answer at its source interface (R137, R142, R351): the known batch grows; accepted and stale
packets leave, a refused one waits to be sent again, UNSERVED and UNREACHABLE are DEST_INVALID. DESIGN CHOICE
(assumption 83): a reserved OUTCOME, 5 to 7, acts as STALE does. -/
def State.takeAnswer (s : State) (t : Nat) (a : Answer) : State :=
  let x := s.tile t
  match x.answered a with
  | none => s
  | some i =>
    let p := (x.retry[i]?.map fun r => r.pkt)
    let e := a.entry
    let known := Table.set (fun _ => s.ldr.imageFirst) x.known e
      (if x.knownBatch s.ldr.imageFirst e < a.xbatch.toNat then a.xbatch
       else Table.get (fun _ => s.ldr.imageFirst) x.known e)
    let step := (p.map fun p => p.step).getD 0
    match a.outcome with
    | .refused =>
      let r := x.retry.modify i fun r => { r with stage := .refused 0 }
      State.pump t 33 (s.setTile t
        { x with retry := r, known := known, refused := satAdd 0xFFFF x.refused 1 })
    | .unserved =>
      State.pump t 33 ((s.setTile t { x with retry := x.retry.eraseIdx i }).destInvalid t step (e * 2 ^ 14) 2)
    | .unreachable =>
      State.pump t 33 ((s.setTile t { x with retry := x.retry.eraseIdx i }).destInvalid t step (e * 2 ^ 14) 1)
    | .accepted =>
      let s := s.setTile t { x with retry := x.retry.eraseIdx i, known := known }
      State.pump t 33 (s.logInput (.sent a.srcVt e (p.map Packet.tag |>.getD 0)))
    | _ => State.pump t 33 (s.setTile t { x with retry := x.retry.eraseIdx i, known := known })

end Sys2Proof.Machine
end

