-- ==== Sys2Proof/Machine/Service.lean ====
section
/-! DEFINITION. The service plane: items, matching, dispatch, the model cache, memory items,
transactor channels and host queues (R214 to R246, R310, R311). -/

namespace Sys2Proof.Machine

/-! ## The fields of an item (R216, R218) -/

def SvcItem.need (i : SvcItem) : Nat := bits i.w0 15 12
def SvcItem.op (i : SvcItem) : Nat := bits i.w0 62 59
def SvcItem.cslot (i : SvcItem) : Nat := bits i.w0 58 53
def SvcItem.cflag (i : SvcItem) : Nat := bits i.w0 52 43
def SvcItem.cvtile (i : SvcItem) : Nat := bits i.w0 42 36
def SvcItem.ckind (i : SvcItem) : Nat := bits i.w0 35 34
def SvcItem.scale (i : SvcItem) : Nat := bits i.w0 33 30
def SvcItem.bytes (i : SvcItem) : Nat := 2 ^ bits i.w0 29 28
def SvcItem.prio (i : SvcItem) : Nat := bits i.w0 10 8
def SvcItem.tok0 (i : SvcItem) : DWord := i.t0.getD 0
def SvcItem.tok1 (i : SvcItem) : DWord := i.t1.getD 0
def SvcItem.tok2 (i : SvcItem) : DWord := i.t2.getD 0

/-- V of an error: the virtual tile, or 0xFF for a source other than a tile (R240). -/
def SvcItem.v (i : SvcItem) : Nat := if i.fromTile then i.vtile else 0xFF

/-- PG_ERR_INFO bits [31:12]: V and MATCH. -/
def SvcItem.vm (i : SvcItem) : Nat := i.v * 2 ^ 24 + i.matchId % 4096 * 2 ^ 12

/-- Whether a host queue is the source. -/
def SvcItem.fromHost (i : SvcItem) : Bool :=
  match i.source with
  | .sup => true
  | .dbg => true
  | _ => false

/-- Whether the source is of the internal class (R222). -/
def SvcItem.internal (i : SvcItem) : Bool :=
  match i.source with
  | .mcache => true
  | .acq => true
  | .proofs => true
  | .memory => true
  | .crier => true
  | _ => false

/-- The level of an item (R226). -/
def SvcItem.level (i : SvcItem) : Nat :=
  match i.source with
  | .porter _ => 5
  | .mcache => 3
  | .acq => if i.type = 0x30 then 6 else 1
  | .proofs => if i.type = 0x41 then 7 else 4
  | .memory => 0
  | .crier => 6
  | _ => i.prio

/-- Whether an item is deferrable (R226). -/
def SvcItem.deferrable (i : SvcItem) : Bool :=
  match i.source with
  | .acq => i.type = 0x31
  | .proofs => i.type = 0x40
  | .memory => true
  | .sup => bit i.w0 11
  | .dbg => bit i.w0 11
  | _ => false

/-! ## The store -/

/-- The item with an id. -/
def State.item (s : State) (id : Nat) : Option SvcItem := s.svc.store.find? fun i => i.id = id

/-- An item replaced by its id. -/
def State.putItem (s : State) (i : SvcItem) : State :=
  { s with svc := { s.svc with store := s.svc.store.map fun j => if j.id = i.id then i else j } }

/-- An item complete: it enters its level after the items already there (R223, R225). -/
def State.enlist (s : State) (i : SvcItem) : State :=
  let s := s.putItem { i with stage := .ready }
  { s with svc := { s.svc with ready := s.svc.ready.filter (· ≠ i.id) ++ [i.id] } }

/-- The ready items of a level that hold its places, in order. -/
def State.listed (s : State) (l : Nat) : List SvcItem :=
  ((s.svc.ready.filterMap s.item).filter fun i => i.level = l).take 1024

/-- An item put into the store under a fresh id. -/
def State.addItem (s : State) (i : SvcItem) : SvcItem × State :=
  let i := { i with id := s.svc.nextId }
  (i, { s with svc := { s.svc with store := s.svc.store ++ [i], nextId := s.svc.nextId + 1 } })

/-- Entries of the internal class in use. -/
def State.internalUsed (s : State) : Nat := (s.svc.store.filter SvcItem.internal).length

/-- An internal item issued; false when the class has no free entry and the source waits (R222). -/
def State.issueInternal (s : State) (i : SvcItem) : Bool × State :=
  if s.internalUsed < 480 then
    let a := s.addItem i
    (true, a.2.enlist a.1)
  else (false, s)

/-- The first item that waits for an internal entry gets one, if one is free (R222). -/
def State.issueWaiting (s : State) : State :=
  match s.svc.waitItems with
  | [] => s
  | i :: rest =>
    match s.issueInternal i with
    | (true, s) => { s with svc := { s.svc with waitItems := rest } }
    | (false, s) => s

/-- An internal item of the model cache issued now, or after those that wait for an entry. -/
def State.issueCache (s : State) (i : SvcItem) : State :=
  ({ s with svc := { s.svc with waitItems := s.svc.waitItems ++ [i] } } : State).issueWaiting

/-- An item's entry freed, with its ready place and its place on a park list; an item that waits for an entry
takes its turn. -/
def State.dropItem (s : State) (id : Nat) : State :=
  ({ s with svc := { s.svc with
      store := s.svc.store.filter fun j => j.id ≠ id
      ready := s.svc.ready.filter (· ≠ id)
      parkOrder := s.svc.parkOrder.filter (· ≠ id) } } : State).issueWaiting

/-- Every entry for which `p` holds freed. -/
def State.dropItems (s : State) (p : SvcItem → Bool) : State :=
  (s.svc.store.filter p).foldl (fun s i => s.dropItem i.id) s

/-- Engines that run an item for which `f` holds free, and those entries gone. -/
def State.dropRunning (s : State) (f : SvcItem → Bool) : State :=
  let ids := (s.svc.store.filter f).map SvcItem.id
  let s := s.dropItems f
  { s with svc := { s.svc with engines := s.svc.engines.filter fun e =>
      match e.2 with
      | some id => !decide (id ∈ ids)
      | none => true } }

/-- An error of the dispatcher page. -/
def State.svcErr (s : State) (code info : Nat) : State := s.err svcPage code info

/-! ## Completions (R231, R232, R243, R244) -/

/-- The completion packet of a tile item. -/
def State.cplPacket (s : State) (i : SvcItem) : Packet where
  dstDev := s.devId
  srcDev := s.devId
  count := 0
  next := 0
  half := 0
  hop := 0
  rcount := 0
  ret := 0
  tag := i.batch
  dstVt := i.cvtile
  srcVt := i.vtile
  kind := if i.ckind = 1 then .mailbox else .flag
  index := i.cslot
  flag := i.cflag
  entry := 0
  data := i.result
  step := 0

/-- A completion sent: applied, racked or stale frees the entry; refused keeps it (R231). A completion
to a virtual tile that nothing serves applies nothing (assumption 8). -/
def State.sendCompletion (s : State) (i : SvcItem) : State :=
  let p := s.cplPacket i
  match s.ptile p.dstVt with
  | none => s.dropItem i.id
  | some t =>
    let x := s.tile t
    if s.run.state = .recover ∧ s.prf.state ≠ .replaying then s.putItem { i with stage := .kept 0 }
    else
      match x.place p with
      | (.stale, _) =>
        (((s.dropItem i.id).tileErr t 1 0x1015
          (srcInfo p + (x.xbatch.toNat - p.tag.toNat) % 2 ^ 16))).haltRequest 8
      | (_, some false) => (s.dropItem i.id).applyPacket t p
      | (_, some true) => (s.dropItem i.id).setTile t { x with rack := x.rack ++ [p] }
      | (_, none) => s.putItem { i with stage := .kept 0 }

/-- A host item's completion queued with its status; the queue's cause is set when it was empty. -/
def State.hostComplete (s : State) (i : SvcItem) (status : Nat) (result : DWord) : State :=
  let c : HostCpl := ⟨i.id, i.tag, BitVec.ofNat 8 status, result⟩
  let s := s.putItem { i with stage := .done, result := result, status := BitVec.ofNat 8 status }
  let s := { s with svc := { s.svc with ready := s.svc.ready.filter (· ≠ i.id) } }
  match i.source with
  | .dbg =>
    let t := { s with svc := { s.svc with cplDbg := s.svc.cplDbg ++ [c] } }
    if s.svc.cplDbg.isEmpty then t.cause svcPage 3 else t
  | _ =>
    let t := { s with svc := { s.svc with cplSup := s.svc.cplSup ++ [c] } }
    if s.svc.cplSup.isEmpty then t.cause svcPage 2 else t

/-- An item done with its result: a tile gets its completion packet, a host queue its status, and any
other source's entry is freed. -/
def State.finish (s : State) (i : SvcItem) (result : DWord) : State :=
  if i.fromTile then s.sendCompletion { i with result := result }
  else if i.fromHost then s.hostComplete i 0 result
  else s.dropItem i.id

/-- A failed item: recorded; a tile item completes with 0 and the device halts after the batch; a host
item completes with its status (R232, R244). -/
def State.failItem (s : State) (i : SvcItem) (code info status : Nat) : State :=
  let s := s.svcErr code info
  if i.fromTile then (s.sendCompletion { i with result := 0 }).haltRequest 8
  else if i.fromHost then s.hostComplete i status 0
  else s.dropItem i.id

/-- PG_ERR_INFO of SVC_BAD_TYPE. -/
def SvcItem.badInfo (i : SvcItem) : Nat := i.vm + i.type.toNat

/-- SVC_BAD_TYPE: a tile item with a reserved CKIND sends no completion (R231, R240). -/
def State.badType (s : State) (i : SvcItem) : State :=
  if i.fromTile ∧ i.ckind ≠ 1 ∧ i.ckind ≠ 2 then
    ((s.svcErr 0x2001 i.badInfo).dropItem i.id).haltRequest 8
  else s.failItem i 0x2001 i.badInfo 4

/-! ## Matching (R219 to R221) -/

/-- Types that a tile may issue, and types that a host queue may issue (R215, R218). -/
def tileTypes : List Byte := [0x01, 0x02, 0x03, 0x10, 0x11]
def hostTypes : List Byte := [0x01, 0x02, 0x03, 0x20, 0x21, 0x50]

/-- Token k of an entry taken away. -/
def SvcItem.clearTok (i : SvcItem) (k : Nat) : SvcItem :=
  match k with
  | 0 => { i with t0 := none }
  | 1 => { i with t1 := none }
  | 2 => { i with t2 := none }
  | _ => { i with t3 := none }

/-- Bit k of a NEED. -/
def needs (need k : Nat) : Bool := need / 2 ^ k % 2 = 1

/-- SVC_MATCH_TYPE for a dropped token; the device halts after the batch. -/
def State.dropToken (s : State) (v m k reason type : Nat) : State :=
  (s.svcErr 0x2002 (v * 2 ^ 24 + m * 2 ^ 12 + k * 2 ^ 10 + reason * 2 ^ 8 + type)).haltRequest 8

/-- The fields that the lead token gives an entry. -/
def SvcItem.takeLead (i : SvcItem) (tk : Token) : SvcItem :=
  { i with
    w0 := tk.tmpl.setWidth 64
    w1 := tk.tmpl.extractLsb' 64 64
    hasLead := true
    tmplNo := tk.tmplNo
    vtile := tk.vtile }

/-- Every token of NEED has arrived. -/
def SvcItem.full (i : SvcItem) : Bool :=
  i.hasLead && (List.range 4).all fun k => !needs i.need k || i.hasTok k

/-- An entry that may be complete: complete items enter their level, or fail before they run. -/
def State.settle (s : State) (i : SvcItem) : State :=
  let s := s.putItem i
  if i.stage = .collecting ∧ i.full then
    if i.type ∉ tileTypes ∨ (i.ckind ≠ 1 ∧ i.ckind ≠ 2) then s.badType i else s.enlist i
  else s

/-- Tokens outside NEED that joined before the lead arrived are dropped when it does. -/
def State.trimTokens (s : State) (i : SvcItem) : SvcItem × State :=
  (List.range 4).foldl (fun (p : SvcItem × State) k =>
    if p.1.hasTok k && !needs p.1.need k then
      (p.1.clearTok k, p.2.dropToken (Table.get (fun _ => 0) p.1.tokVt k) p.1.matchId k 1 p.1.type.toNat)
    else p) (i, s)

/-- The template of a token is a lead template: the token is token 0, or an SVC word of its tile uses the template for
token 0 (R216). -/
def Token.isLead (tk : Token) : Bool := tk.token = 0 || tk.lead

/-- A token that joins entry e: one of another TYPE, or outside NEED, is dropped. One of a lead template gives an entry
that has no fields yet its fields, and token 0 gives them always (R216, R219, R220). -/
def State.joinToken (s : State) (e : SvcItem) (tk : Token) : State :=
  let type : Byte := tk.tmpl.setWidth 8
  let drop (r : Nat) : State := s.dropToken tk.vtile (tmplMatch tk.tmpl) tk.token r type.toNat
  let gives := tk.isLead && (tk.token = 0 || !e.hasLead)
  if e.type ≠ type then drop 0
  else if (gives && !needs (bits tk.tmpl 15 12) tk.token) || (!gives && e.hasLead && !needs e.need tk.token) then drop 1
  else
    let i := e.setTok tk.token tk.vtile tk.data
    let r := if gives then s.trimTokens (i.takeLead tk) else (i, s)
    r.2.settle r.1

/-- A token that opens an entry: one of a lead template builds it from that template, and is dropped outside its NEED. A
TYPE that no tile may issue is SVC_BAD_TYPE at once (R181, R219, R240). -/
def State.openToken (s : State) (tk : Token) : State :=
  let m := tmplMatch tk.tmpl
  let type : Byte := tk.tmpl.setWidth 8
  let base := { blankItem (.tile tk.vtile) type 0 0 with
    matchId := m, batch := tk.batch, hasLead := false, vtile := tk.vtile }
  let lead := base.takeLead tk
  if type ∉ tileTypes then
    let a := s.addItem (lead.setTok tk.token tk.vtile tk.data)
    a.2.badType a.1
  else if tk.isLead && !needs (bits tk.tmpl 15 12) tk.token then s.dropToken tk.vtile m tk.token 1 type.toNat
  else
    let a := s.addItem ((if tk.isLead then lead else base).setTok tk.token tk.vtile tk.data)
    a.2.settle a.1

/-- A token that reaches the dispatcher (R219): it joins the oldest entry of its key whose slot for it is empty, else
it opens one. -/
def State.takeToken (s : State) (tk : Token) : State :=
  match s.svc.store.find? fun i => i.takes (tmplMatch tk.tmpl) tk.batch tk.token with
  | some e => s.joinToken e tk
  | none => s.openToken tk

/-- SVC_TOKEN_ARRIVAL: the k-th token on its way reaches the dispatcher. DEDUCED (assumption 87): all tokens of one
tile arrive in issue order, whatever their key, of which R219 orders only those for one slot of one key. One that
would open an entry waits while the pool has none (R223). -/
def execSvcTokenArrival (k : Nat) (s : State) : Out :=
  match s.svc.tokens[k]? with
  | none => .next s
  | some tk =>
    if ((s.svc.tokens.take k).any fun q => q.vtile = tk.vtile) ||
        ((joins s.svc.store tk).isNone && decide (3520 ≤ s.poolUsed)) then .next s
    else .next (({ s with svc := { s.svc with tokens := s.svc.tokens.eraseIdx k } }).takeToken tk)

/-- SVC_ORPHAN at the batch end of batch n: incomplete entries of batch n - 4 or lower (R221), and those
that a drain limit discarded (R493). -/
def State.orphans (s : State) (n : DWord) : State :=
  (s.svc.store.filter fun i =>
      i.fromTile && (i.stage = .orphaned ||
        (i.stage = .collecting && decide (i.batch.toNat + 4 ≤ n.toNat)))).foldl
    (fun s i => ((s.dropItem i.id).svcErr 0x2003
      (i.vm + i.batch.toNat % 4096)).haltRequest 8) s

/-! ## Dispatch (R225 to R228, R256) -/

/-- The device halts: it is halted, or HALTING at a boundary where no batch may start (R228, R454). -/
def State.halts (s : State) : Bool :=
  s.isHalted || (s.run.state = .halting && !s.run.inBatch && !s.run.stepPending)

/-- Whether a source is stopped: tiles, porters, acquisition, criers and memory when the device
halts, but a porter's CEVICT runs again once it is halted (R228, R451); host queues in a recovery pause (R486). -/
def State.stopped (s : State) (i : SvcItem) : Bool :=
  match i.source with
  | .sup => s.run.state = .recover
  | .dbg => s.run.state = .recover
  | .proofs => false
  | .mcache => false
  | .porter _ => s.halts && !(s.isHalted && i.type = 0x21)
  | _ => s.halts

/-- An item that the dispatcher may start. -/
def State.dispatchable (s : State) (i : SvcItem) : Bool :=
  !s.stopped i && !(s.deficit && i.deferrable && !i.forced)

/-- The first dispatchable item of the highest level that holds one; `n` levels are left to look at. -/
def State.pick (s : State) : Nat → Option SvcItem
  | 0 => none
  | n + 1 =>
    match (s.listed n).find? s.dispatchable with
    | some i => some i
    | none => State.pick s n

/-- Engine e serves, is free and takes work; neither it nor the dispatcher is under test (R495). -/
def State.engineFree (s : State) (e : Nat) : Bool :=
  decide (e ∈ s.svc.serving) && (Table.get (fun _ => none) s.svc.engines e).isNone &&
    s.pageEn (engPage e) && s.pageEn svcPage && !s.enc.integrityHalt && !s.underTest (144 + e) && !s.underTest 163

/-- The item that engine e runs. -/
def State.running (s : State) (e : Nat) : Option SvcItem :=
  (Table.get (fun _ => none) s.svc.engines e).bind s.item

/-- DISPATCH: engine e is free and starts the next item. -/
def execDispatch (eng : Nat) (s : State) : Out :=
  guardUnit (eng < 18) (
    match s.pick 8 with
    | none => .next s
    | some i => whenDue (s.engineFree eng) s (
        let s := s.putItem { i with stage := .running eng }
        { s with svc := { s.svc with
            ready := s.svc.ready.filter (· ≠ i.id)
            engines := Table.set (fun _ => none) s.svc.engines eng (some i.id)
            engType := Table.set (fun _ => 0) s.svc.engType eng i.type } }))

/-- Whether an item is held under R227: a deferrable one that is ready, in a deficit. -/
def State.heldItem (s : State) (i : SvcItem) : Bool :=
  i.stage = .ready && i.deferrable && !i.forced && s.deficit

/-- DEFER_FORCED: a deferrable item held for PWR_DEFER_MAX.US becomes dispatchable (R256). -/
def execDeferForced (item : Nat) (s : State) : Out :=
  match s.item item with
  | none => .next s
  | some i =>
    let m := s.fld .pwrDeferMax 15 0
    whenDue (s.heldItem i && decide (m ≠ 0) && decide (m * 1000 ≤ i.heldNs)) s
      (((s.putItem { i with forced := true }).err pwrPage 0xA004 i.type.toNat).cause pwrPage 4)

/-- COMPLETION_RESEND: 160 ns after its refusal a kept completion is sent again (R231). -/
def execCompletionResend (item : Nat) (s : State) : Out :=
  match s.item item with
  | none => .next s
  | some i =>
    match i.stage with
    | .kept ns => whenDue (decide (160 ≤ ns)) s (s.sendCompletion i)
    | _ => .next s

/-! ## The model cache (R233 to R235, R311) -/

/-- An access to a larder bank, or a change of its owner, wakes it (R291). -/
def State.touchLarder (s : State) (b : Nat) : State :=
  { s.wr .memLown (setBit (s.rd .memLown b) 29 false) b with
    mem := { s.mem with larderIdleNs := Table.set (fun _ => 0) s.mem.larderIdleNs b 0 } }

/-- The larder banks that the model cache owns and allocates into (R285), but for those under test (R495). -/
def State.cacheBanks (s : State) : List Nat :=
  (List.range 64).filter fun b =>
    bits (s.rd .memLown b) 11 8 = 6 && !bit (s.rd .memLown b) 31 && !bit (s.rd .memLown b) 30 &&
      !s.underTest (136 + b / 8)

/-- Whether bank b is being handed over. -/
def State.bankPending (s : State) (b : Nat) : Bool := bit (s.rd .memLown b) 31

/-- The cached line l. -/
def State.cached (s : State) (l : Nat) : Option CacheLine := s.svc.cache.find? fun c => c.line = l

/-- Line l no longer cached. -/
def State.uncache (s : State) (l : Nat) : State :=
  { s with svc := { s.svc with cache := s.svc.cache.filter fun c => c.line ≠ l } }

/-- A cached line replaced. -/
def State.putLine (s : State) (c : CacheLine) : State :=
  { s with svc := { s.svc with cache := s.svc.cache.map fun d => if d.line = c.line then c else d } }

/-- The 64 bytes of a line of data. -/
def CacheLine.bytes (c : CacheLine) : List Byte := leBytes 64 c.data.toNat

/-- A dirty line written back with the class and the slot under which it was filled; a refused one is
discarded (R233, R311, R327). Its bank is accessed (R291). -/
def State.writeBack (s : State) (c : CacheLine) : EncRes × State :=
  match (s.touchLarder c.bank).lineWrite reqService c.slot (64 * c.line) c.bytes .clean with
  | (.ok d, s) => (.ok d, s.putLine { c with dirty := false })
  | (e, s) => (e, s.uncache c.line)

/-- Every dirty line written back, oldest first (R235). -/
def State.flushCache (s : State) : State :=
  (s.svc.cache.filter CacheLine.dirty).foldl (fun s c => (s.writeBack c).2) s

/-- No engine runs an item: what a halt waits for (R228, R454 item 2). -/
def State.quiet (s : State) : Bool :=
  !(s.svc.store.any fun i =>
    match i.stage with
    | .running _ => true
    | _ => false)

/-- The write-back that follows an immediate stop, once every engine has completed its item (R228, R235). -/
def State.lateFlush (s : State) : State :=
  if s.svc.flushDue && s.quiet && !s.enc.integrityHalt then
    let s := s.flushCache
    { s with svc := { s.svc with flushDue := false } }
  else s

/-- The set of a line among those of the banks that take lines: 512 sets of 16 ways for each (R233). -/
def State.setOf (s : State) (l : Nat) : Nat := Config.cacheSet l % (512 * s.cacheBanks.length)

/-- The bank that takes line l, and its set of that bank. -/
def State.lineBank (s : State) (l : Nat) : Nat := s.cacheBanks.getD (s.setOf l / 512) 0
def State.lineSet (s : State) (l : Nat) : Nat := s.setOf l % 512

/-- Room in a line's set: when its 16 ways hold lines, one gives way, written back first when it is
dirty. Which one, the spec leaves open (assumption 1). -/
def State.makeRoom (s : State) (l : Nat) : EncRes × State :=
  let ways := s.svc.cache.filter fun c => c.bank = s.lineBank l && c.set = s.lineSet l
  if ways.length < 16 then (.ok [], s)
  else
    let f := s.freeNat
    let s := f.2
    match ways[f.1 % ways.length]? with
    | none => (.ok [], s)
    | some c =>
      if c.dirty then
        match s.writeBack c with
        | (.ok d, s) => (.ok d, s.uncache c.line)
        | r => r
      else (.ok [], s.uncache c.line)

/-- Line l filled under a slot: through the engine with the SERVICE class, into the bank of its set. -/
def State.fillLine (s : State) (l slot : Nat) (ue : Dram) : EncRes × State :=
  match s.makeRoom l with
  | (.ok _, s) =>
    match s.lineRead reqService slot (64 * l) true false ue with
    | (.ok d, s) =>
      let b := s.lineBank l
      let i := s.lineSet l
      let s := s.touchLarder b
      (.ok d, { s with svc := { s.svc with
        cache := s.svc.cache ++ [⟨l, BitVec.ofNat 512 (leNat d), false, slot, b, i⟩] } })
    | r => r
  | r => r

/-- Line l out of the cache, written back first when it is dirty. -/
def State.expel (s : State) (l : Nat) : EncRes × State :=
  match s.cached l with
  | some c =>
    match (if c.dirty then s.writeBack c else (.ok [], s)) with
    | (.ok d, s) => (.ok d, s.uncache l)
    | r => r
  | none => (.ok [], s)

/-- Line l present under a slot: a hit, or a line of another slot or of a bank being handed over
written back and filled again, or a miss filled (R233, R285, R311). The second answer says whether it
missed. -/
def State.ensureLine (s : State) (l slot : Nat) (ue : Dram) : (EncRes × Bool) × State :=
  match s.cached l with
  | some c =>
    if c.slot = slot ∧ !s.bankPending c.bank then ((.ok [], false), s)
    else
      match s.expel l with
      | (.ok _, s) =>
        let r := s.fillLine l slot ue
        ((r.1, true), r.2)
      | (e, s) => ((e, true), s)
  | none =>
    let r := s.fillLine l slot ue
    ((r.1, true), r.2)

/-- PREFETCH: after a miss the cache issues a CFILL for the next line (R242); with the internal class full it
waits. -/
def State.prefetch (s : State) (l slot : Nat) : State :=
  if bit (s.rd .svcCacheCtrl) 7 then
    s.issueCache { blankItem .mcache 0x20 0 (BitVec.ofNat 64 (64 * (l + 1))) with
      t0 := some 1, t2 := some (BitVec.ofNat 64 slot) }
  else s

/-- CEVICT items for the oldest dirty lines once dirty lines exceed WB_THRESH/256 of the cache (R233): as many as
it takes to come down to that figure. The oldest line is the one filled first (assumption 73). -/
def State.background (s : State) : State :=
  let dirty := s.svc.cache.filter CacheLine.dirty
  let cap := 8192 * s.cacheBanks.length
  let asked (l : Nat) : Bool := (s.svc.store ++ s.svc.waitItems).any fun i =>
    i.source = .mcache && i.type = 0x21 && i.w1.toNat = 64 * l
  let excess := dirty.length - s.fld .svcCacheCtrl 23 16 * cap / 256
  if excess = 0 then s
  else
    let fresh := dirty.filter fun c => !asked c.line
    (fresh.take (excess - (dirty.length - fresh.length))).foldl (fun s c =>
      s.issueCache { blankItem .mcache 0x21 0 (BitVec.ofNat 64 (64 * c.line)) with
        t0 := some 1, t1 := some 0 }) s

/-! ## Memory items (R229, R230, R232) -/

/-- The requester and the key slot of an item (R229, R310). -/
def SvcItem.requester (i : SvcItem) : Requester :=
  match i.source with
  | .sup => ⟨clsSup, 10⟩
  | .dbg => ⟨clsDebug, 11⟩
  | _ => reqService

/-- The DDR address of a memory item. -/
def SvcItem.addr (i : SvcItem) : Nat := (i.w1.toNat + i.tok0.toNat * 2 ^ i.scale) % 2 ^ 64

/-- How a memory access ended: the old value, or which failure. -/
inductive MemRes where
  | ok (old : Nat)
  | rights | ddr | integrity
  deriving DecidableEq, Repr

/-- An engine outcome that is not a success, as a memory access sees it. -/
def EncRes.memRes : EncRes → MemRes
  | .ok _ => .ok 0
  | .refused _ => .rights
  | .ue _ => .ddr
  | .integrity => .integrity

/-- n bytes at offset o of a line, as a number. -/
def lineVal (d : List Byte) (o n : Nat) : Nat := leNat ((d.drop o).take n)

/-- An atomic access to n bytes of one line through the cache: old value out, `f old` written when
`wr`. -/
def State.cacheAccess (s : State) (slot a n : Nat) (wr : Bool) (ue : Dram) (f : Nat → Nat) : MemRes × State :=
  match s.ensureLine (a / 64) slot ue with
  | ((.ok _, missed), s) =>
    match s.cached (a / 64) with
    | none => (.ok 0, s)
    | some c =>
      let s := s.touchLarder c.bank
      let old := lineVal c.bytes (a % 64) n
      let d := splice c.bytes (a % 64) (leBytes n (f old))
      let s := if wr then (s.putLine { c with data := BitVec.ofNat 512 (leNat d), dirty := true }).background
        else s
      (.ok old, if missed then s.prefetch (a / 64) slot else s)
  | ((e, _), s) => (e.memRes, s)

/-- The same access straight through the engine, when the cache owns no bank. -/
def State.directAccess (s : State) (r : Requester) (slot a n : Nat) (rd wr : Bool) (ue : Dram) (f : Nat → Nat) :
    MemRes × State :=
  let got := if rd then s.lineRead r slot a true wr ue else (.ok [], s)
  match got with
  | (.ok d, s) =>
    let old := lineVal d (a % 64) n
    if wr then
      match s.lineWrite r slot a (leBytes n (f old)) (if rd then .clean else ue) with
      | (.ok _, s) => (.ok old, s)
      | (e, s) => (e.memRes, s)
    else (.ok old, s)
  | (e, s) => (e.memRes, s)

/-- A memory access of an item: rights are checked, and the comparators look, before the cache is
touched. -/
def State.memAccess (s : State) (i : SvcItem) (rd wr : Bool) (ue : Dram) (f : Nat → Nat) : MemRes × State :=
  let a := i.addr
  let r := i.requester
  let slot := s.qkey r.queue
  let s := if i.fromTile then s.watch ⟨0, rd, wr, i.vtile, 0x7FF, i.batch, a, i.bytes⟩ else s
  match s.encRefuse r slot a rd wr with
  | some (code, info) => (.rights, s.err encPage code info)
  | none =>
    let s := if wr && i.fromHost then s.hostTouches a i.bytes else s
    if s.enc.integrityHalt then (.integrity, s)
    else if s.cacheBanks.isEmpty then
      match s.expel (a / 64) with
      | (.ok _, s) => s.directAccess r slot a i.bytes rd wr ue f
      | (e, s) => (e.memRes, s)
    else s.cacheAccess slot a i.bytes wr ue f

/-- Engine e done with its item: free, and its count grows. -/
def State.engineDone (s : State) (e : Nat) : State :=
  ({ s with svc := { s.svc with engines := Table.set (fun _ => none) s.svc.engines e none } }).countReg
    .svcEngItems 0xFFFFFFFF 1 e

/-- The end of a memory item. -/
def State.endMem (s : State) (e : Nat) (i : SvcItem) (r : MemRes) (result : Nat → Nat) : State :=
  let aInfo := i.v * 2 ^ 24 + i.addr / 64 % 2 ^ 24
  match r with
  | .ok old => (s.engineDone e).finish i (BitVec.ofNat 64 (result old))
  | .rights => (s.engineDone e).failItem i 0x2005 aInfo 2
  | .ddr => (s.engineDone e).failItem i 0x200A aInfo 5
  | .integrity => s

/-- A memory item on engine e: SVC_ALIGN before anything else (R229, R232). -/
def State.runMem (s : State) (e : Nat) (i : SvcItem) (rd wr : Bool) (ue : Dram) (f result : Nat → Nat) : State :=
  if i.addr % i.bytes ≠ 0 then (s.engineDone e).failItem i 0x2004 (i.vm + i.addr % 4096) 3
  else
    let r := s.memAccess i rd wr ue f
    r.2.endMem e i r.1 result

/-- A command on the item that engine e runs, when its type is the command's. -/
@[inline] def onEngine (e : Nat) (type : Byte) (s : State) (g : SvcItem → State) : Out :=
  guardUnit (e < 18) (
    match s.running e with
    | some i => whenDue (i.type = type) s (g i)
    | none => .next s)

/-- MREAD. -/
def execMread (eng : Nat) (ue : Dram) (s : State) : Out :=
  onEngine eng 0x01 s fun i => s.runMem eng i true false ue id id

/-- The low SIZE bytes of a token. -/
def SvcItem.low (i : SvcItem) (t : DWord) : Nat := t.toNat % 2 ^ (8 * i.bytes)

/-- MWRITE. -/
def execMwrite (eng : Nat) (ue : Dram) (s : State) : Out :=
  onEngine eng 0x02 s fun i =>
    s.runMem eng i false true ue (fun _ => i.low i.tok1) (fun _ => i.low i.tok1)

/-- The new value of an MRMW (R230). -/
def rmwNew (op n v t c : Nat) : Nat :=
  match op with
  | 0 => (v + t) % 2 ^ (8 * n)
  | 1 => v &&& t
  | 2 => v ||| t
  | 3 => v ^^^ t
  | 4 => t
  | 5 => if v = c then t else v
  | 6 => min v t
  | _ => max v t

/-- MRMW: a reserved OP is SVC_BAD_TYPE (R230). -/
def execMrmw (eng : Nat) (ue : Dram) (s : State) : Out :=
  onEngine eng 0x03 s fun i =>
    if 8 ≤ i.op then (s.engineDone eng).badType i
    else s.runMem eng i true true ue
      (fun v => rmwNew i.op i.bytes v (i.low i.tok1) (i.low i.tok2)) id

/-! ## Cache items (R215, R218, R234) -/

/-- The lines of a CFILL or CEVICT item: first line and count. -/
def SvcItem.lines (i : SvcItem) : List Nat :=
  List.range' (i.w1.toNat / 64) (i.tok0.toNat % 2 ^ 16)

/-- The key slot of a cache item: the line's slot for a prefetch, else the queue's. -/
def State.fillSlot (s : State) (i : SvcItem) : Nat :=
  if i.source = .mcache then (i.tok2).toNat else s.qkey i.requester.queue

/-- The lines of a CFILL filled one by one; the first failure is the outcome and the lines before it
stay. -/
def State.fillAll (s : State) (slot : Nat) (ue : Dram) : List Nat → EncRes × State
  | [] => (.ok [], s)
  | l :: rest =>
    match s.ensureLine l slot ue with
    | ((.ok _, _), s) => State.fillAll s slot .clean rest
    | ((e, _), s) => (e, s)

/-- The end of a CFILL, CEVICT or SCRUB item. DEDUCED (assumption 86): a failure names the first line of the item, since
the A of R240 is the item's. -/
def State.endLines (s : State) (e : Nat) (i : SvcItem) (r : EncRes) : State :=
  let aInfo := i.v * 2 ^ 24 + i.w1.toNat / 64 % 2 ^ 24
  match r with
  | .ok _ => (s.engineDone e).finish i 0
  | .refused _ =>
    if i.fromHost then (s.engineDone e).failItem i 0x2005 aInfo 2 else (s.engineDone e).dropItem i.id
  | .ue _ =>
    if i.fromHost then (s.engineDone e).failItem i 0x200A aInfo 5 else (s.engineDone e).dropItem i.id
  | .integrity => s

/-- What refuses a cache item of a host queue: the rights of its own class on its lines, checked before it touches
the cache (R311). An evict needs the write right and no key (assumption 72). -/
def State.ownRefuse (s : State) (i : SvcItem) (write : Bool) : Option (Nat × Nat) :=
  if i.fromHost then
    i.lines.findSome? fun l =>
      match s.encRefuse i.requester (s.qkey i.requester.queue) (64 * l) (!write) write with
      | some (code, info) => if write ∧ code = 0x3103 then none else some (code, info)
      | none => none
  else none

/-- A cache item of a host queue refused, with the engine's code recorded; else `g`. -/
def State.ifOwn (s : State) (e : Nat) (i : SvcItem) (write : Bool) (g : State → State) : State :=
  match s.ownRefuse i write with
  | some (code, info) => (s.err encPage code info).endLines e i (.refused code)
  | none => g s

/-- CFILL: with no bank owned there is nothing to fill. -/
def execCfill (eng : Nat) (ue : Dram) (s : State) : Out :=
  onEngine eng 0x20 s fun i =>
    s.ifOwn eng i false fun s =>
      if s.cacheBanks.isEmpty then s.endLines eng i (.ok [])
      else
        let r := s.fillAll (s.fillSlot i) ue i.lines
        r.2.endLines eng i r.1

/-- Lines written back or invalidated; the first refused write-back is the outcome. -/
def State.evictAll (s : State) (inval : Bool) : List Nat → EncRes → EncRes × State
  | [], e => (e, s)
  | l :: rest, e =>
    match s.cached l with
    | none => State.evictAll s inval rest e
    | some c =>
      if inval then State.evictAll (s.uncache l) inval rest e
      else if c.dirty then
        let r := s.writeBack c
        State.evictAll r.2 inval rest (if e.isOk then r.1 else e)
      else State.evictAll s inval rest e

/-- SVC_CACHE_FLUSH: a write of SVC_CACHE_CTRL with FLUSH writes back every dirty line (R235); its RW
fields are stored. -/
def execSvcCacheFlush (val : Word) (s : State) : Out := onWrite svcPage s (
    whenDue (bit val 31) s (
      let t := s.wr .svcCacheCtrl ((s.rd .svcCacheCtrl &&& 0x7F) ||| (val &&& 0x00FF0080))
      if s.pageEn svcPage then t.flushCache else t))

/-! ## Transactor channels (R236 to R238, R245) -/

/-- Ring pointers: HOST and DEV of a pointer register; both count modulo the size of the ring. -/
def ptrHost (w : Word) : Nat := bits w 31 16
def ptrDev (w : Word) : Nat := bits w 15 0

/-- A device address from a base pair whose low bits hold EN. -/
def State.ringBase (s : State) (lo hi : Reg) (c : Nat) : Nat :=
  (s.rd64 lo hi c).toNat / 4096 * 4096

/-- An item parked on a channel: it gives up its engine (R237). -/
def State.park (s : State) (e c : Nat) (i : SvcItem) : State :=
  let s := { s with svc := { s.svc with
    engines := Table.set (fun _ => none) s.svc.engines e none
    parkOrder := s.svc.parkOrder ++ [i.id] } }
  s.putItem { i with stage := .parked c }

/-- Parked items of a channel and type go back to their level, in the order they were parked. -/
def State.unpark (s : State) (c : Nat) (type : Byte) : State :=
  let back := (s.svc.parkOrder.filterMap s.item).filter fun i => i.stage = .parked c && i.type = type
  back.foldl (fun s i =>
    { s.enlist i with svc := { (s.enlist i).svc with parkOrder := s.svc.parkOrder.filter (· ≠ i.id) } }) s

/-- What names an XOUT item on record. -/
def SvcItem.xoutKey (i : SvcItem) : DWord × Nat × Nat := (i.batch, i.vtile, i.tmplNo)

/-- Whether an XOUT item was already done in the run that is replayed (R238, R487). -/
def State.xoutRepeated (s : State) (i : SvcItem) : Bool := decide (i.xoutKey ∈ s.prf.xoutRedo)

/-- The 16 bytes of an outbound record (R236). -/
def SvcItem.record (i : SvcItem) : List Byte :=
  leBytes 8 i.tok0.toNat ++ leBytes 6 i.batch.toNat ++ leBytes 1 i.vtile ++ leBytes 1 i.tmplNo

/-- An XOUT item has run, whether it appended its record or failed: a replay does not run it again (R238). -/
def State.xoutRan (s : State) (i : SvcItem) : State :=
  { s with prf := { s.prf with xoutDone := s.prf.xoutDone ++ [i.xoutKey] } }

/-- An XOUT item on engine e. -/
def State.runXout (s : State) (e : Nat) (i : SvcItem) (ue : Dram) : State :=
  let c := i.op
  let p := s.rd .svcXoutPtr c
  let n := 2 ^ s.fld .svcXchSize 4 0 c
  let dev := ptrDev p % n
  let host := ptrHost p % n
  let a := s.ringBase .svcXoutBaseLo .svcXoutBaseHi c + 16 * dev
  let aInfo := i.v * 2 ^ 24 + a / 64 % 2 ^ 24
  if s.xoutRepeated i then
    let s := { s with prf := { s.prf with xoutRedo := s.prf.xoutRedo.erase i.xoutKey } }
    (s.engineDone e).finish i 0
  else if !bit (s.rd .svcXoutBaseLo c) 0 then
    ((s.xoutRan i).engineDone e).failItem i 0x2008 (i.v * 2 ^ 24 + c) 4
  else if (dev + 1) % n = host then s.park e c i
  else
    match s.ddrWrite reqService (s.qkey 9) a i.record ue with
    | (.ok _, s) =>
      let s := s.wr .svcXoutPtr (setBits p 15 0 ((dev + 1) % n)) c
      let s := if dev = host then s.cause svcPage 1 else s
      ((s.xoutRan i).engineDone e).finish i 0
    | (.refused _, s) => ((s.xoutRan i).engineDone e).failItem i 0x2005 aInfo 2
    | (.ue _, s) => ((s.xoutRan i).engineDone e).failItem i 0x200A aInfo 5
    | (.integrity, s) => s

/-- XOUT. -/
def execXout (eng : Nat) (ue : Dram) (s : State) : Out :=
  onEngine eng 0x10 s fun i => s.runXout eng i ue

/-- The logged word of an XIN item that a replay runs again, with the record taken from the replay. -/
def State.loggedXin (s : State) (i : SvcItem) : Option (DWord × State) :=
  let hit (r : LogRec) : Bool :=
    match r with
    | .xin vt tmpl chan _ n => vt = i.vtile && tmpl = i.tmplNo && chan = i.op && n = i.batch
    | _ => false
  match s.prf.replay.find? hit with
  | some (.xin vt tmpl chan w n) =>
    some (w, { s with prf := { s.prf with replay := s.prf.replay.erase (.xin vt tmpl chan w n) } })
  | _ => none

/-- The result of an XIN item that ran goes to the input log, also the result 0 of one that failed (R238). -/
def State.logXin (s : State) (i : SvcItem) (w : DWord) : State :=
  s.logInput (.xin i.vtile i.tmplNo i.op w i.batch)

/-- An XIN item on engine e. -/
def State.runXin (s : State) (e : Nat) (i : SvcItem) (ue : Dram) : State :=
  let c := i.op
  let p := s.rd .svcXinPtr c
  let n := 2 ^ s.fld .svcXchSize 20 16 c
  let dev := ptrDev p % n
  let a := s.ringBase .svcXinBaseLo .svcXinBaseHi c + 8 * dev
  let aInfo := i.v * 2 ^ 24 + a / 64 % 2 ^ 24
  match s.loggedXin i with
  | some (w, s) => (s.engineDone e).finish i w
  | none =>
    if !bit (s.rd .svcXinBaseLo c) 0 then
      ((s.logXin i 0).engineDone e).failItem i 0x2008 (i.v * 2 ^ 24 + c) 4
    else if dev = ptrHost p % n then s.park e c i
    else
      match s.ddrRead reqService (s.qkey 9) a 8 ue with
      | (.ok d, s) =>
        let w : DWord := BitVec.ofNat 64 (leNat d)
        let s := s.wr .svcXinPtr (setBits p 15 0 ((dev + 1) % n)) c
        ((s.logXin i w).engineDone e).finish i w
      | (.refused _, s) => ((s.logXin i 0).engineDone e).failItem i 0x2005 aInfo 2
      | (.ue _, s) => ((s.logXin i 0).engineDone e).failItem i 0x200A aInfo 5
      | (.integrity, s) => s

/-- XIN. -/
def execXin (eng : Nat) (ue : Dram) (s : State) : Out :=
  onEngine eng 0x11 s fun i => s.runXin eng i ue

/-- A pointer register written: HOST moves, and parked items return when it moved. -/
def State.writePtr (s : State) (r : Reg) (c : Nat) (type : Byte) (val : Word) : State :=
  let old := s.rd r c
  let s := s.wr r (setBits old 31 16 (bits val 31 16)) c
  if ptrHost old = bits val 31 16 then s else s.unpark c type

/-- SVC_XOUT_PTR_WRITE. -/
def execSvcXoutPtrWrite (c : Nat) (val : Word) (s : State) : Out :=
  guardUnit (c < 16) (onWrite svcPage s (
    .next (s.writePtr .svcXoutPtr c 0x10 val)))

/-- SVC_XIN_PTR_WRITE. -/
def execSvcXinPtrWrite (c : Nat) (val : Word) (s : State) : Out :=
  guardUnit (c < 16) (onWrite svcPage s (
    .next (s.writePtr .svcXinPtr c 0x11 val)))

/-- A BASE_LO register of a ring written (R245): while EN is 1 its address stands and only EN can
change; a write of EN to 1 sets DEV to HOST. -/
def State.writeRingLo (s : State) (lo ptr : Reg) (c : Nat) (val : Word) : State :=
  let old := s.rd lo c
  if bit old 0 then (if bit val 0 then s else s.wr lo (setBit old 0 false) c)
  else
    let s := s.wr lo (val &&& 0xFFFFF001) c
    if bit val 0 then
      let p := s.rd ptr c
      s.wr ptr (setBits p 15 0 (ptrHost p)) c
    else s

/-- SVC_XCH_EN_WRITE: a write of EN to 1 on a transactor ring. -/
def execSvcXchEnWrite (c : Nat) (inbound : Bool) (val : Word) (s : State) : Out :=
  guardUnit (c < 16) (onWrite svcPage s (
    whenDue (bit val 0) s
      (if inbound then s.writeRingLo .svcXinBaseLo .svcXinPtr c val
       else s.writeRingLo .svcXoutBaseLo .svcXoutPtr c val)))

/-! ## Host queues (R218, R224, R243) -/

/-- The source of host queue q: 0 supervisor, 1 debug. -/
def queueSource (q : Nat) : SvcSource := if q = 0 then .sup else .dbg

/-- Entries of a host queue in use. -/
def State.queueUsed (s : State) (q : Nat) : Nat :=
  (s.svc.store.filter fun i => i.source = queueSource q).length

/-- Double word k of the descriptor registers of queue q. -/
def State.descWord (s : State) (q k : Nat) : DWord :=
  join32 (s.rd .svcHqDesc q (2 * k + 1)) (s.rd .svcHqDesc q (2 * k))

/-- The item that the descriptor registers of queue q describe. -/
def State.descItem (s : State) (q : Nat) (tag : Half) : SvcItem :=
  let w0 := s.descWord q 0
  { blankItem (queueSource q) (w0.setWidth 8) w0 (s.descWord q 1) with
    t0 := some (s.descWord q 2)
    t1 := some (s.descWord q 3)
    t2 := some (s.descWord q 4)
    t3 := some (s.descWord q 5)
    tag := tag }

/-- SVC_HQ_SUBMIT: queued, or refused when the queue has no free entry or the level no free place. -/
def execSvcHqSubmit (q : Nat) (val : Word) (s : State) : Out :=
  guardUnit (q < 2) (onWrite svcPage s (
      let tag : Half := val.setWidth 16
      let i := s.descItem q tag
      let room := s.queueUsed q < (if q = 0 then 64 else 32) ∧ s.pageEn svcPage
      let place := (s.listed i.level).length < 1024
      let s := s.setFld .svcHqStat 15 0 tag.toNat q
      if room ∧ place then
        let s := s.setFld .svcHqStat 31 31 0 q
        let a := s.addItem i
        .next (if i.type ∈ hostTypes then a.2.enlist a.1 else a.2.badType a.1)
      else .next ((s.setFld .svcHqStat 31 31 1 q).svcErr (0x2006 + q) tag.toNat)))

/-- SVC_HQ_CPL_READ: VALID, STATUS and TAG of the oldest completion; the read pops it unless PEEK
holds, frees its entry and fills the data registers. -/
def execSvcHqCplRead (q : Nat) (via : Via) (s : State) : Out :=
  guardUnit (q < 2) (onRead svcPage via s (
      match (if q = 0 then s.svc.cplSup else s.svc.cplDbg) with
      | [] => .next (s.answer [0])
      | c :: rest =>
        let v : Word := BitVec.ofNat 32 (2 ^ 31 + c.status.toNat * 2 ^ 16 + c.tag.toNat)
        if s.peeks svcPage via then .next (s.answer [v])
        else
          let s := if q = 0 then { s with svc := { s.svc with cplSup := rest } }
            else { s with svc := { s.svc with cplDbg := rest } }
          let s := (s.wr .svcHqCplDataLo (lo32 c.result) q).wr .svcHqCplDataHi (hi32 c.result) q
          .next ((s.dropItem c.item).answer [v])))

end Sys2Proof.Machine
end

