-- ==== Sys2Proof/Machine/TileStep.lean ====
section
/-! DEFINITION. A tile's step as a whole (R74 to R77, R112, R118, R131), and the commands of the tile
datapath and of the control words. -/

namespace Sys2Proof.Machine

/-! ## What a recipe sees beside its tile -/

/-- KIND of a bank ownership register (R282). -/
def ownKind (w : Word) : Nat := bits w 11 8
/-- INDEX of a bank ownership register. -/
def ownIndex (w : Word) : Nat := bits w 7 0
/-- PENDING: a handover of the bank is in progress. -/
def ownPending (w : Word) : Bool := bit w 31

/-- Whether tile t owns its pantry bank k and no handover of it is in progress (R104, R283). -/
def State.tileOwns (s : State) (t k : Nat) : Bool :=
  let w := s.rd .tilPanOwn t k
  ownKind w = 1 && !ownPending w

/-- The environment of tile t (R85, R106). -/
def State.env (s : State) (t : Nat) : TileEnv where
  din := s.pins.din
  first := s.run.batch = s.ldr.firstBatch
  owned := s.tileOwns t

/-! ## The two ends of a step -/

/-- What becomes of watched accesses of tile t. -/
def State.watchAll (s : State) (t : Nat) (l : List Watch) : State :=
  l.foldl (fun s w => s.watch
    ⟨1, !w.write, w.write, ((s.tile t).vtile.getD 0), w.step, s.run.batch, w.first, w.len⟩) s

/-- Results due and pantry accesses due take place at step n of tile t; the errors are not recorded yet. -/
def State.flowErrs (s : State) (t n : Nat) : State × List StepErr :=
  let e := s.env t
  let r := ((s.tile t).landDue n).pantryStep e n
  let s := (s.setTile t r.x).countReg .tilDpStall 0xFFFFFFFF r.stall t
  (s.watchAll t r.watches, r.errs)

/-- The same with its errors recorded. -/
def State.flow (s : State) (t n : Nat) : State :=
  let r := s.flowErrs t n
  r.1.stepErrs t r.2

/-- The step in which the last work in flight of a tile takes effect (R101). -/
def Tile.lastWork (x : Tile) : Nat :=
  let a := (x.results.map WuResult.due).foldl max x.step
  (x.accesses.map fun p => if p.isLoad then p.step + 4 else p.step + 2).foldl max a

/-- The logged arrivals of a tile's step, applied in order in a batch that runs again (R487). -/
def State.replayArrivals (s : State) (t step : Nat) : State :=
  let hit (r : LogRec) : Bool :=
    match r with
    | .arrive n p => n = step && (s.tile t).vtile = some p.dstVt && p.tag = s.run.batch
    | _ => false
  (s.prf.replay.filter hit).foldl (fun s r =>
    match r with
    | .arrive _ p =>
      ({ s with prf := { s.prf with replay := s.prf.replay.erase r } } : State).applyPacket t p
    | _ => s) s

/-- The tile completes its work in flight in up to four further cycles and rests (R101, R131). -/
def State.drain (s : State) (t : Nat) : State :=
  let x := s.tile t
  let n := x.lastWork - x.step
  let s := (List.range' 1 n).foldl (fun s k => s.flow t (x.step + k)) s
  let s := s.modTile t fun y => { y with
    phase := .resting, hold := none, step := 1024,
    energy := { y.energy with steps := y.energy.steps + n } }
  s.replayArrivals t 1024

/-- BP and WU instructions of the current step execute in full; the errors are not recorded yet. -/
def State.execUnits (s : State) (t : Nat) : State × List StepErr :=
  let x := s.tile t
  let b := x.bpStep (s.env t)
  let w := x.wuStep
  let y := { b.1 with
    results := w.1.results, accesses := w.1.accesses, hold := none,
    energy := { b.1.energy with
      alu := w.1.energy.alu, mul := w.1.energy.mul, steps := b.1.energy.steps + 1 } }
  (s.setTile t y, b.2 ++ w.2)

/-- The tile moves to the next step. -/
def State.advance (s : State) (t : Nat) : State := s.modTile t fun x => { x with step := x.step + 1 }

/-! ## Control words (R112 to R114) -/

/-- Bits of a control word outside the fields of its operation. -/
def strayMask (op : Nat) : Nat :=
  match op with
  | 1 => 0x3FFF
  | 8 => 0x3FFF
  | 2 => 0x7FF
  | 3 => 0x7F
  | 4 => 0x7F
  | 5 => 0xFFFF
  | 6 => 0x1F
  | 7 => 0xFFF0000
  | _ => 0xFFFFFFF

/-- ILLEGAL_ENCODING of the control stream (R108, R114). -/
def Tile.ctrlIllegal (x : Tile) : StepErr := ⟨4, 0x1024, 2, 0, x.step * 2 ^ 22 + 2 * 2 ^ 20⟩

/-- A control word holds a reserved OP or field value (R112, R114). -/
def ctrlReserved (w : Word) : Bool :=
  let op := bits w 31 28
  (decide (9 ≤ op) && decide (op ≤ 14)) || w.toNat &&& strayMask op ≠ 0 ||
    ((op = 1 || op = 8) && bits w 17 14 = 0)

/-- The errors of a control word that does not hold: of its encoding, and of the data read of SEND, ENQ or SVC
(R113, R114). DEDUCED (assumption 18): the reserved fields of a word are one ILLEGAL_ENCODING, and an odd REG is one
more. -/
def Tile.ctrlErrs (x : Tile) (w : Word) : List StepErr :=
  let op := bits w 31 28
  let src := if op = 3 ∨ op = 4 ∨ op = 6 then (x.source (bits w 19 19) (bits w 18 15) (bits w 14 7)).2 else []
  (if ctrlReserved w then [x.ctrlIllegal] else []) ++ src

/-- Whether a control word holds the tile, and how (R118, R122, R128, R138); evaluated in the order
WAIT or REST, then the places of the interface, then the service plane. -/
def State.holdOf (s : State) (t : Nat) (w : Word) : Option (HoldKind × Nat × Nat) :=
  let x := s.tile t
  let f := bits w 27 18
  let c := bits w 17 14
  match bits w 31 28 with
  | 1 => if x.flag f < c then some (.wait, f, c) else none
  | 8 => if x.flag f < c then some (.rest, f, c) else none
  | 3 => if x.placesFull then some (.retry, 0, 0) else none
  | 4 => if x.placesFull then some (.retry, 0, 0) else none
  | 6 =>
    if x.placesFull then some (.retry, 0, 0)
    else if s.svcAccepts t (bits w 27 20) (bits w 6 5) then none
    else some (.svc, 0, 0)
  | _ => none

/-- The action of a control word that does not hold (R112), before the BP and WU instructions read the tile; a
reserved one acts as NOP (R114). -/
def State.ctrlAct (s : State) (t : Nat) (w : Word) : State :=
  let f := bits w 27 18
  let c := bits w 17 14
  let consume (s : State) : State := s.modTile t fun x => (x.consume f c).getD x
  match bits w 31 28 with
  | 1 => consume s
  | 8 => consume s
  | 2 => s.signalOp t (bits w 27 21) (bits w 20 11)
  | 3 => s.sendOp t (bits w 27 20) (bits w 19 19) (bits w 18 15) (bits w 14 7) false
  | 4 => s.sendOp t (bits w 27 20) (bits w 19 19) (bits w 18 15) (bits w 14 7) true
  | 6 => s.svcOp t (bits w 27 20) (bits w 19 19) (bits w 18 15) (bits w 14 7) (bits w 6 5)
  | 7 => s.markOp t (w.setWidth 16)
  | _ => s

/-- A step that does not hold: arrivals have been applied, results and accesses due have taken place; the control
word acts, then BPs and WUs execute, then a DEQ moves its entry; END, or step 1,023 without END, ends the
recipe (R119, R127, R131). The errors of the whole step, those of `errs` among them, are recorded in the order
of R108. -/
def State.runStep (s : State) (t : Nat) (errs : List StepErr) : State :=
  let x := s.tile t
  let w := x.ctrlWord x.step
  let op := bits w 31 28
  let r := (s.ctrlAct t w).execUnits t
  let s := r.1.stepErrs t (errs ++ r.2 ++ x.ctrlErrs w)
  let s := if op = 5 then s.deqOp t (bits w 27 22) (bits w 21 16) else s
  if op = 15 then s.drain t
  else if x.step = 1023 then ((s.tileErr t 1 0x1016 0).haltRequest 8).drain t
  else s.advance t

/-- Step s of tile t. A tile whose control word holds it keeps everything, the results and accesses in flight
among it (R75); else the results and pantry accesses due in the step take place and the step runs. -/
def State.tileStep (s : State) (t : Nat) : State :=
  let n := (s.tile t).step
  let s := s.replayArrivals t n
  let x := s.tile t
  match s.holdOf t (x.ctrlWord n) with
  | some (k, f, c) => s.setTile t (x.holdFor k f c)
  | none =>
    let r := s.flowErrs t n
    r.1.runStep t r.2

/-- A tile in its execute phase. -/
def State.executing (s : State) (t : Nat) : Bool :=
  let x := s.tile t
  x.phase = .exec && x.vtile.isSome && !s.isHalted

/-- A tile in its execute phase that does not hold. -/
def State.stepping (s : State) (t : Nat) : Bool := s.executing t && (s.tile t).hold.isNone

/-- TILE_STEP: the tile executes its step; a tile that holds for a service token tries again (R128). -/
def execTileStep (t : Nat) (s : State) : Out :=
  onTile t (whenDue
    (s.executing t && match (s.tile t).hold with | none => true | some h => h.kind = .svc)
    s (s.tileStep t))

/-! ## Word unit commands: the one instruction, issued in the tile's current step -/

/-- WU u of tile t issues one instruction; its errors are recorded. -/
@[inline] def wuRow (t u : Nat) (g : Tile → TileRes) (s : State) : Out :=
  guardUnit (t < numTiles && u < 16)
    (whenDue (s.stepping t) s (let r := g (s.tile t); (s.setTile t r.1).stepErrs t r.2))

def execWuNop (t u : Nat) (f : WuFields) (s : State) : Out := wuRow t u (fun x => wuNop x u f) s
def execMov (t u : Nat) (f : WuFields) (s : State) : Out := wuRow t u (fun x => wuMov x u f) s
def execAdd (t u : Nat) (f : WuFields) (s : State) : Out := wuRow t u (fun x => wuAdd x u f) s
def execSub (t u : Nat) (f : WuFields) (s : State) : Out := wuRow t u (fun x => wuSub x u f) s
def execAnd (t u : Nat) (f : WuFields) (s : State) : Out := wuRow t u (fun x => wuAnd x u f) s
def execOr (t u : Nat) (f : WuFields) (s : State) : Out := wuRow t u (fun x => wuOr x u f) s
def execXor (t u : Nat) (f : WuFields) (s : State) : Out := wuRow t u (fun x => wuXor x u f) s
def execCmp (t u : Nat) (f : WuFields) (s : State) : Out := wuRow t u (fun x => wuCmp x u f) s
def execSel (t u : Nat) (f : WuFields) (s : State) : Out := wuRow t u (fun x => wuSel x u f) s
def execShl (t u : Nat) (f : WuFields) (s : State) : Out := wuRow t u (fun x => wuShl x u f) s
def execShr (t u : Nat) (f : WuFields) (s : State) : Out := wuRow t u (fun x => wuShr x u f) s
def execSar (t u : Nat) (f : WuFields) (s : State) : Out := wuRow t u (fun x => wuSar x u f) s
def execRor (t u : Nat) (f : WuFields) (s : State) : Out := wuRow t u (fun x => wuRor x u f) s
def execExt (t u : Nat) (f : WuFields) (s : State) : Out := wuRow t u (fun x => wuExt x u f) s
def execIns (t u : Nat) (f : WuFields) (s : State) : Out := wuRow t u (fun x => wuIns x u f) s
def execMrg (t u : Nat) (f : WuFields) (s : State) : Out := wuRow t u (fun x => wuMrg x u f) s
def execMulu (t u : Nat) (f : WuFields) (s : State) : Out := wuRow t u (fun x => wuMulu x u f) s
def execMuls (t u : Nat) (f : WuFields) (s : State) : Out := wuRow t u (fun x => wuMuls x u f) s
def execLd (t u : Nat) (f : WuFields) (s : State) : Out := wuRow t u (fun x => wuLd x u f) s
def execLdh (t u : Nat) (f : WuFields) (s : State) : Out := wuRow t u (fun x => wuLdh x u f) s
def execSt (t u : Nat) (f : WuFields) (s : State) : Out := wuRow t u (fun x => wuSt x u f) s
def execSth (t u : Nat) (f : WuFields) (s : State) : Out := wuRow t u (fun x => wuSth x u f) s

/-- PANTRY_ACCESS: the accesses of the instructions issued two steps before the current one take place
(R103 to R105). -/
def execPantryAccess (t : Nat) (s : State) : Out :=
  onTile t (whenDue (s.stepping t) s (
    let r := (s.tile t).pantryStep (s.env t) (s.tile t).step
    (((s.setTile t r.x).countReg .tilDpStall 0xFFFFFFFF r.stall t).watchAll t r.watches).stepErrs t r.errs))

/-- WU_RESULT_VISIBLE: every result due by the current step is written (R98, R100). -/
def execWuResultVisible (t : Nat) (s : State) : Out :=
  onTile t (whenDue (s.stepping t) s (s.modTile t fun x => x.landDue x.step))

/-! ## Control word commands: the action of one control word in the tile's current step -/

/-- A control word action of tile t. -/
@[inline] def ctrlRow (t : Nat) (s : State) (g : State → State) : Out :=
  onTile t (whenDue (s.stepping t) s (g s))

def execNop (t : Nat) (s : State) : Out := ctrlRow t s id

/-- WAIT or REST: COUNT 0 executes as NOP and is reported (R114); else it consumes or holds. -/
def State.waitOp (s : State) (t flag count : Nat) (k : HoldKind) : State :=
  if count = 0 then s.stepErrs t [(s.tile t).ctrlIllegal]
  else
    match (s.tile t).consume flag count with
    | some y => s.setTile t y
    | none => s.setTile t ((s.tile t).holdFor k flag count)

def execWait (t flag count : Nat) (s : State) : Out :=
  guardUnit (flag < 1024 && count < 16) (ctrlRow t s fun s => s.waitOp t flag count .wait)

def execRest (t flag count : Nat) (s : State) : Out :=
  guardUnit (flag < 1024 && count < 16) (ctrlRow t s fun s => s.waitOp t flag count .rest)

/-- WAIT_RELEASE: the flag of a held WAIT or REST has reached COUNT; the tile subtracts it and executes
the step (R118). -/
def execWaitRelease (t : Nat) (s : State) : Out :=
  onTile t (whenDue
    (s.executing t && match (s.tile t).hold with
      | some h => (h.kind = .wait || h.kind = .rest) && decide (h.count ≤ (s.tile t).flag h.flag)
      | none => false)
    s (s.tileStep t))

def execSignal (t vt flag : Nat) (s : State) : Out :=
  guardUnit (vt < 128 && flag < 1024) (ctrlRow t s fun s => s.signalOp t vt flag)

/-- SEND, ENQ or SVC of a tile whose interface has no free place holds (R138). -/
def State.orHold (s : State) (t : Nat) (g : State → State) : State :=
  if (s.tile t).placesFull then s.modTile t fun x => x.holdFor .retry 0 0 else g s

/-- SEND, ENQ or SVC with the errors of its data read recorded (R113). -/
def State.withSource (s : State) (t src wu reg : Nat) (g : State → State) : State :=
  (g s).stepErrs t ((s.tile t).source src wu reg).2

def execSend (t entry src wu reg : Nat) (s : State) : Out :=
  guardUnit (entry < 256 && src < 2 && wu < 16 && reg < 256)
    (ctrlRow t s fun s => s.orHold t fun s =>
      s.withSource t src wu reg fun s => s.sendOp t entry src wu reg false)

def execEnq (t entry src wu reg : Nat) (s : State) : Out :=
  guardUnit (entry < 256 && src < 2 && wu < 16 && reg < 256)
    (ctrlRow t s fun s => s.orHold t fun s =>
      s.withSource t src wu reg fun s => s.sendOp t entry src wu reg true)

def execDeq (t q slot : Nat) (s : State) : Out :=
  guardUnit (q < 64 && slot < 64) (ctrlRow t s fun s => s.deqOp t q slot)

def execSvc (t tmpl src wu reg token : Nat) (s : State) : Out :=
  guardUnit (tmpl < 256 && src < 2 && wu < 16 && reg < 256 && token < 4)
    (ctrlRow t s fun s => s.orHold t fun s =>
      if s.svcAccepts t tmpl token then s.withSource t src wu reg fun s => s.svcOp t tmpl src wu reg token
      else s.modTile t fun x => x.holdFor .svc 0 0)

def execMark (t : Nat) (value : Half) (s : State) : Out := ctrlRow t s fun s => s.markOp t value

/-- END: the step executes in full, the work in flight completes and the tile rests (R76, R131). -/
def execEndStep (t : Nat) (s : State) : Out :=
  ctrlRow t s fun s =>
    let f := s.flowErrs t (s.tile t).step
    let r := f.1.execUnits t
    (r.1.stepErrs t (f.2 ++ r.2)).drain t

/-- RETRY_BUFFER_FREE: a place is free; the tile that holds before SEND, ENQ or SVC proceeds (R138). -/
def execRetryBufferFree (t : Nat) (s : State) : Out :=
  onTile t (whenDue
    (s.executing t && !(s.tile t).placesFull && match (s.tile t).hold with
      | some h => h.kind = .retry
      | none => false)
    s (s.tileStep t))

/-! ## Limits of holds (R121, R122, R143) -/

/-- WAIT_TIMEOUT recorded at tile t with its reason, and the device stopped at once; ALERT_N is raised
(R142, R143). -/
def State.waitTimeout (s : State) (t reason : Nat) (h : Hold) : State :=
  let x := s.tile t
  let fields := if reason < 2 then h.flag * 2 ^ 12 + x.flag h.flag * 2 ^ 8 + h.count * 2 ^ 4 else 0
  ((s.tileErr t 1 0x1010 (x.step * 2 ^ 22 + fields + reason)).alert 0 true).immediateStop 10

/-- WAIT_TIMEOUT: a WAIT, a retry-buffer hold or a service hold has counted more than
TIL_WAIT_LIMIT.NS (R121). -/
def execWaitTimeout (t : Nat) (s : State) : Out :=
  let limit := (s.rd .tilWaitLimit t).toNat
  onTile t (
    match (s.tile t).hold with
    | some h =>
      whenDue (s.executing t && h.kind ≠ .rest && limit ≠ 0 && decide (limit < h.ns)) s
        (s.waitTimeout t (match h.kind with | .wait => 0 | .rest => 1 | .retry => 2 | .svc => 3) h)
    | none => .next s)

/-- REST_TIMEOUT: a REST has counted more than TIL_REST_LIMIT.US × 1,000 ns (R122). -/
def execRestTimeout (t : Nat) (s : State) : Out :=
  let limit := (s.rd .tilRestLimit t).toNat * 1000
  onTile t (
    match (s.tile t).hold with
    | some h =>
      whenDue (s.executing t && h.kind = .rest && limit ≠ 0 && decide (limit < h.ns)) s
        (s.waitTimeout t 1 h)
    | none => .next s)

/-! ## Arrivals -/

/-- Whether the k-th packet of a list may arrive: no earlier one comes from the same source tile
(R124: packets of one source are applied in issue order). -/
def mayArrive (l : List Packet) (k : Nat) : Option Packet :=
  match l[k]? with
  | some p =>
    if (l.take k).any fun q => q.srcDev = p.srcDev && q.srcVt = p.srcVt then none else some p
  | none => none

/-- PACKET_ARRIVAL: the k-th local packet on its way arrives and is applied (R119); a destination that
this device does not serve is DEST_INVALID reason 2 at the source (R142). -/
def execPacketArrival (k : Nat) (s : State) : Out :=
  match mayArrive s.net.loc k with
  | none => .next s
  | some p =>
    let s := { s with net := { s.net with loc := s.net.loc.eraseIdx k } }
    match s.ptile p.dstVt with
    | some t => .next (s.applyPacket t p)
    | none =>
      match s.ptile p.srcVt with
      | some t => .next (s.destInvalid t p.step (p.entry % 256 * 2 ^ 14) 2)
      | none => .next s

/-- REMOTE_PACKET_ARRIVAL: the k-th delivered remote packet reaches its tile (R135). -/
def execRemotePacketArrival (k : Nat) (s : State) : Out :=
  match mayArrive s.net.arrivals k with
  | none => .next s
  | some p =>
    .next (({ s with net := { s.net with arrivals := s.net.arrivals.eraseIdx k } }).arriveRemote p)

/-- PACKET_RESEND: 160 ns after its refusal, the first refused packet of an entry is sent again when no
other packet of the entry awaits an answer (R137 item 3); one that has no route any more is removed (R349), and the
packets behind it are held no longer. -/
def execPacketResend (t entry : Nat) (s : State) : Out :=
  guardUnit (t < numTiles && entry < 256) (
    let x := s.tile t
    let mine := x.retry.filter fun r => r.pkt.entry = entry
    let awaiting := mine.any fun r => match r.stage with | .awaiting _ => true | _ => false
    match x.retry.findIdx? fun r =>
        r.pkt.entry = entry && match r.stage with | .refused _ => true | _ => false with
    | some i =>
      let old := match x.retry[i]?.map fun r => r.stage with
        | some (.refused n) => decide (160 ≤ n)
        | _ => false
      whenDue (old && !awaiting) s (State.pump t 33 (s.sendPlace t i true))
    | none => .next s)

end Sys2Proof.Machine
end

