-- ==== Sys2Proof/Machine/Memory.lean ====
section
/-! DEFINITION. Bank ownership and handovers, retention, scrub and repair of DDR (R281 to R309). -/

namespace Sys2Proof.Machine

/-! ## Banks and their registers (R282, R305) -/

/-- The ownership register of a pantry bank or of a larder bank. -/
def State.own (s : State) (larder : Bool) (t b : Nat) : Word :=
  if larder then s.rd .memLown b else s.rd .tilPanOwn t b

def State.setOwn (s : State) (larder : Bool) (t b : Nat) (w : Word) : State :=
  if larder then s.wr .memLown w b else s.wr .tilPanOwn w t b

/-- The page that reports a bank's errors and handovers. -/
def ownPage (larder : Bool) (t : Nat) : Nat := if larder then lownPage else tilePage t 5

/-- Error codes of ownership: 0 BAD, 1 BUSY, 2 RUNNING. -/
def ownCode (larder : Bool) (k : Nat) : Nat := (if larder then 0x3010 else 0x1030) + k

/-- FAILED of an ownership register. -/
def ownFailed (w : Word) : Bool := bit w 30

/-- Larder banks of an owner KIND; a FAILED bank is out of service (R295). -/
def State.larderOf (s : State) (kind : Nat) : List Nat :=
  (List.range 64).filter fun b => bits (s.rd .memLown b) 11 8 = kind && !ownFailed (s.rd .memLown b)

/-- Banks of MCACHE beside bank b: those it owns, and handovers to it in progress (R282). -/
def State.mcacheCount (s : State) (b : Nat) : Nat :=
  ((List.range 64).filter fun c => c ≠ b && (bits (s.rd .memLown c) 11 8 = 6 ||
    s.mem.handovers.any fun h => h.larder && h.bank = c && h.kind = 6)).length

/-- Whether an owner may be named for a bank (R282). -/
def State.ownerOk (s : State) (larder : Bool) (b kind index : Nat) : Bool :=
  match kind with
  | 0 => index = 0
  | 1 => !larder && index = 0
  | 2 => index = 0
  | 3 => decide (index < 8)
  | 4 => larder && index = 0
  | 5 => larder && index = 0
  | 6 => larder && index = 0 && decide (s.mcacheCount b < 48)
  | _ => false

/-- SVC_CACHE_CTRL.BANKS brought up to date. -/
def State.setBanks (s : State) : State := s.setFld .svcCacheCtrl 6 0 (s.larderOf 6).length

/-! ## Access times (R291) -/

/-- LARDER_RETAIN: an owned larder bank idle for LARDER_US enters retention. -/
def execLarderRetain (bank : Nat) (s : State) : Out :=
  guardUnit (bank < 64) (
    let us := s.fld .memRetCfg 15 0
    let idle := Table.get (fun _ => 0) s.mem.larderIdleNs bank
    whenDue (bits (s.rd .memLown bank) 11 8 ≠ 0 && decide (us ≠ 0) && decide (us * 1000 ≤ idle)) s
      (s.wr .memLown (setBit (s.rd .memLown bank) 29 true) bank))

/-! ## Handovers (R283 to R288) -/

/-- Step 1 of a handover: PENDING. KIND and INDEX still read the old owner. -/
def State.startHandover (s : State) (h : Handover) : State :=
  let w := s.own h.larder h.ptile h.bank
  let w := setBit (setBit (setBit w 31 true) 29 false) 16 h.clear
  let s := s.setOwn h.larder h.ptile h.bank w
  { s with mem := { s.mem with handovers := s.mem.handovers ++ [h] } }

/-- A handover that the device starts waits for one of the bank that is in progress (R283). -/
def State.deviceHandover (s : State) (h : Handover) : State :=
  if ownPending (s.own h.larder h.ptile h.bank) then
    { s with mem := { s.mem with waiting := s.mem.waiting ++ [h] } }
  else s.startHandover h

/-- Every byte of a bank zeroed; a pantry write sets the dirty bits of its lines (R283, R478). -/
def State.clearBank (s : State) (larder : Bool) (t b : Nat) : State :=
  if larder then
    { s with mem := { s.mem with larder := s.mem.larder.zero (b * 2 ^ 19) (2 ^ 19) } }
  else
    s.modTile t fun x =>
      let d (m : Table Bool) : Table Bool :=
        (List.range 1024).foldl (fun m i => Table.set (fun _ => false) m (b * 1024 + i) true) m
      { x with
        pantry := x.pantry.zero (b * 2 ^ 16) (2 ^ 16)
        dirty0 := d x.dirty0
        dirty1 := d x.dirty1 }

/-- The drain of the old owner: for MCACHE, the bank's dirty lines are written back and its lines
leave the cache (R283, R285). -/
def State.drainBank (s : State) (larder : Bool) (b : Nat) : State :=
  if larder && bits (s.rd .memLown b) 11 8 = 6 then
    (s.svc.cache.filter fun c => c.bank = b).foldl
      (fun s c => (if c.dirty then (s.writeBack c).2 else s).uncache c.line) s
  else s

/-- Whether a record is of a bank. -/
def Handover.of (h : Handover) (larder : Bool) (t b : Nat) : Bool :=
  h.larder = larder && (larder || h.ptile = t) && h.bank = b

/-- Steps 2 to 4 of a handover; then a waiting handover of the bank starts. The change of owner, which wakes a
larder bank (R266), restarts its idle count (R291; assumption 77). -/
def State.endHandover (s : State) (h : Handover) : State :=
  let s := s.drainBank h.larder h.bank
  let s := if h.clear then s.clearBank h.larder h.ptile h.bank else s
  let w := s.own h.larder h.ptile h.bank
  let w := setBits (setBits (setBit (setBit w 31 false) 16 false) 11 8 h.kind) 7 0 h.index
  let w := setBit w 29 (h.larder && h.kind = 0)
  let s := s.setOwn h.larder h.ptile h.bank w
  let s := { s with mem := { s.mem with handovers := s.mem.handovers.erase h } }
  let s := if h.larder then { s with mem := { s.mem with
      larderIdleNs := Table.set (fun _ => 0) s.mem.larderIdleNs h.bank 0 } } else s
  let s := (s.setBanks).cause (ownPage h.larder h.ptile) 1
  match s.mem.waiting.find? fun q => q.of h.larder h.ptile h.bank with
  | some q => ({ s with mem := { s.mem with waiting := s.mem.waiting.erase q } }).startHandover q
  | none => s

/-- HANDOVER_COMPLETE: the drain and the clear of a bank's handover end. -/
def execHandoverComplete (larder : Bool) (ptile bank : Nat) (s : State) : Out :=
  guardUnit (if larder then bank < 64 else ptile < numTiles && bank < 16) (
    match s.mem.handovers.find? fun h => h.of larder ptile bank with
    | some h => .next (s.endHandover h)
    | none => .next s)

/-- Every handover in progress carried to its end, the waiting ones too; `fuel` bounds them. -/
def State.endAllHandovers : Nat → State → State
  | 0, s => s
  | n + 1, s =>
    match s.mem.handovers with
    | [] => s
    | h :: _ => State.endAllHandovers n (s.endHandover h)

/-- Handovers in progress or waiting. -/
def State.handoverCount (s : State) : Nat := s.mem.handovers.length + s.mem.waiting.length

/-- TILE_ASLEEP on page 0 of tile t: page index and offset of the dropped write (R46). -/
def State.asleepErr (s : State) (t pg off : Nat) : State := s.tileErr t 0 0x1001 (pg * 2 ^ 12 + off)

/-- LDR_STAT.STATE is HEADER, STAGE, WRITE, CHECK or COMMIT. -/
def State.loading (s : State) : Bool :=
  match s.ldr.state with
  | .header => true
  | .stage => true
  | .write => true
  | .check => true
  | .commit => true
  | _ => false

/-- A host write of an ownership register (R282, R283, R286). -/
def State.writeOwn (s : State) (larder : Bool) (t b : Nat) (val : Word) : State :=
  let w := s.own larder t b
  let kind := bits val 11 8
  let index := bits val 7 0
  let page := ownPage larder t
  let busy (r : Nat) : State := s.err page (ownCode larder 1) (b * 2 ^ 24 + r)
  if !larder && (s.tile t).power ≠ .on then s.asleepErr t 5 (0x40 + 4 * b)
  else if ownPending w then busy 0
  else if bits w 11 8 = 2 && s.loading then busy 1
  else if bits w 11 8 = 5 && s.acqArmed then busy 2
  else if !larder && (bits w 11 8 = 1 || kind = 1) && s.run.state = .run then
    s.err page (ownCode larder 2) (b * 2 ^ 24)
  else if !s.ownerOk larder b kind index || ownFailed w then
    s.err page (ownCode larder 0) (b * 2 ^ 24 + bits val 11 0)
  else s.startHandover ⟨larder, if larder then 0 else t, b, kind, index, bit val 16⟩

/-- OWN_HANDOVER: a write to TIL_PAN_OWN or MEM_LOWN. -/
def execOwnHandover (larder : Bool) (ptile bank : Nat) (val : Word) (s : State) : Out :=
  guardUnit (if larder then bank < 64 else ptile < numTiles && bank < 16) (onWrite (ownPage larder ptile) s (
    .next (s.writeOwn larder ptile bank val)))

/-! ## DDR errors, scrub and repair (R300 to R303) -/

/-- The lines of installed DDR, carve-out included. -/
def State.ddrLines (s : State) : Nat := s.ddrInstalled / 64

/-- The time between two patrol items, so that a pass over the installed capacity takes MEM_SCRUB.HOURS; 0 acts as
1 (R302, R309). -/
def State.scrubDue (s : State) : Bool :=
  let hours := max 1 (s.fld .memScrub 15 0)
  decide (hours * 3600000000000 * 4096 ≤ s.mem.scrubNs * s.ddrLines)

/-- SCRUB_ISSUE: the next patrol item of 4,096 lines; a new pass starts its counts again. -/
def execScrubIssue (s : State) : Out :=
  whenDue (s.reachable && bit (s.rd .memScrub) 31 && s.pageEn (chanPage 0) && decide (s.ddrLines ≠ 0) && s.scrubDue) s (
    let r := s.issueInternal { blankItem .memory 0x50 0 (BitVec.ofNat 64 (64 * s.mem.scrubNext)) with
      t0 := some 4096 }
    if r.1 then
      let m := if s.mem.scrubNext = 0 then { r.2.mem with ceDevice := [], ceRow := [] } else r.2.mem
      let next := m.scrubNext + 4096
      { r.2 with mem := { m with scrubNext := if s.ddrLines ≤ next then 0 else next, scrubNs := 0 } }
    else s)

/-- The DDR lines of a scrub item: BASE and T0 (R218), within the installed capacity. DEDUCED (assumption 86): BASE is
a byte address, as it is of every other item, and T0 counts lines. -/
def State.scrubLine (s : State) (i : SvcItem) (l : Nat) : Bool :=
  decide (i.w1.toNat / 64 ≤ l) && decide (l < i.w1.toNat / 64 + i.tok0.toNat) && decide (l < s.ddrLines)

/-- The first line that a scrub item has on each channel: the lines of 16 KiB touch every one (R298). -/
def State.scrubFirst (s : State) (i : SvcItem) : List Nat :=
  (List.range 8).filterMap fun c => (List.range' (i.w1.toNat / 64) (min 256 i.tok0.toNat)).find? fun l =>
    s.scrubLine i l && s.ddrChannel (64 * l) = c

/-- The first line of a scrub item on a channel: the channel wakes for it, or, where the engine or the channel takes no
request, the item fails there (R20, assumption 69). -/
def State.scrubMeet (r : List Nat × State) (l : Nat) : List Nat × State :=
  let s := r.2
  if s.engineTakes (64 * l) then (r.1, s.touchChannel (s.ddrChannel (64 * l)))
  else (r.1 ++ [s.ddrChannel (64 * l)], s.ddrUe (64 * l))

/-- An error that a scrub item meets in a line: corrected and counted, or DDR_UE where the channel cannot correct it. -/
def State.scrubEvent (i : SvcItem) (r : List Nat × State) (l : Nat) (d : Dram) : List Nat × State :=
  let s := r.2
  let c := s.ddrChannel (64 * l)
  if !s.scrubLine i l || !s.engineTakes (64 * l) then r
  else if s.dramFails c d then (r.1 ++ [c], s.ddrUe (64 * l))
  else (r.1, s.dramMeets c d)

/-- SCRUB: a request without data, key or rights check to the engine for each line of the item's range (R302).
`corrected` holds the line, rank, device and row of the errors that the lines meet, `bad` the lines with errors in two
devices. No value changes. -/
def execScrub (eng : Nat) (corrected : List (Nat × Nat × Nat × Nat)) (bad : List Nat) (s : State) : Out :=
  onEngine eng 0x50 s fun i =>
    let r := (s.scrubFirst i).foldl State.scrubMeet (([] : List Nat), s)
    let r := corrected.foldl (fun r e => State.scrubEvent i r e.1 (.corrected e.2.1 e.2.2.1 e.2.2.2)) r
    let r := bad.foldl (fun r l => State.scrubEvent i r l .failed) r
    r.2.endLines eng i (match r.1 with | [] => .ok [] | c :: _ => .ue c)

/-- MEM_CH_CE_READ. -/
def execMemChCeRead (ch : Nat) (via : Via) (s : State) : Out :=
  guardUnit (ch < 8) (onRead (chanPage ch) via s (
    .next (s.readClear (chanPage ch) via .memChCe 0xFFFFFFFF ch)))

/-- DDR_IDLE_SELF_REFRESH: a channel without access for PWR_IDLE.DDR_MS enters self-refresh (R265; that only the
step PLL's stop waits for a halt is assumption 43). -/
def execDdrIdleSelfRefresh (ch : Nat) (s : State) : Out :=
  guardUnit (ch < 8) (
    let ms := s.fld .pwrIdle 31 16
    let idle := Table.get (fun _ => 0) s.mem.chIdleNs ch
    whenDue (decide (ms ≠ 0) && decide (ms * 1000000 ≤ idle) &&
        bit (s.rd .memChCfg ch) 31 && decide (ch ∉ s.mem.selfRefresh)) s
      { s with mem := { s.mem with selfRefresh := s.mem.selfRefresh ++ [ch] } })

end Sys2Proof.Machine
end

