-- ==== Sys2Proof/Machine/Acquire.lean ====
section
/-! DEFINITION. The acquisition engine: probes, units, sequencer, segments, stream and spill (R418 to
R449), with the CRIER record (R461). -/

namespace Sys2Proof.Machine

/-! ## Probes (R418 to R421) -/

/-- The width of a tile in 64-bit words. -/
def Tile.width (x : Tile) : Nat := ceilDiv x.probes 64

/-- H, the depth of a tile's history in batches. -/
def Tile.histDepth (x : Tile) : Nat := if x.probes = 0 then 0 else 245760 / (8 * x.width)

/-- The value of a probe entry at a batch end. -/
def Tile.probeBit (x : Tile) (din : BitVec 128) (w : Word) : Bool :=
  match bits w 31 30 with
  | 0 => x.nowBit (bits w 29 21) (bits w 20 11)
  | 1 => bit (x.wreg (bits w 29 26) (bits w 25 18)) (bits w 17 13)
  | 2 => bit din (bits w 6 0)
  | _ => false

/-- The probe vector of a tile. -/
def Tile.probeVec (x : Tile) (din : BitVec 128) : BitVec 256 :=
  BitVec.ofNat 256 ((List.range x.probes).foldl (fun a i =>
    a + b2n (x.probeBit din (Table.get (fun _ => 0) x.probeList i)) * 2 ^ i) 0)

/-- The history and its marks with the vector of batch n, newest first. A replayed batch is written again in
its place, the later batches of the history standing (R435). -/
def Tile.sample (x : Tile) (din : BitVec 128) (n : DWord) (replayed : Bool) : Tile :=
  if x.probes = 0 then x
  else
    let newer := if replayed then x.history.filter fun h => decide (n.toNat < h.1.toNat) else []
    let older := x.history.filter fun h => decide (h.1.toNat < n.toNat)
    { x with
      history := (newer ++ (n, x.probeVec din) :: older).take x.histDepth
      marks := x.marks.filter fun m => decide (n.toNat < m.batch.toNat + x.histDepth) }

/-- The vector of batch n in a tile's history; what a history does not hold reads as 0. -/
def Tile.vecOf (x : Tile) (n : DWord) : BitVec 256 :=
  ((x.history.find? fun h => h.1 = n).map fun h => h.2).getD 0

/-- Probe word k of a vector. -/
def probeWord (v : BitVec 256) (k : Nat) : Word := v.extractLsb' (32 * k) 32

/-- The tiles that take part: virtual tile and physical tile, in virtual tile order. -/
def State.acqTiles (s : State) : List (Nat × Nat) :=
  (List.range s.reqTiles).filterMap fun v =>
    match s.ptile v with
    | some t => if (s.tile t).probes = 0 then none else some (v, t)
    | none => none

/-! ## The stream (R438, R439) -/

/-- Blocks of the stream. -/
def Acq.total (a : Acq) : Nat := 128 * a.banks.length

/-- The larder address of a stream block. -/
def Acq.blockAddr (a : Acq) (k : Nat) : Nat := a.banks.getD (k / 128) 0 * 2 ^ 19 + k % 128 * 4096

/-- Bytes written into the larder by the engine: a bank under test does not take them (R495). -/
def State.acqBytes (s : State) (addr : Nat) (d : List Byte) : State :=
  if s.underTest (136 + addr / 2 ^ 22) then s
  else
    let s := s.touchLarder (addr / 2 ^ 19)
    { s with mem := { s.mem with larder := s.mem.larder.writeBytes addr d } }

/-- The block in progress complete. -/
def State.completeBlock (s : State) : State :=
  { s with acq := { s.acq with
    blocks := s.acq.blocks ++ [s.acq.wrBlock]
    wrBlock := (s.acq.wrBlock + 1) % s.acq.total
    wrUnits := 0 } }

/-- A record header (R443). -/
def recHead (type vtile len seg count width : Nat) (batch : DWord) : List Byte :=
  leBytes 1 type ++ leBytes 1 vtile ++ leBytes 2 len ++ leBytes 2 seg ++ leBytes 1 count ++
    leBytes 1 width ++ leBytes 8 batch.toNat

/-- A record: header and payload, padded with 0 to 16 bytes. -/
def mkRec (type vtile seg count width : Nat) (batch : DWord) (payload : List Byte) : List Byte :=
  let units := 1 + ceilDiv payload.length 16
  recHead type vtile units seg count width batch ++ payload ++
    List.replicate (16 * (units - 1) - payload.length) 0

/-- The rest of the block in progress filled with a PAD record. -/
def State.padBlock (s : State) : State :=
  if s.acq.wrUnits = 0 then s
  else
    (s.acqBytes (s.acq.blockAddr s.acq.wrBlock + 16 * s.acq.wrUnits)
      (recHead 0 0xFF (256 - s.acq.wrUnits) s.acq.segment 0 0 0)).completeBlock

/-- Whether the block in progress can take a record's first unit: it is begun, or free. -/
def Acq.blockFree (a : Acq) : Bool :=
  decide (0 < a.total) && (decide (0 < a.wrUnits) || !decide (a.wrBlock ∈ a.blocks))

/-- A record written at the end of the stream; none when it finds no room. -/
def State.acqWrite (s : State) (r : List Byte) : Option State :=
  let n := r.length / 16
  let s := if 0 < s.acq.wrUnits ∧ 256 < s.acq.wrUnits + n then s.padBlock else s
  if s.acq.blockFree then
    let s := s.acqBytes (s.acq.blockAddr s.acq.wrBlock + 16 * s.acq.wrUnits) r
    let s : State := { s with acq := { s.acq with wrUnits := s.acq.wrUnits + n } }
    some (if s.acq.wrUnits = 256 then s.completeBlock else s)
  else none

/-- A directory entry changed. -/
def State.modDir (s : State) (seg : Nat) (f : DirEntry → DirEntry) : State :=
  { s with acq := { s.acq with dirs := s.acq.dirs.map fun d => if d.segment = seg then f d else d } }

/-- The block that takes the next record of n units. -/
def Acq.nextBlock (a : Acq) (n : Nat) : Nat :=
  if 0 < a.wrUnits ∧ 256 < a.wrUnits + n then (a.wrBlock + 1) % a.total else a.wrBlock

/-- The block of a SEG_START or REARM record noted; a REARM ends its block under SEGFLUSH (R438). -/
def State.noteRecord (s : State) (kind seg block : Nat) : State :=
  match kind with
  | 1 => s.modDir seg fun d => { d with startBlock := some block }
  | 2 =>
    let s := s.modDir seg fun d => { d with rearmBlock := some block }
    if bit (s.rd .acqCtrl) 24 then s.padBlock else s
  | _ => s

/-- Records that wait, written in order as far as there is room. One that does not fit in the rest of its block fills
that rest, whether or not a block is free after it (R438). -/
def State.flushQueue : Nat → State → State
  | 0, s => s
  | n + 1, s =>
    match s.acq.out with
    | [] => s
    | (kind, seg, r) :: rest =>
      let block := s.acq.nextBlock (r.length / 16)
      match s.acqWrite r with
      | none => s.padBlock
      | some t =>
        State.flushQueue n
          (({ t with acq := { t.acq with out := rest } } : State).noteRecord kind seg block)

/-- The GAP record of dropped batches, labelled with the segment that dropped them. -/
def State.gapRec (s : State) (b : DWord) (n : Nat) : List Byte :=
  mkRec 0x0A 0xFF s.acq.segment 0 0 b (leBytes 16 n)

/-- At the end of a segment its dropped batches get their GAP record, before SEG_END (R439, R443). -/
def State.closeGap (s : State) : State :=
  match s.acq.gap with
  | [] => s
  | b :: rest =>
    { s with acq := { s.acq with
      out := s.acq.out ++ [(0, s.acq.segment, s.gapRec b (rest.length + 1))], gap := [] } }

/-- The queue flushed, and then the GAP record of dropped batches once there is room. -/
def State.flushOut (s : State) : State :=
  let s := s.flushQueue s.acq.out.length
  match s.acq.out, s.acq.gap with
  | [], b :: rest =>
    match s.acqWrite (s.gapRec b (rest.length + 1)) with
    | some t => { t with acq := { t.acq with gap := [] } }
    | none => s.padBlock
  | _, _ => s

/-- A record that waits for room when there is none. -/
def State.putRecord (s : State) (kind seg : Nat) (r : List Byte) : State :=
  ({ s with acq := { s.acq with out := s.acq.out ++ [(kind, seg, r)] } }).flushOut

/-- The records of a batch written as a whole; none when one of them finds no room. -/
def State.putAll (s : State) : List (List Byte) → Option State
  | [] => some s
  | r :: rest =>
    match s.acqWrite r with
    | some t => State.putAll t rest
    | none => none

/-- Batches dropped from the stream (R439): counted once each, the first of a gap recorded. -/
def State.dropBatches (s : State) (l : List DWord) : State :=
  let fresh := l.filter fun b => !decide (b ∈ s.acq.gap)
  let s := match s.acq.gap, fresh with
    | [], b :: _ => s.err acqPage 0x5103 (lo32 b).toNat
    | _, _ => s
  let s := s.countReg .acqDropped 0xFFFFFFFF fresh.length
  { s with acq := { s.acq with
    gap := s.acq.gap ++ fresh
    seg := s.acq.seg.map fun g => { g with dropped := g.dropped + fresh.length } } }

/-- BACKPRESSURE. -/
def State.backpressure (s : State) : Bool := bit (s.rd .acqCtrl) 26

/-- Condition 1 of R22 as R439 gives it. -/
def State.acqRoom (s : State) : Bool :=
  !s.backpressure || s.acq.state = .idle || (s.acq.out.isEmpty && s.acq.blockFree)

/-- The records of some batches put into the stream: without room they wait under BACKPRESSURE, and are
dropped otherwise. The block in progress that has no room for them is complete (R438). -/
def State.putBatch (s : State) (batches : List DWord) (recs : List (List Byte)) : State :=
  if recs.isEmpty then s
  else
    let s := s.flushOut
    if s.backpressure then recs.foldl (fun s r => s.putRecord 0 0 r) s
    else if s.acq.out.isEmpty ∧ s.acq.gap.isEmpty then
      match s.putAll recs with
      | some t => t
      | none => s.padBlock.dropBatches batches
    else s.dropBatches batches

/-! ## Spilling (R440) -/

/-- LOG2 of the ring: 4 to 24; other values act as 10. -/
def State.spillLog2 (s : State) : Nat :=
  let v := s.fld .acqSpillSize 4 0
  if 4 ≤ v ∧ v ≤ 24 then v else 10

/-- The ring is full. -/
def State.spillFull (s : State) : Bool :=
  decide ((s.fld .acqSpillDev 23 0 + 1) % 2 ^ s.spillLog2 = s.fld .acqSpillHost 23 0 % 2 ^ s.spillLog2)

/-- Items of the engine of a type in the store. -/
def State.acqItems (s : State) (type : Byte) : Bool :=
  s.svc.store.any fun i => i.source = .acq && i.type = type

/-- The next TSPILL item issued: blocks are spilled in stream order, one at a time. -/
def State.spillNext (s : State) : State :=
  if bit (s.rd .acqCtrl) 25 && s.acq.state ≠ .idle && !s.acq.blocks.isEmpty && !s.spillFull &&
      !s.acqItems 0x30 then
    (s.issueInternal (blankItem .acq 0x30 0x30 0)).2
  else s

/-! ## States (R423 to R427) -/

/-- The engine enters IDLE: a spill item that waits or runs is given up, and the service engine that ran it is free.
A halt that a HALT action asked for stands (R430). -/
def State.acqIdle (s : State) : State :=
  let s := s.dropRunning fun i => i.source = .acq && i.type = 0x30
  ({ s with acq := { s.acq with state := .idle, sampled := [], seg := none } }).cause acqPage 2

/-- In DRAIN: the last block closed, and IDLE once every block is spilled or at once without SPILL. -/
def State.drainAcq (s : State) : State :=
  if s.acq.state ≠ .drain then s
  else
    let s := s.flushOut.padBlock
    if !bit (s.rd .acqCtrl) 25 || (s.acq.out.isEmpty && s.acq.blocks.isEmpty) then s.acqIdle
    else s.spillNext

/-- The engine enters DRAIN. -/
def State.acqDrain (s : State) : State :=
  ({ s with acq := { s.acq with state := .drain, sampled := [] } }).drainAcq

/-! ## Conditions of the trigger units (R428) -/

/-- The condition of unit u in batch n, whose external inputs with an event are `ext`. -/
def State.tuCond (s : State) (u : Nat) (n : DWord) (ext : List Nat) : Bool :=
  let c := s.rd .acqTuCfg u
  let v := bits c 27 21
  let k := bits c 20 18
  let mask := s.rd .acqTuMask u
  let val := s.rd .acqTuValue u
  let x := ((s.ptile v).map s.tile).getD Tile.reset
  let named := decide (v < s.reqTiles) && x.probes ≠ 0
  let w := probeWord (x.vecOf n) k
  match bits c 31 28 with
  | 1 => named && w &&& mask = val
  | 2 => named && w &&& mask ≠ val
  | 3 => named && s.acq.firstEval ≠ some n && (w ^^^ probeWord (x.vecOf (n - 1)) k) &&& mask ≠ 0
  | 4 => named && decide (mask.toNat ≤ w.toNat) && decide (w.toNat ≤ val.toNat)
  | 5 => decide (k ∈ ext)
  | 6 => named && x.marks.any fun m =>
      m.batch = n && m.value &&& mask.setWidth 16 = val.setWidth 16
  | _ => false

/-- The units whose condition holds in batch n. -/
def State.tuConds (s : State) (n : DWord) (ext : List Nat) : List Nat :=
  (List.range 16).filter fun u => s.tuCond u n ext

/-! ## Records of a segment (R432, R436, R443) -/

/-- The 8 * WIDTH bytes of a vector. -/
def vecBytes (x : Tile) (v : BitVec 256) : List Byte := leBytes (8 * x.width) v.toNat

/-- The records of one tile for a group of batches: RAW, then CHANGE and MARK in batch order. -/
def State.tileRecords (s : State) (first : DWord) (v t : Nat) (group : List DWord) : List (List Byte) :=
  let x := s.tile t
  let seg := s.acq.segment
  let ctrl := s.rd .acqCtrl
  let raw := if bit ctrl 31 then
      [mkRec 0x02 v seg group.length x.width (group.headD 0) (group.flatMap fun n => vecBytes x (x.vecOf n))]
    else []
  let each (n : DWord) : List (List Byte) :=
    let change := if bit ctrl 30 && (n = first || x.vecOf n ≠ x.vecOf (n - 1)) then
        [mkRec 0x03 v seg 0 x.width n (vecBytes x (x.vecOf n))] else []
    let marks := if bit ctrl 27 then
        (x.marks.filter fun m => m.batch = n).map fun m =>
          mkRec 0x06 v seg 0 x.width n (leBytes 2 m.value.toNat ++ leBytes 2 m.step ++ leBytes 12 0)
      else []
    change ++ marks
  raw ++ group.flatMap each

/-- The group of the open segment written into records. -/
def State.flushGroup (s : State) : State :=
  match s.acq.seg with
  | none => s
  | some g =>
    if g.group.isEmpty then s
    else
      let recs := s.acqTiles.flatMap fun vt => s.tileRecords g.first vt.1 vt.2 g.group
      let s := s.putBatch g.group recs
      { s with acq := { s.acq with seg := s.acq.seg.map fun h => { h with group := [] } } }

/-- The reductions COUNTS and MINMAX of a tile advanced by batch n. -/
def reduceTile (x : Tile) (v : Nat) (n : DWord) (counts minmax : Bool) (g : Segment) : Segment :=
  let now := x.vecOf n
  let old := x.vecOf (n - 1)
  let g := if counts then
      (List.range x.probes).foldl (fun g i =>
        if now.getLsbD i && !old.getLsbD i then
          let k := v * 256 + i
          { g with counts := Table.set (fun _ => 0) g.counts k (Table.get (fun _ => 0) g.counts k + 1) }
        else g) g
    else g
  if minmax then
    (List.range (2 * x.width)).foldl (fun g k =>
      let w := probeWord now k
      let key := v * 8 + k
      let lo := Table.get (fun _ => 0xFFFFFFFF) g.mins key
      let hi := Table.get (fun _ => 0) g.maxs key
      { g with
        mins := Table.set (fun _ => 0xFFFFFFFF) g.mins key (if w.toNat < lo.toNat then w else lo)
        maxs := Table.set (fun _ => 0) g.maxs key (if hi.toNat < w.toNat then w else hi) }) g
  else g

/-- Batch n recorded into the open segment. -/
def State.recordBatch (s : State) (n : DWord) (end16 : Nat) (ext : List Nat) : State :=
  match s.acq.seg with
  | none => s
  | some g =>
    let ctrl := s.rd .acqCtrl
    let g := (s.tuConds n ext).foldl (fun g u =>
      { g with cond := Table.set (fun _ => 0) g.cond u (Table.get (fun _ => 0) g.cond u + 1) }) g
    let g := s.acqTiles.foldl (fun g vt => reduceTile (s.tile vt.2) vt.1 n (bit ctrl 29) (bit ctrl 28) g) g
    let g := { g with last := n, lastEnd := end16, group := g.group ++ [n] }
    let s : State := { s with acq := { s.acq with seg := some g } }
    if bit ctrl 31 && decide (g.group.length < 64) then s else s.flushGroup

/-- The records COUNTS and MINMAX at a segment's end. -/
def State.endRecords (s : State) (g : Segment) : List (List Byte) :=
  let ctrl := s.rd .acqCtrl
  let seg := s.acq.segment
  s.acqTiles.flatMap fun vt =>
    let x := s.tile vt.2
    let v := vt.1
    (if bit ctrl 29 then
      [mkRec 0x04 v seg 0 x.width g.last ((List.range (64 * x.width)).flatMap fun i =>
        leBytes 2 (min 0xFFFF (Table.get (fun _ => 0) g.counts (v * 256 + i))))] else []) ++
    (if bit ctrl 28 then
      [mkRec 0x05 v seg 0 x.width g.last ((List.range (2 * x.width)).flatMap fun k =>
        leBytes 4 (Table.get (fun _ => 0xFFFFFFFF) g.mins (v * 8 + k)).toNat ++
        leBytes 4 (Table.get (fun _ => 0) g.maxs (v * 8 + k)).toNat)] else [])

/-- The open segment closed with SEG_END (R433). -/
def State.closeSegment (s : State) (truncated : Bool) : State :=
  let s := s.flushGroup.closeGap
  match s.acq.seg with
  | none => s
  | some g =>
    let seg := s.acq.segment
    let s := (s.endRecords g).foldl (fun s r => s.putRecord 0 seg r) s
    let payload := leBytes 8 (g.lastEnd / 2 ^ 16) ++ leBytes 4 (min 0xFFFFFFFF g.dropped) ++
      leBytes 4 (b2n truncated + 2 * b2n (decide (0 < g.dropped))) ++
      (List.range 16).flatMap fun u => leBytes 4 (min 0xFFFFFFFF (Table.get (fun _ => 0) g.cond u))
    let s := s.putRecord 0 seg (mkRec 0x08 0xFF seg 0 0 g.last payload)
    let s := s.modDir seg fun d => { d with truncated := truncated, dropped := decide (0 < g.dropped) }
    ({ s with acq := { s.acq with seg := none, closed := s.acq.closed + 1 } }).cause acqPage 1

/-- P, the batches before batch t that a segment takes from the histories: as many as PRE asks, of those sampled since
ARM (R432) and, for the first segment, of those that stood in each history before (R424). -/
def State.histBefore (s : State) (t : DWord) (pre : Nat) : Nat :=
  let since := s.acq.since - 1 - s.acq.sampled.length
  let held := match s.acqTiles with
    | [] => 0
    | l => l.foldl (fun a vt =>
        min a (((s.tile vt.2).history.filter fun h => decide (h.1.toNat < t.toNat)).length)) pre
  min pre (if s.acq.closed = 0 then max since held else since)

/-- Inputs that had an event in batch n. -/
def State.extOf (s : State) (n : DWord) : List Nat :=
  ((s.acq.extPast.find? fun e => e.1 = n).map fun e => e.2).getD []

/-- Unit counters reset. -/
def State.clearUnits (s : State) : State := (List.range 16).foldl (fun s u => s.wr .acqTuCount 0 u) s

/-- The segment closed at t + Q: SEG_END, the units and the sequencer reset, REARM (R433). -/
def State.toRearm (s : State) : State :=
  let s := (s.closeSegment false).clearUnits
  ({ s with acq := { s.acq with state := .rearm, seq := 0, sampled := [] } }).spillNext

/-- A sampled batch recorded in WINDOW; the last one closes the segment. -/
def State.windowBatch (s : State) (e : Sample) : State :=
  let s := s.recordBatch e.batch e.end16 (e.ext.map fun x => x.1)
  match s.acq.seg with
  | some g =>
    if g.trigger.toNat + s.fld .acqSegCfg 15 0 ≤ e.batch.toNat then s.toRearm else s.spillNext
  | none => s

/-- A segment opened with trigger batch t; `stamp` is the event stamp of an EXT unit. -/
def State.openSegment (s : State) (e : Sample) (seqBefore : Nat) (stamp : Option DWord) : State :=
  let t := e.batch
  let p := s.histBefore t (s.fld .acqSegCfg 31 20)
  let seg := s.acq.segment
  let first : DWord := t - BitVec.ofNat 64 p
  let flags := b2n e.valid + 2 * b2n stamp.isSome
  let payload := leBytes 8 (e.end16 / 2 ^ 16) ++ leBytes 8 (stamp.getD 0).toNat ++ leBytes 2 p ++
    leBytes 2 (e.end16 % 2 ^ 16) ++ leBytes 1 seqBefore ++ leBytes 1 flags ++ leBytes 10 0
  let s : State := { s with acq := { s.acq with
    state := .window
    seg := some ⟨t, first, first, e.end16, 0, [], [], [], [], []⟩
    dirs := s.acq.dirs ++
      [⟨seg, t, e.end16, e.valid, stamp.isSome, false, false, none, 0, none, 0, 0⟩] } }
  let s := (s.captureAt 11 e.end16).putRecord 1 seg (mkRec 0x01 0xFF seg 0 0 t payload)
  let s := (List.range p).foldl (fun s i =>
    let n : DWord := first + BitVec.ofNat 64 i
    s.recordBatch n e.end16 (s.extOf n)) s
  s.windowBatch e

/-! ## STOP (R426) -/

/-- ACQ_CMD.STOP; a STOP while the device is halted goes to IDLE without waiting. -/
def State.acqStop (s : State) (halted : Bool) : State :=
  match s.acq.state with
  | .idle => s
  | .drain => s.acqIdle
  | .window =>
    let s := (s.closeSegment true).acqDrain
    if halted && s.acq.state ≠ .idle then s.acqIdle else s
  | _ =>
    let s := s.acqDrain
    if halted && s.acq.state ≠ .idle then s.acqIdle else s

/-! ## ARM (R424) -/

/-- The larder banks that the stream takes: those that ACQ owns and that no handover takes from it (R282, R284). -/
def State.acqBanks (s : State) : List Nat := (s.larderOf 5).filter fun b => !ownPending (s.rd .memLown b)

/-- ACQ_CMD.ARM. -/
def State.acqArm (s : State) : State :=
  if s.acq.state ≠ .idle then s.err acqPage 0x5101 0x44
  else if !s.ldr.inService then s.err acqPage 0x5102 0
  else if s.acqBanks.isEmpty then s.err acqPage 0x5102 1
  else
    let s := (s.clearUnits).setFld .acqSpillDev 23 0 (s.fld .acqSpillHost 23 0)
    { s with acq := { Acq.reset with
      state := .live, banks := s.acqBanks, extPast := s.acq.extPast, ext := s.acq.ext
      haltNext := s.acq.haltNext } }

/-- ACQ_ARM: a write of ACQ_CMD with ARM 1. -/
def execAcqArm (val : Word) (s : State) : Out := onWrite acqPage s (
    whenDue (bit val 0 && s.pageEn acqPage) s s.acqArm)

/-- ACQ_STOP: a write of ACQ_CMD with STOP 1. -/
def execAcqStop (val : Word) (s : State) : Out := onWrite acqPage s (
    whenDue (bit val 1) s (s.acqStop s.isHalted))

/-! ## Evaluation (R430) -/

/-- Whether a branch holds. -/
def branchHolds (w : Word) (outs : List Nat) : Bool :=
  let mask := (List.range 16).filter fun u => bit w (16 + u)
  !mask.isEmpty &&
    (if bit w 15 then mask.all fun u => decide (u ∈ outs) else mask.any fun u => decide (u ∈ outs))

/-- The stamp of the event behind the first EXT unit of a branch with a true output. -/
def State.extStamp (s : State) (w : Word) (outs : List Nat) (e : Sample) : Option DWord :=
  ((List.range 16).find? fun u =>
      bit w (16 + u) && decide (u ∈ outs) && bits (s.rd .acqTuCfg u) 31 28 = 5).bind fun u =>
    (e.ext.find? fun x => x.1 = bits (s.rd .acqTuCfg u) 20 18).map fun x => x.2

/-- A FIRE action: bit 7 is a VL2 fire under TIM_TRG_CFG.VL2. -/
def State.acqFire (s : State) (lines : BitVec 8) : State :=
  if bit (s.rd .timTrgCfg) 31 then
    let s := s.fireLines (lines &&& 0x7F)
    if bit lines 7 then s.vl2FireNow else s
  else s.fireLines lines

/-- A HALT action: the halt comes at the boundary after the next batch. -/
def State.acqHalt (s : State) : State :=
  if s.run.inBatch then s.haltRequest 5 else { s with acq := { s.acq with haltNext := true } }

/-- A branch taken: NEXT, then FIRE, HALT, TRIG and STOP in order. -/
def State.takeBranch (s : State) (w : Word) (outs : List Nat) (e : Sample) : State :=
  let before := s.acq.seq
  let s : State := { s with acq := { s.acq with seq := bits w 14 12 } }
  let s := s.acqFire (w.setWidth 8)
  let s := if bit w 9 then s.acqHalt else s
  let s := if bit w 11 then s.openSegment e before (s.extStamp w outs e) else s
  if bit w 10 then s.acqStop s.isHalted else s

/-- The units and the sequencer on a sampled batch. -/
def State.evaluate (s : State) (e : Sample) : State :=
  let s : State := { s with acq := { s.acq with
    firstEval := some (s.acq.firstEval.getD e.batch) } }
  let held := s.tuConds e.batch (e.ext.map fun x => x.1)
  let s := held.foldl (fun s u => s.countReg .acqTuCount 0xFFFFFFFF 1 u) s
  let outs := held.filter fun u => max 1 (s.fld .acqTuCfg 15 0 u) ≤ (s.rd .acqTuCount u).toNat
  let b0 := s.rd .acqSeqBr0 s.acq.seq
  let b1 := s.rd .acqSeqBr1 s.acq.seq
  if branchHolds b0 outs then s.takeBranch b0 outs e
  else if branchHolds b1 outs then s.takeBranch b1 outs e
  else s

/-- What a sampled batch leaves to do while the device is halted: once every one is evaluated or recorded, the records
of those that wait for their group are completed (R427). -/
def State.haltRecords (s : State) : State :=
  if s.isHalted && s.acq.sampled.isEmpty then s.flushGroup else s

/-- The batches sampled so far evaluated in LIVE and recorded in WINDOW, and their group written, before the history of
a lost tile goes (R435). -/
def State.recordNow (s : State) : State :=
  (s.acq.sampled.foldl (fun s e =>
    let t : State := { s with acq := { s.acq with sampled := s.acq.sampled.drop 1 } }
    match s.acq.state with
    | .live => t.evaluate e
    | .window => t.windowBatch e
    | _ => s) s).flushGroup

/-- ACQ_EVALUATE: the oldest sampled batch in LIVE. -/
def execAcqEvaluate (s : State) : Out :=
  match s.acq.state, s.acq.sampled with
  | .live, e :: rest => .next (({ s with acq := { s.acq with sampled := rest } }).evaluate e).haltRecords
  | _, _ => .next s

/-- ACQ_BATCH_RECORD: the oldest sampled batch in WINDOW. -/
def execAcqBatchRecord (s : State) : Out :=
  match s.acq.state, s.acq.sampled with
  | .window, e :: rest => .next (({ s with acq := { s.acq with sampled := rest } }).windowBatch e).haltRecords
  | _, _ => .next s

/-- PG_CTRL.HALT_FREEZE of a page. -/
def State.haltFreeze (s : State) (page : Nat) : Bool := bit (s.reg (page + 4)) 2

/-- ACQ_SEG_MAX.SEGMENTS: 0 and values above 65,536 act as 65,536. -/
def State.segMax (s : State) : Nat :=
  let v := s.fld .acqSegMax 16 0
  if v = 0 ∨ 65536 < v then 65536 else v

/-- The re-arm completes (R433, R434): the next batch to end is the first one evaluated. -/
def State.rearmDone (s : State) : State :=
  let seg := s.acq.segment
  match s.acq.dirs.find? fun d => d.segment = seg with
  | none => s
  | some d =>
    let a := s.run.batch
    let deadB := a.toNat - d.trigger.toNat - 1
    let deadNs := (s.out16 - d.stamp16) / 2 ^ 16
    let s := s.modDir seg fun d => { d with deadB := deadB, deadNs := deadNs }
    let s := (s.wr .acqLastDeadB (BitVec.ofNat 32 deadB)).wr .acqLastDeadNs
      (BitVec.ofNat 32 (min 0xFFFFFFFF deadNs))
    let payload := leBytes 4 deadB ++ leBytes 4 (min 0xFFFFFFFF deadNs) ++ leBytes 8 s.outNs
    let s := s.putRecord 2 seg (mkRec 0x09 0xFF seg 0 0 a payload)
    let s : State := { s with acq := { s.acq with
      state := .live, segment := (seg + 1) % 2 ^ 16, firstEval := none } }
    if s.segMax ≤ s.acq.closed then s.acqDrain else s.spillNext

/-- ACQ_REARM_DONE: not while the device is halted with HALT_FREEZE (R427). -/
def execAcqRearmDone (s : State) : Out :=
  whenDue (s.acq.state = .rearm && !(s.isHalted && s.haltFreeze acqPage)) s s.rearmDone

/-! ## Items (R440 to R442, R461) -/

/-- The engine stops as if halted after a failed write. -/
def State.spillFailed (s : State) (info : Nat) : State := (s.err acqPage 0x5104 info).acqStop true

/-- The requester of the engine's writes. -/
def reqAcq : Requester := ⟨clsAcq, 13⟩

/-- The TCOMPACT item of a segment: word 1 holds its number and the tokens the 32 bytes of its directory entry
(R441). -/
def DirEntry.item (d : DirEntry) : SvcItem :=
  let flags := b2n d.truncated + 2 * b2n d.ext + 4 * b2n d.timeValid + 8 * b2n d.dropped
  { blankItem .acq 0x31 0x31 (BitVec.ofNat 64 d.segment) with
    t0 := some d.trigger
    t1 := some (BitVec.ofNat 64 (d.stamp16 / 2 ^ 16))
    t2 := some (BitVec.ofNat 64 (d.startRing + d.deadB * 2 ^ 32))
    t3 := some (BitVec.ofNat 64
      (min 0xFFFFFFFF d.deadNs + d.stamp16 % 2 ^ 16 * 2 ^ 32 + flags * 2 ^ 48)) }

/-- A block spilled: DEV advances, the directory learns the ring block of a SEG_START, and a segment
whose REARM record is spilled gets its TCOMPACT item, at once or when the internal class has an entry (R222,
R441). -/
def State.spilled (s : State) (k dev : Nat) : State :=
  let s := (s.setFld .acqSpillDev 23 0 ((dev + 1) % 2 ^ s.spillLog2)).cause acqPage 3
  let s : State := { s with acq := { s.acq with
    blocks := s.acq.blocks.drop 1
    dirs := s.acq.dirs.map fun d =>
      if d.startBlock = some k then { d with startBlock := none, startRing := dev } else d } }
  let ready := s.acq.dirs.filter fun d => d.rearmBlock = some k
  let s : State := { s with acq := { s.acq with
    dirs := s.acq.dirs.filter fun d => d.rearmBlock ≠ some k } }
  let s := if bit (s.rd .acqDirBaseLo) 0 then ready.foldl (fun s d => s.issueCache d.item) s else s
  (s.flushOut.drainAcq).spillNext

/-- TSPILL. -/
def execTspill (eng : Nat) (ue : Dram) (s : State) : Out :=
  onEngine eng 0x30 s fun i =>
    let s := (s.engineDone eng).dropItem i.id
    match s.acq.blocks with
    | [] => s
    | k :: _ =>
      let dev := s.fld .acqSpillDev 23 0
      let addr := (s.rd64 .acqSpillBaseLo .acqSpillBaseHi).toNat + 4096 * dev
      let s := s.touchLarder (s.acq.blockAddr k / 2 ^ 19)
      match s.ddrWrite reqAcq (s.qkey 13) addr (s.mem.larder.readBytes (s.acq.blockAddr k) 4096) ue with
      | (.ok _, s) => s.spilled k dev
      | (.integrity, s) => s
      | (_, s) => s.spillFailed dev

/-- TCOMPACT: the 32 bytes of a directory entry written (R441). -/
def execTcompact (eng : Nat) (ue : Dram) (s : State) : Out :=
  onEngine eng 0x31 s fun i =>
    let s := (s.engineDone eng).dropItem i.id
    let seg := i.w1.toNat
    let addr := (s.rd64 .acqDirBaseLo .acqDirBaseHi).toNat / 4096 * 4096 + 32 * seg
    let bytes := [i.tok0, i.tok1, i.tok2, i.t3.getD 0].flatMap fun w => leBytes 8 w.toNat
    match s.ddrWrite reqAcq (s.qkey 13) addr bytes ue with
    | (.ok _, s) => s
    | (.integrity, s) => s
    | (_, s) => s.spillFailed (2 ^ 31 + seg)

/-- CRIER: the record is written while the engine is LIVE, WINDOW or REARM (R443). The item carries the
crier and value in word 0 and 1, the batch, and the output time. -/
def execCrier (eng : Nat) (s : State) : Out :=
  onEngine eng 0x60 s fun i =>
    let s := (s.engineDone eng).dropItem i.id
    let live := s.acq.state = .live || s.acq.state = .window || s.acq.state = .rearm
    let payload := leBytes 4 i.tok0.toNat ++ leBytes 4 i.tok1.toNat ++ leBytes 8 i.tok2.toNat
    if live then
      (s.putRecord 0 s.acq.segment (mkRec 0x07 0xFF s.acq.segment 0 0 i.batch payload)).spillNext
    else s

/-! ## Registers (R440, R445, R449) -/

/-- ACQ_SPILL_HOST_WRITE. -/
def execAcqSpillHostWrite (val : Word) (s : State) : Out := onWrite acqPage s (
    .next ((s.wr .acqSpillHost (val &&& 0xFFFFFF)).spillNext))

/-- ACQ_DROPPED_READ. -/
def execAcqDroppedRead (via : Via) (s : State) : Out := onRead acqPage via s (
    .next (s.readClear acqPage via .acqDropped 0xFFFFFFFF))

/-- ACQ_EXT_LOST_READ. -/
def execAcqExtLostRead (via : Via) (s : State) : Out := onRead acqPage via s (
    .next (s.readClear acqPage via .acqExtLost 0xFFFFFFFF))

/-- TIL_PRB_MARKS_READ. -/
def execTilPrbMarksRead (t : Nat) (via : Via) (s : State) : Out :=
  onTile t (onRead (tilePage t 6) via s (.next (if (s.tile t).power = .on then
      s.readClear (tilePage t 6) via .tilPrbMarks 0xFFFFFFFF t else s.answer [0])))

/-! ## Sampling at batch end and external events (R419, R429) -/

/-- An event of external input n (R429): lost while the device is halted. -/
def State.acqExt (s : State) (n : Nat) (stamp : DWord) : State :=
  if s.isHalted then s.countReg .acqExtLost 0xFFFFFFFF 1
  else { s with acq := { s.acq with ext := s.acq.ext ++ [(n, stamp)] } }

/-- Action 2 of R133 for batch n: histories in every case; for a batch that is not replayed, pending
events are assigned and an engine in LIVE or WINDOW gets the batch. -/
def State.sampleBatch (s : State) (n : DWord) (replayed : Bool) : State :=
  let s := if s.ldr.inService then
      s.mapTiles fun x => if x.vtile.isSome then x.sample s.pins.din n replayed else x
    else s
  if replayed then s
  else
    let e : Sample := ⟨n, s.out16, s.acq.ext, s.tim.valid⟩
    let take := s.acq.state = .live || s.acq.state = .window
    { s with acq := { s.acq with
      ext := []
      since := if s.acqArmed then s.acq.since + 1 else s.acq.since
      extPast :=
        let past := s.acq.extPast.filter fun e => decide (e.1.toNat < n.toNat)
        if s.acq.ext.isEmpty then past else ((n, s.acq.ext.map fun x => x.1) :: past).take 4096
      sampled := if take then s.acq.sampled ++ [e] else s.acq.sampled } }

/-- R431: the evaluation of the batch before is complete. -/
def State.evaluated (s : State) : Bool := !(s.acq.state = .live) || s.acq.sampled.isEmpty

end Sys2Proof.Machine
end

