-- ==== Sys2Proof/Machine/Frames.lean ====
section
/-! DEFINITION. The frames of an image and of a proof: a tile's storage as bytes (R167, R168, R477). -/

namespace Sys2Proof.Machine

/-- Bytes cut into pieces of n; `fuel` bounds them. -/
def cut (n : Nat) : Nat → List Byte → List (List Byte)
  | 0, _ => []
  | fuel + 1, l => if l.isEmpty then [] else l.take n :: cut n fuel (l.drop n)

/-- The numbers that bytes spell, n bytes each, with their index. -/
def numbers (n : Nat) (l : List Byte) : List (Nat × Nat) :=
  ((cut n l.length l).map leNat).zipIdx.map fun p => (p.2, p.1)

/-- A field of n bytes at offset o. -/
def field (l : List Byte) (o n : Nat) : Nat := leNat ((l.drop o).take n)

/-- Bytes put into a table of words, n bytes each, the first at key `base`. -/
def putTable {w : Nat} (m : Table (BitVec w)) (base n : Nat) (l : List Byte) : Table (BitVec w) :=
  (numbers n l).foldl (fun m p => Table.set (fun _ => 0) m (base + p.1) (BitVec.ofNat w p.2)) m

/-- Words of a table as bytes, n bytes each, `count` of them from key `base`. -/
def getTable {w : Nat} (m : Table (BitVec w)) (base n count : Nat) : List Byte :=
  (List.range count).flatMap fun i => leBytes n (Table.get (fun _ => (0 : BitVec w)) m (base + i)).toNat

/-- Bytes put into a table of bits, bit 0 of the first byte at key `base`. -/
def putBits (m : Table Bool) (base : Nat) (l : List Byte) : Table Bool :=
  (l.zipIdx).foldl (fun m p => (List.range 8).foldl (fun m i =>
    Table.set (fun _ => false) m (base + 8 * p.2 + i) (bit p.1 i)) m) m

/-- Bits of a table as bytes, `count` bytes from key `base`. -/
def getBits (m : Table Bool) (base count : Nat) : List Byte :=
  (List.range count).map fun j => BitVec.ofNat 8 (((List.range 8).map fun i =>
    b2n (Table.get (fun _ => false) m (base + 8 * j + i)) * 2 ^ i).sum)

/-- The dirty bits of the 64-byte lines that [a, a + n) of a pantry touches, set (R478). -/
def Tile.dirtyRange (x : Tile) (a n : Nat) : Tile :=
  let d (m : Table Bool) : Table Bool :=
    (List.range' (a / 64) ((a + n + 63) / 64 - a / 64)).foldl
      (fun m i => Table.set (fun _ => false) m i true) m
  { x with dirty0 := d x.dirty0, dirty1 := d x.dirty1 }

/-- Pantry bytes written by an owner other than the tile. -/
def Tile.putPantry (x : Tile) (a : Nat) (l : List Byte) : Tile :=
  ({ x with pantry := x.pantry.writeBytes a l }).dirtyRange a l.length

/-- Stream numbers (R167). -/
def strBp : Nat := 0
def strWu : Nat := 1
def strCtrl : Nat := 2
def strDest : Nat := 3
def strTmpl : Nat := 4
def strTcfg : Nat := 5
def strBinit : Nat := 6
def strWinit : Nat := 7
def strPinit : Nat := 8
def strRoute : Nat := 0x40
def strPins : Nat := 0x41
def strModels : Nat := 0x42
def strReloc : Nat := 0x43

/-- The frames of a stream; none where the stream is reserved. -/
def strFrames (stream : Nat) : Option Nat :=
  match stream with
  | 0 => some 1024
  | 1 => some 64
  | 2 => some 1
  | 3 => some 1
  | 4 => some 1
  | 5 => some 1
  | 6 => some 16
  | 7 => some 4
  | 8 => some 256
  | 0x40 => some 1
  | 0x41 => some 1
  | 0x42 => some 1
  | 0x43 => some 256
  | _ => none

/-- A frame's payload put into a tile (R167, R168). -/
def Tile.putFrame (x : Tile) (stream o : Nat) (p : List Byte) : Tile :=
  match stream with
  | 0 => { x with bpCode := putTable x.bpCode (o * 512) 8 p }
  | 1 => { x with wuCode := putTable x.wuCode (o * 256) 16 p }
  | 2 => { x with ctrl := putTable x.ctrl 0 4 p }
  | 3 => { x with dest := putTable x.dest 0 8 (p.take 2048) }
  | 4 => { x with tmpl := putTable x.tmpl 0 16 p }
  | 5 =>
    { x with
      depth := field p 0 2
      panOwnMask := BitVec.ofNat 16 (field p 2 2)
      probes := field p 4 2
      probeList := putTable x.probeList 0 4 ((p.drop 0x400).take 1024) }
  | 6 => { x with thenHalf := putBits x.thenHalf (o * 32 * 1024) p }
  | 7 => { x with wuReg := putTable x.wuReg (o * 1024) 4 p }
  | 8 => x.putPantry (o * 4096) p
  | _ => x

/-- A frame's payload as a tile holds it. -/
def Tile.frameBytes (x : Tile) (stream o : Nat) : List Byte :=
  match stream with
  | 0 => getTable x.bpCode (o * 512) 8 512
  | 1 => getTable x.wuCode (o * 256) 16 256
  | 2 => getTable x.ctrl 0 4 1024
  | 3 => getTable x.dest 0 8 256 ++ List.replicate 2048 0
  | 4 => getTable x.tmpl 0 16 256
  | 5 =>
    leBytes 2 x.depth ++ leBytes 2 x.panOwnMask.toNat ++ leBytes 2 x.probes ++ List.replicate 1018 0 ++
      getTable x.probeList 0 4 256 ++ List.replicate 2048 0
  | 6 => getBits x.thenHalf (o * 32 * 1024) 4096
  | 7 => getTable x.wuReg (o * 1024) 4 1024
  | 8 => x.pantry.readBytes (o * 4096) 4096
  | _ => []

/-- The tile with every stream at zero, as a load begins it: recipe store, tables, design state and
pantry (R167, R174, R195). A queue position keeps the value last stored there (R153). The rack and the places of the
network interface are emptied, of which no rule speaks (assumption 84). -/
def Tile.blank (x : Tile) (first : DWord) : Tile :=
  { Tile.reset with
    power := x.power
    retired := x.retired
    dirty0 := x.dirty0
    dirty1 := x.dirty1
    qData := x.qData
    xbatch := first
    history := []
    marks := [] }

/-- The tile as the global set-reset holds it, with its recipe kept: reset values zero until they are
written (R91, R195). -/
def Tile.setReset (x : Tile) (first : DWord) : Tile :=
  { x.blank first with
    vtile := x.vtile
    pantry := x.pantry
    bpCode := x.bpCode
    wuCode := x.wuCode
    ctrl := x.ctrl
    dest := x.dest
    tmpl := x.tmpl
    depth := x.depth
    panOwnMask := x.panOwnMask
    probes := x.probes
    probeList := x.probeList }

/-! ## Tile state in the proof area (R477, R478, R486) -/

/-- Bytes written to the proof area, class PROOF, queue 12. -/
def State.prfWrite (s : State) (a : Nat) (d : List Byte) (ue : Dram := .clean) : EncRes × State :=
  s.ddrWrite reqProof (s.qkey 12) a d ue

/-- Bytes read from it. -/
def State.prfRead (s : State) (a n : Nat) (ue : Dram := .clean) : EncRes × State :=
  s.ddrRead reqProof (s.qkey 12) a n ue

/-- The frames of the recipe copy in order, with their offset in it (R477). -/
def copyFrames : List (Nat × Nat × Nat) :=
  ((List.range 1024).map fun o => (strBp, o, 4096 * o)) ++
  ((List.range 64).map fun o => (strWu, o, kib 4096 + 4096 * o)) ++
  [(strCtrl, 0, kib 4352), (strDest, 0, kib 4356), (strTmpl, 0, kib 4360), (strTcfg, 0, kib 4364)]

/-- The frames of then-halves and WU registers in a slot, with their offset in it. -/
def slotFrames : List (Nat × Nat × Nat) :=
  ((List.range 16).map fun o => (strBinit, o, 4096 * o)) ++
  ((List.range 4).map fun o => (strWinit, o, kib 64 + 4096 * o))

/-- Frames of tile t written from address a on; the first failure ends it. -/
def State.putFrames (s : State) (t a : Nat) (ue : Dram) : List (Nat × Nat × Nat) → EncRes × State
  | [] => (.ok [], s)
  | (str, o, off) :: rest =>
    match s.prfWrite (a + off) ((s.tile t).frameBytes str o) ue with
    | (.ok _, s) => State.putFrames s t a .clean rest
    | (e, s) => (e, s)

/-- Frames of tile t read from address a on. -/
def State.getFrames (s : State) (t a : Nat) (ue : Dram) : List (Nat × Nat × Nat) → EncRes × State
  | [] => (.ok [], s)
  | (str, o, off) :: rest =>
    match s.prfRead (a + off) 4096 ue with
    | (.ok d, s) => State.getFrames (s.modTile t fun x => x.putFrame str o d) t a .clean rest
    | (e, s) => (e, s)

/-- The dirty bits of a tile for slot k. -/
def Tile.dirtyOf (x : Tile) (k : Nat) : Table Bool := if k = 0 then x.dirty0 else x.dirty1

def Tile.setDirty (x : Tile) (k : Nat) (m : Table Bool) : Tile :=
  if k = 0 then { x with dirty0 := m } else { x with dirty1 := m }

/-- Pantry lines of tile t written to slot k at address a, each clearing its dirty bit. -/
def State.savePantry (s : State) (t k a : Nat) : List Nat → EncRes × State
  | [] => (.ok [], s)
  | l :: rest =>
    match s.prfWrite (a + kib 80 + 64 * l) ((s.tile t).pantry.readBytes (64 * l) 64) with
    | (.ok _, s) =>
      State.savePantry (s.modTile t fun x =>
        x.setDirty k (Table.set (fun _ => false) (x.dirtyOf k) l false)) t k a rest
    | (e, s) => (e, s)

/-- Pantry lines of tile t read from slot k at address a; a restore writes them as any owner does. -/
def State.loadPantry (s : State) (t a : Nat) : List Nat → EncRes × State
  | [] => (.ok [], s)
  | l :: rest =>
    match s.prfRead (a + kib 80 + 64 * l) 64 with
    | (.ok d, s) => State.loadPantry (s.modTile t fun x => x.putPantry (64 * l) d) t a rest
    | (e, s) => (e, s)

/-- The lines whose dirty bit for slot k is 1. -/
def Tile.dirtyLines (x : Tile) (k : Nat) : List Nat := (x.dirtyOf k).map fun e => e.1

/-- Then-halves and WU registers of the sleeping mapped tiles written back from CUR, and the tiles
awake (R30). A read that is refused or meets DDR_UE leaves what was read before it and records nothing more
here (assumption 68). -/
def State.wakeMapped (s : State) : State :=
  if !s.prf.sleeping then s
  else
    let s := s.mapped.foldl (fun s t =>
      let x := s.tile t
      if x.power = .sleep then
        let s := s.setTile t { x with power := .on }
        match s.prf.cur, x.vtile with
        | some p, some v => (s.getFrames t (s.prfSlotAddr p.slot v) .clean slotFrames).2
        | _, _ => s
      else s) s
    { s with prf := { s.prf with sleeping := false } }

/-- Every proof and the input log discarded (R191, R201). -/
def State.discardProofs (s : State) : State :=
  { s with prf := { Proofs.reset with recoveries := s.prf.recoveries } }

end Sys2Proof.Machine
end

