-- ==== Sys2Proof/Machine/LoadChecks.lean ====
section
/-! DEFINITION. The loader's checks of a tile's recipe (R181 to R183, R194, R217). -/

namespace Sys2Proof.Machine

/-- A failed check: its code, the STREAM and the low half of PG_ERR_INFO (R182). -/
abbrev Reject := Nat × Nat × Nat

/-- The tile standing at step n. -/
def Tile.at (x : Tile) (n : Nat) : Tile := { x with step := n }

/-- The first of the steps below `n` for which f answers. -/
def firstStep (n : Nat) (f : Nat → Option Reject) : Option Reject := (List.range n).findSome? f

/-- The first END step of a recipe. -/
def Tile.endStep (x : Tile) : Option Nat := (List.range 1024).find? fun n => bits (x.ctrlWord n) 31 28 = 15

/-! ## LD_SPINE -/

/-- Whether two numbers of a list are equal. -/
def hasDup : List Nat → Bool
  | [] => false
  | a :: rest => decide (a ∈ rest) || hasDup rest

/-- The spine wires that the BPs of step n name. -/
def Tile.wires (x : Tile) (n : Nat) : List Nat :=
  (x.at n).bpList.filterMap fun p => if bits p.2 3 2 = 2 then some (bits p.2 9 4) else none

def checkSpine (x : Tile) : Option Reject :=
  firstStep 1024 fun n => if hasDup (x.wires n) then some (0x7040, strBp, n) else none

/-! ## LD_NOT_READY (R183) -/

/-- The errors of a step that are WU_NOT_READY, or ILLEGAL_ENCODING. -/
def errsOf (code : Nat) (l : List StepErr) : Bool := l.any fun e => e.code = code

/-- The errors of the data read of a control word. -/
def Tile.sourceErrs (x : Tile) (w : Word) : List StepErr :=
  if bits w 31 28 = 3 ∨ bits w 31 28 = 4 ∨ bits w 31 28 = 6 then
    (x.source (bits w 19 19) (bits w 18 15) (bits w 14 7)).2
  else []

/-- One step of the writes in flight: the tile after step n issued its WU instructions, and which
stream, if one, read a register whose write is pending. -/
def Tile.issueStep (x : Tile) (n : Nat) : Tile × Option Nat :=
  let y := { x with step := n, accesses := x.accesses.filter fun a => decide (n ≤ a.step + 3) }
  let c := y.sourceErrs (y.ctrlWord n)
  let w := y.wuStep
  ({ w.1 with results := w.1.results.filter fun r => decide (n < r.due) },
    if errsOf 0x1021 w.2 then some strWu else if errsOf 0x1021 c then some strCtrl else none)

/-- The first step, from n on, that reads a register with a pending write; `fuel` steps are looked at. -/
def notReadyFrom : Nat → Tile → Nat → Option Reject
  | 0, _, _ => none
  | fuel + 1, x, n =>
    let r := x.issueStep n
    match r.2 with
    | some str => some (0x7041, str, n)
    | none => notReadyFrom fuel r.1 (n + 1)

def checkReady (x : Tile) : Option Reject :=
  notReadyFrom (match x.endStep with | some n => n + 1 | none => 1024) x 0

/-! ## LD_ENCODING (R86, R97, R114) -/

/-- A control word that the loader rejects: reserved, or with an odd REG under SRC = 1 (R114). -/
def ctrlBad (w : Word) : Bool :=
  let op := bits w 31 28
  ctrlReserved w || ((op = 3 || op = 4 || op = 6) && bit w 19 && bit w 7)

/-- An environment for static checks: encodings alone decide them. -/
def staticEnv : TileEnv := ⟨0, false, fun _ => true⟩

def checkEncoding (x : Tile) : Option Reject :=
  firstStep 1024 fun n =>
    let y := x.at n
    if y.bpList.any fun p => errsOf 0x1024 (bpExec staticEnv y p.1 p.2).errs then some (0x7042, strBp, n)
    else if errsOf 0x1024 y.wuStep.2 then some (0x7042, strWu, n)
    else if ctrlBad (y.ctrlWord n) then some (0x7042, strCtrl, n)
    else none

/-! ## LD_NO_END and LD_BEYOND_END -/

/-- END stands at step DEPTH - 1 and nowhere before; `carried` says that the CTRL and TCFG frames came. -/
def checkEnd (x : Tile) (carried : Bool) : Option Reject :=
  if carried ∧ 1 ≤ x.depth ∧ x.depth ≤ 1024 ∧ x.endStep = some (x.depth - 1) then none
  else some (0x7043, strCtrl, x.depth)

def checkBeyond (x : Tile) : Option Reject :=
  match x.endStep with
  | none => none
  | some e => firstStep 1024 fun n =>
    if n ≤ e then none
    else if !(x.at n).bpList.isEmpty then some (0x7044, strBp, n)
    else if !(x.at n).wuList.isEmpty then some (0x7044, strWu, n)
    else if x.ctrlWord n ≠ 0 then some (0x7044, strCtrl, n)
    else none

/-! ## LD_DEST and LD_SIGNAL (R116, R181) -/

/-- What the checks of destinations look at: REQ_TILES, SELF, the image device numbers with a valid
route, the entries as the image carries them. -/
structure DestCtx where
  req : Nat
  self : Nat
  routes : List Nat
  raw : Nat → DWord

/-- A destination entry that is not of KIND 0 exists. -/
def DestCtx.entryOk (c : DestCtx) (e : DWord) : Bool :=
  let dev := (destDevice e).toNat
  destKind e = 0 || (if dev = c.self then decide (destVtile e < c.req) else decide (dev ∈ c.routes))

/-- The KIND of the entry that a SEND or ENQ names fits it. -/
def DestCtx.kindOk (c : DestCtx) (w : Word) : Bool :=
  let k := destKind (c.raw (bits w 27 20))
  match bits w 31 28 with
  | 3 => k = 1 || k = 2
  | 4 => k = 3
  | _ => true

def checkDest (c : DestCtx) (x : Tile) : Option Reject :=
  match (List.range 256).find? fun e => !c.entryOk (c.raw e) with
  | some e => some (0x7045, strDest, e)
  | none => firstStep 1024 fun n =>
    if c.kindOk (x.ctrlWord n) then none else some (0x7045, strDest, bits (x.ctrlWord n) 27 20)

def checkSignal (req : Nat) (x : Tile) : Option Reject :=
  firstStep 1024 fun n =>
    let w := x.ctrlWord n
    if bits w 31 28 = 2 ∧ req ≤ bits w 27 21 then some (0x7046, strCtrl, n) else none

/-! ## LD_TEMPLATE (R217) -/

/-- The templates that the SVC words of a tile name: number, and whether one of them is for token 0, which makes
it a lead template; one that the tile uses only for tokens 1 to 3 is a joining template (R216). -/
def Tile.named (x : Tile) : List (Nat × Bool) :=
  let l := (List.range 1024).filterMap fun n =>
    let w := x.ctrlWord n
    if bits w 31 28 = 6 then some (bits w 27 20, bits w 6 5) else none
  l.map fun p => (p.1, decide ((p.1, 0) ∈ l))

/-- MATCH and TYPE of the lead templates that tiles name. -/
def leadKeys (tiles : List Tile) : List (Nat × Nat) :=
  tiles.flatMap fun x => (x.named.filter fun p => p.2).map fun p =>
    (tmplMatch (x.template p.1), bits (x.template p.1) 7 0)

/-- The tokens that a type uses (R215). -/
def typeNeed (type op : Nat) : Nat :=
  match type with
  | 0x02 => 3
  | 0x03 => if op = 5 then 7 else 3
  | _ => 1

/-- A lead template keeps items 1 to 4 of R217. R216 gives OP the value 0 for MREAD and MWRITE: any other is taken
as reserved (assumption 13). -/
def leadOk (req : Nat) (q : QWord) : Bool :=
  let type := bits q 7 0
  let op := bits q 62 59
  decide (BitVec.ofNat 8 type ∈ tileTypes) && bits q 15 12 = typeNeed type op &&
    (bits q 35 34 = 1 || bits q 35 34 = 2) && bits q 10 8 ≤ 5 && bits q 11 11 = 0 &&
    !(type = 0x03 && 8 ≤ op) && !((type = 0x01 || type = 0x02) && op ≠ 0) && decide (bits q 42 36 < req)

/-- Item 5: a joining template holds nothing but TYPE and MATCH, and a lead of both exists. -/
def joinOk (keys : List (Nat × Nat)) (q : QWord) : Bool :=
  q &&& ~~~(BitVec.ofNat 128 (0xFFF * 2 ^ 16 + 0xFF)) = 0 && decide ((tmplMatch q, bits q 7 0) ∈ keys)

/-- Item 6: no lead of the same MATCH has another TYPE. -/
def keyOk (keys : List (Nat × Nat)) (q : QWord) : Bool :=
  keys.all fun k => k.1 ≠ tmplMatch q || k.2 = bits q 7 0

/-- The first template that a tile names and a check refuses. -/
def badTemplate (x : Tile) (ok : Bool → QWord → Bool) : Option Reject :=
  x.named.findSome? fun p => if ok p.2 (x.template p.1) then none else some (0x7047, strTmpl, p.1)

/-- All items of R217 for a tile that a load writes. -/
def checkTemplate (req : Nat) (keys : List (Nat × Nat)) (x : Tile) : Option Reject :=
  badTemplate x fun lead q =>
    if lead then leadOk req q && keyOk keys q
    else decide (BitVec.ofNat 8 (bits q 7 0) ∈ tileTypes) && joinOk keys q

/-- Items 5 and 6 of R217 for a tile outside the region of a partial image. -/
def checkStanding (keys : List (Nat × Nat)) (x : Tile) : Option Reject :=
  badTemplate x fun lead q => if lead then keyOk keys q else joinOk keys q

/-! ## A tile -/

/-- The checks of a tile in the order of their codes. -/
def checkTile (c : DestCtx) (keys : List (Nat × Nat)) (carried : Bool) (x : Tile) : Option Reject :=
  (checkSpine x).orElse fun _ => (checkReady x).orElse fun _ => (checkEncoding x).orElse fun _ =>
    (checkEnd x carried).orElse fun _ => (checkBeyond x).orElse fun _ => (checkDest c x).orElse fun _ =>
      (checkSignal c.req x).orElse fun _ => checkTemplate c.req keys x

end Sys2Proof.Machine
end

