-- ==== Sys2Proof/Machine/Loader.lean ====
section
/-! DEFINITION. Personality loading: the byte stream, the header, frames, relocation, the final checks,
partial images and failures (R164 to R213). -/

namespace Sys2Proof.Machine

/-! ## States and failures (R188, R189, R202, R203) -/

/-- The code of a loader state (R188). -/
def LdrState.code : LdrState → Nat
  | .empty => 0 | .service => 1 | .header => 2 | .stage => 3
  | .write => 4 | .check => 5 | .commit => 6 | .failed => 7

/-- The loader's record replaced. -/
def State.setLdr (s : State) (l : Loader) : State := { s with ldr := l }

/-- READY becomes 1: the line, the cause and READY_T, and the clean mark is cleared (R514, R522). -/
def State.becomeReady (s : State) : State :=
  let s := (s.setFld .glbBootStat 31 31 1).setFld .glbBootStat 15 0 (min 0xFFFF (s.sup.ns / 100000))
  let s := ((s.setFld .glbBootStat 26 26 0).event 0x42 [decText 1]).cause rstPage 1
  { s with flash := { s.flash with clean := false }, sup := { s.sup with power := .running } }

/-- READY once SRAM_READY, DDR_DONE and AUTOLOAD_DONE are all 1 (R514). -/
def State.checkReady (s : State) : State :=
  if s.sup.power = .starting ∧ bits (s.rd .glbBootStat) 30 28 = 7 then s.becomeReady else s

/-- The end of the autoload, in SERVICE or FAILED (R514). -/
def State.autoloadEnd (s : State) (n : LdrState) : State :=
  if s.sup.autoload && (n = .service || n = .failed) then
    let s : State := { s with sup := { s.sup with autoload := false } }
    (s.setFld .glbBootStat 28 28 1).checkReady
  else s

/-- The cause that entering a state sets: LOADED in SERVICE, FAILED in FAILED (R203, text before R206). -/
def State.ldrCause (s : State) (n : LdrState) : State :=
  match n with
  | .service => s.cause ldrPage 1
  | .failed => s.cause ldrPage 2
  | _ => s

/-- The loader in another state, with its event line (R59) and its cause. -/
def State.ldrTo (s : State) (n : LdrState) : State :=
  if s.ldr.state = n then s
  else (((s.setLdr { s.ldr with state := n }).event 0x4C [decText n.code]).autoloadEnd n).ldrCause n

/-- ALERT_N for the banks that are off and hold a bound pin of the image in service (R536). -/
def State.vdioAlert (s : State) : State :=
  s.alert 5 ((List.range 128).any fun p =>
    s.ldr.inService && !bit s.sup.vdioOn (p / 32) &&
      decide (bits (Table.get (fun _ => (0 : Word)) s.ldr.pinEnable p) 31 30 ≠ 0))

/-- Bytes dropped and counted (R185, R209). -/
def State.dropBytes (s : State) (n : Nat) : State := s.countReg .ldrDropped 0xFFFFFFFF n

/-- No tile serves a virtual tile, and no tile holds a loaded recipe (R110). -/
def State.unmap (s : State) : State :=
  s.mapTiles fun x => { x with vtile := none, phase := .idle, hold := none, depth := 0 }

/-- A failed load: recorded, CFGERR_N asserted, FAILED, and the image kept or lost by the state in which
it failed (R202, R203). Bytes of an incomplete header or frame were taken, so LDR_DROPPED does not count
them (R209). -/
def State.ldrFail (s : State) (code info : Nat) : State :=
  let kept :=
    match s.ldr.state with
    | .header => true
    | .stage => true
    | .check => s.ldr.partialLoad
    | _ => false
  let s := s.err ldrPage code info
  let s := s.setLdr { s.ldr with cfgerr := true, buf := [] }
  let s := s.ldrTo .failed
  if kept then s.setLdr { s.ldr with kept := s.ldr.inService }
  else
    ((s.unmap).setLdr { s.ldr with
      kept := false, inService := false, image := none, done := false, setReset := true }).vdioAlert

/-- A failure that the bytes show: those that follow reach FAILED and are dropped (R189). -/
def State.ldrReject (s : State) (code info : Nat) : State :=
  (s.dropBytes s.ldr.buf.length).ldrFail code info

/-- PG_ERR_INFO of a failure that names no frame (R202). -/
def ldInfo (low : Nat) : Nat := 0xFF000000 + low % 2 ^ 16

/-! ## Bytes (R185, R189) -/

/-- The source that LDR_CTRL.SRC selects. -/
def State.ldrSrc (s : State) : Nat := s.fld .ldrCtrl 1 0

/-- The first bytes of a load. -/
def State.beginLoad (s : State) (b : List Byte) : State :=
  if b.isEmpty then s
  else (s.setLdr { s.ldr with
    buf := b, gapNs := 0, crc := 0xFFFFFFFF, partialLoad := s.ldr.lastPartial }).ldrTo .header

/-- Bytes offered by a source: dropped when another is selected, when EN is 0, or in CHECK, COMMIT and
FAILED; the first byte in EMPTY or SERVICE begins a load. -/
def State.offer (s : State) (src : Nat) (b : List Byte) : State :=
  if s.ldrSrc ≠ src ∨ !s.pageEn ldrPage then s.dropBytes b.length
  else
    match s.ldr.state with
    | .check => s.dropBytes b.length
    | .commit => s.dropBytes b.length
    | .failed => s.dropBytes b.length
    | .empty => s.beginLoad b
    | .service => s.beginLoad b
    | _ => s.setLdr { s.ldr with buf := s.ldr.buf ++ b, gapNs := 0 }

/-- LDR_DATA_WRITE: four bytes, or eight for a 64-bit write. -/
def execLdrDataWrite (size : Nat) (data : DWord) (s : State) : Out := onWrite ldrPage s (
    whenDue (size = 4 || size = 8) s (s.offer 1 (leBytes size data.toNat)))

/-- The length of an image, which its header gives (R187). -/
def imageLength (b : List Byte) : Nat := 80 + 4112 * field b 0x14 4

/-- The bytes of one image. -/
def imageBytes (b : List Byte) : List Byte := b.take (imageLength b)

/-- LD_CFG_BUSY: a write dropped while a load is in progress (R180). -/
def State.cfgBusy (s : State) (off : Nat) : State := s.err ldrPage 0x704E (ldInfo off)

/-- Bytes 0x0 to 0xB of a copy of the boot settings (R498). -/
def BootCopy.body (c : BootCopy) : List Byte :=
  leBytes 1 c.flags.toNat ++ leBytes 1 c.sck.toNat ++ leBytes 2 c.rsvd.toNat ++ leBytes 4 c.offset.toNat ++
    leBytes 4 c.seq.toNat

/-- The CRC of a copy of the boot settings holds (R498). -/
def BootCopy.good (c : BootCopy) : Bool := c.crc = crcOf crc32Poly c.body

/-- The fields of FLAGS of the boot settings. -/
def BootCopy.autoload (c : BootCopy) : Bool := bit c.flags 0
def BootCopy.quad (c : BootCopy) : Bool := bit c.flags 1

/-- SCK of the boot settings: the rates 0 to 2; other values act as 0 (R498). -/
def BootCopy.rate (c : BootCopy) : Nat := if c.sck.toNat ≤ 2 then c.sck.toNat else 0

/-- SCK as FLS_BOOT_CFG shows it: a byte that its 2 bits cannot hold shows the 0 that it acts as (R498, R504). -/
def BootCopy.sckField (c : BootCopy) : Nat := if c.sck.toNat < 4 then c.sck.toNat else 0

/-- Copy B, where both copies are good, has the higher SEQ modulo 2^32. -/
def Flash.bootNewerB (f : Flash) : Bool := decide ((f.bootA.seq - f.bootB.seq).toInt < 0)

/-- The current copy of the boot settings: the good one, or of two good ones the one with the higher
SEQ modulo 2^32; every field 0 when neither is good (R498). -/
def Flash.boot (f : Flash) : BootCopy :=
  if f.bootA.good then (if f.bootB.good && f.bootNewerB then f.bootB else f.bootA)
  else if f.bootB.good then f.bootB
  else ⟨0, 0, 0, 0, 0, 0⟩

/-- The rate of SPI_SCK by SCK of the boot settings (R498). -/
def sckRate (sck : Nat) : Nat := if sck = 1 then 25000000 else if sck = 2 then 50000000 else 12500000

/-- A read of one image of n bytes from the boot flash, from the OFFSET of the boot settings on: 3-byte
addresses where the whole image lies below 16 MiB, else 4-byte ones (R187). -/
def State.spiStart (s : State) (n : Nat) : State :=
  let b := s.flash.boot
  let a := b.offset.toNat
  let short := decide (a + n ≤ 2 ^ 24)
  let cmd : Byte := if b.quad then (if short then 0x6B else 0x6C) else (if short then 0x03 else 0x13)
  s.setLdr { s.ldr with
    spi := some ⟨cmd, a, b.quad, if b.quad then 8 else 0, sckRate b.rate, n⟩ }

/-- LDR_CTRL written: dropped from HEADER to COMMIT (R190); SRC 2 in EMPTY or SERVICE begins a read of
the boot flash, of the header's 64 bytes until FRAME_COUNT is known (R187). -/
def State.writeLdrCtrl (s : State) (val : Word) : State :=
  if s.loading then s.cfgBusy 0x040
  else
    let begins := bits val 1 0 = 2 ∧ (s.ldr.state = .empty ∨ s.ldr.state = .service)
    let s := s.wr .ldrCtrl (val &&& 0x3)
    if begins then s.spiStart 64 else s

/-- LDR_SPI_READ: SRC becomes 2; in EMPTY or SERVICE the flash's bytes follow (R187). -/
def execLdrSpiRead (val : Word) (bytes : List Byte) (s : State) : Out := onWrite ldrPage s (
    whenDue (bits val 1 0 = 2) s (
      let begins := s.ldr.state = .empty ∨ s.ldr.state = .service
      let s := s.writeLdrCtrl val
      if begins then (s.spiStart (imageLength bytes)).offer 2 (imageBytes bytes) else s))

/-! ## The header (R165, R190 to R192) -/

/-- The 64 header bytes as fields. -/
def readHeader (b : List Byte) : Header where
  tgc := field b 0x08 1
  minStepping := field b 0x09 1
  reqTiles := field b 0x0A 1
  partialImg := field b 0x0B 1 = 1
  regionFirst := field b 0x0C 1
  regionLast := field b 0x0D 1
  self := field b 0x10 1
  models := field b 0x11 1
  frameCount := field b 0x14 4
  build := BitVec.ofNat 64 (field b 0x18 8)

/-- R190 item 2: the offset of the first bad field. -/
def headerBad (b : List Byte) : Option Nat :=
  let n := field b 0x14 4
  if field b 0 4 ≠ 0x494B544F then some 0
  else if field b 4 2 ≠ 1 then some 4
  else if 2 ≤ field b 0x0E 1 then some 0x0E
  else if field b 0x0E 1 = 0 ∧ field b 0x0F 1 ≠ 0 then some 0x0F
  else if 64 < field b 0x11 1 then some 0x11
  else if field b 0x12 2 ≠ 0 then some 0x12
  else if n < 1 ∨ 175363 < n then some 0x14
  else if field b 0x20 32 ≠ 0 then some 0x20
  else none

/-- The lowest virtual tile below n whose GLB_VMAP entry is not valid. -/
def State.vmapBad (s : State) (n : Nat) : Option Nat :=
  (List.range n).find? fun v => !bit (s.rd .glbVmap v) 31

/-- LDR_STAGE.CAPACITY. -/
def State.stageCapacity (s : State) : Nat := 128 * (s.larderOf 2).length

/-- LDR_DEVMAP entry d as a register byte. -/
def State.devmapReg (s : State) (d : Nat) : Byte := (s.rd .ldrDevmap (d / 4)).extractLsb' (8 * (d % 4)) 8

/-- The header checks of R190 in their order: code and [15:0] of PG_ERR_INFO. -/
def State.headerCheck (s : State) (b : List Byte) : Option (Nat × Nat) :=
  let h := readHeader b
  let type := field b 0x0B 1
  let regionBad := if type = 0 then h.regionFirst ≠ 0 ∨ h.regionLast ≠ 0
    else h.regionLast < h.regionFirst ∨ h.reqTiles ≤ h.regionLast
  if !s.isHalted then some (0x7001, 0)
  else
    match headerBad b with
    | some o => some (0x7002, o)
    | none =>
      if field b 6 2 ≠ 0x9128 then some (0x7003, field b 6 2)
      else if h.tgc ≠ s.fuses.tgc then some (0x7004, h.tgc)
      else if s.fuses.stepping.toNat < h.minStepping then
        some (0x7005, s.fuses.stepping.toNat * 2 ^ 8 + h.minStepping)
      else if h.reqTiles < 1 ∨ 128 < h.reqTiles then some (0x7006, h.reqTiles)
      else
        match s.vmapBad h.reqTiles with
        | some v => some (0x7006, v)
        | none =>
          if 2 ≤ type then some (0x7007, 0)
          else if regionBad then some (0x7007, 1)
          else if type = 1 ∧ (s.ldr.image.isNone ∨ !s.ldr.inService) then some (0x7007, 2)
          else if type = 1 ∧ !(s.ldr.image.any fun g =>
              g.tgc = h.tgc && g.reqTiles = h.reqTiles && g.self = h.self && g.models = h.models) then
            some (0x7007, 3)
          else if type = 1 ∧ !(bit (s.rd .ldrShadowLo) 0 && s.ldr.shadowOk) then some (0x7008, 0)
          else if type = 1 ∧ s.stageCapacity < h.frameCount then some (0x7009, s.stageCapacity)
          else if !s.chain.valid || s.devmapReg h.self ≠ s.devId ||
              (field b 0x0E 1 = 1 && field b 0x0F 1 ≠ s.devId.toNat) then some (0x704D, h.self)
          else if type = 1 then
            (s.ldr.routeOk.find? fun d => d ≠ h.self && s.devmapReg d = s.devId).map fun d => (0x704D, d)
          else none

/-- The values that the loader latches when it accepts a header. -/
def State.latch (s : State) (h : Header) : State :=
  s.setLdr { s.ldr with
    hdr := some h
    partialLoad := h.partialImg
    frames := 0
    perTileSeen := false
    seen := []
    staged := []
    stagedCount := if h.partialImg then 0 else s.ldr.stagedCount
    relocs := []
    relocFrames := []
    rawDest := if h.partialImg then s.ldr.rawDest else []
    routeOk := if h.partialImg then s.ldr.routeOk else []
    devmap := (List.range 256).foldl (fun m d => Table.set (fun _ => 0) m d (s.devmapReg d)) []
    baseLoad := (List.range 64).foldl (fun m k =>
      Table.set (fun _ => 0) m k (s.rd64 .ldrMbaseLo .ldrMbaseHi k)) []
    first := s.rd64 .ldrFirstLo .ldrFirstHi
    shadowEn := bit (s.rd .ldrShadowLo) 0
    shadowAddr := s.rd64 .ldrShadowLo .ldrShadowHi &&& ~~~0xFFFF
    stageBanks := s.larderOf 2
    vmap := (List.range h.reqTiles).foldl
      (fun m v => Table.set (fun _ => 0) m v (s.fld .glbVmap 7 0 v)) [] }

/-- A bank handed over by the device and the handover carried to its end; one of the bank that is in
progress ends first, CLEAR included (R191, R283). -/
def State.giveBank (s : State) (h : Handover) : State :=
  let s := match s.mem.handovers.find? fun q => q.of h.larder h.ptile h.bank with
    | some q => s.endHandover q
    | none => s
  (s.startHandover h).endHandover h

/-- All pantry banks of a tile to the loader. -/
def State.takePantry (s : State) (t : Nat) : State :=
  (List.range 16).foldl (fun s b => s.giveBank ⟨false, t, b, 2, 0, false⟩) s

/-- The output drivers of the design pins off: every pin held by its weak pull (R191, R197). -/
def State.driversOff (s : State) : State :=
  { s with pins := { s.pins with dioDrive := 0, dioLevel := 0 } }

/-- The physical tile latched for virtual tile v. -/
def State.latched (s : State) (v : Nat) : Nat := Table.get (fun _ => 0) s.ldr.vmap v

/-- Bytes written to the shadow; a refused write clears SHADOW_OK and fails no load (R199). -/
def State.putShadow (s : State) (off : Nat) (d : List Byte) : State :=
  if s.ldr.shadowEn then
    match s.prfWrite (s.ldr.shadowAddr.toNat + off) d with
    | (.ok _, s) => s
    | (_, s) => s.setLdr { s.ldr with shadowOk := false }
  else s

/-- The shadow offset of a BINIT or WINIT frame. -/
def shadowOff (v stream o : Nat) : Nat := kib 80 * v + (if stream = strBinit then 0 else kib 64) + 4096 * o

/-- The reset values of virtual tile v zeroed in the shadow. -/
def State.zeroShadow (s : State) (v : Nat) : State :=
  slotFrames.foldl (fun s f => s.putShadow (shadowOff v f.1 f.2.1) (List.replicate 4096 0)) s

/-- Work items and tokens that came from tiles discarded (R221). -/
def State.dropTileItems (s : State) : State :=
  let s := s.dropItems SvcItem.fromTile
  { s with svc := { s.svc with tokens := [] } }

/-- What is counted since a load begins again, in every tile (R149, R153). DESIGN CHOICE (assumption 81): LAST of
TIL_FLAG_RESIDUE and of TIL_Q_RESIDUE, which no batch end since the load has given, becomes 0 with the rest. -/
def State.clearSinceLoad (s : State) : State :=
  (List.range numTiles).foldl (fun s t => (s.wr .tilFlagResidue 0 t).wr .tilQResidue 0 t) s

/-- A full image's header accepted (R191): the set-reset holds the design state of every tile, those that the
image leaves unmapped too (R195). -/
def State.acceptFull (s : State) (h : Header) : State :=
  let s := (s.acqStop true).latch h
  let s := s.setLdr { s.ldr with
    inService := false, image := none, done := false, setReset := true
    shadowOk := s.ldr.shadowEn, mbase := s.ldr.baseLoad, modelSize := [], modelInteg := []
    pinData := [], pinEnable := [], pinConfig := [] }
  let s := ((s.driversOff).alert 0 false).vdioAlert
  let s := { s.discardProofs with prf := { s.discardProofs.prf with sleeping := false } }
  let s := ((s.dropTileItems).unmap).clearSinceLoad
  let s := s.mapTiles fun x =>
      if x.retired then { x with xbatch := s.ldr.first } else { x.blank s.ldr.first with pantry := x.pantry }
  let s := { s with net := { s.net with loc := [] } }
  let s := (List.range h.reqTiles).foldl (fun s v =>
    let t := s.latched v
    (s.takePantry t).modTile t fun x => { (x.blank s.ldr.first) with power := .on }) s
  let s := (List.range h.reqTiles).foldl (fun s v => s.modTile (s.latched v) fun x => { x with vtile := some v }) s
  let s := (List.range 256).foldl (fun s d => (s.wr .nocRtLo 0 d).wr .nocRtHi 0 d) s
  let s := if s.ldr.shadowEn then (List.range 128).foldl State.zeroShadow s else s
  (s.setRun .idle).ldrTo .write

/-- A header at its 64th byte: checked, and accepted into WRITE or STAGE, or the load fails. -/
def State.takeHeader (s : State) : State :=
  let b := s.ldr.buf.take 64
  let s := s.setLdr { s.ldr with
    buf := s.ldr.buf.drop 64, crc := BitVec.ofNat 32 (crcUpdate crc32Poly s.ldr.crc.toNat b) }
  match s.headerCheck b with
  | some (code, info) => s.ldrReject code (ldInfo info)
  | none =>
    let h := readHeader b
    if h.partialImg then (((s.acqStop true).wakeMapped).latch h).ldrTo .stage else s.acceptFull h

/-- Self-test runs a slice of a tile: a header, whose acceptance writes every tile, waits for its end (R495). -/
def State.tileTested (s : State) : Bool :=
  match s.bst.slice with
  | some k => decide (k < 136)
  | none => false

/-- LDR_HEADER: it waits while a tile is under test (assumption 47). -/
def execLdrHeader (s : State) : Out :=
  whenDue (s.ldr.state = .header && decide (64 ≤ s.ldr.buf.length) && !s.tileTested) s s.takeHeader

/-! ## Frames (R166 to R171, R193) -/

/-- A frame as received. -/
structure RawFrame where
  vtile : Nat
  stream : Nat
  offset : Nat
  seq : Nat
  rsvd : Nat
  payload : List Byte

def readFrame (b : List Byte) : RawFrame where
  vtile := field b 0 1
  stream := field b 1 1
  offset := field b 2 2
  seq := field b 4 4
  rsvd := field b 8 8
  payload := (b.drop 16).take 4096

/-- Whether a frame is of a device-wide stream. -/
def RawFrame.wide (f : RawFrame) : Bool := decide (0x40 ≤ f.stream)

/-- PG_ERR_INFO for a frame. -/
def RawFrame.info (f : RawFrame) (low : Nat) : Nat :=
  f.vtile * 2 ^ 24 + f.stream * 2 ^ 16 + low % 2 ^ 16

/-- The header of the load in progress. -/
def State.hdr (s : State) : Header := s.ldr.hdr.getD ⟨0, 0, 0, false, 0, 0, 0, 0, 0, 0⟩

/-- R418: a probe entry without a reserved KIND or a bit outside its fields. -/
def probeOk (w : Word) : Bool :=
  match bits w 31 30 with
  | 0 => bits w 10 0 = 0
  | 1 => bits w 12 0 = 0
  | 2 => bits w 29 7 = 0
  | _ => false

/-- R170: a source word without a reserved KIND, whose fields are 0 unless KIND is 2. -/
def sourceOk (req : Nat) (w : Word) : Bool :=
  match bits w 31 30 with
  | 3 => false
  | 2 => decide (bits w 29 23 < req)
  | _ => bits w 29 0 = 0

/-- The first index below n for which a check fails. -/
def firstBad (n : Nat) (ok : Nat → Bool) : Option Nat := (List.range n).find? fun i => !ok i

/-- Word i of a payload. -/
def wordAt (p : List Byte) (o : Nat) : Word := BitVec.ofNat 32 (field p o 4)

/-- The content checks of R193 item 3 by stream: [15:0] of PG_ERR_INFO for LD_RESOURCE. A MODELS entry at or above
MODELS declares a symbol out of range (assumption 67). -/
def contentBad (req models : Nat) (f : RawFrame) : Option Nat :=
  let p := f.payload
  let zero (o n : Nat) : Bool := ((p.drop o).take n).all (· = 0)
  match f.stream with
  | 3 =>
    if zero 2048 2048 && (List.range 256).all fun e =>
        !bit (wordAt p (8 * e)) 0 && bits (wordAt p (8 * e + 4)) 29 0 = 0
    then none else some f.offset
  | 5 =>
    if !(zero 6 1018 && zero 0x800 2048) then some f.offset
    else if 256 < field p 4 2 then some (field p 4 2)
    else firstBad (field p 4 2) fun i => probeOk (wordAt p (0x400 + 4 * i))
  | 0x40 => if (List.range 256).all fun d => zero (16 * d + 13) 3 then none else some f.offset
  | 0x41 =>
    if (List.range 128).all fun i => bits (wordAt p (16 * i)) 3 0 = 0 && bits (wordAt p (16 * i + 4)) 3 0 = 0 &&
        bits (wordAt p (16 * i + 8)) 31 3 = 0 && zero (16 * i + 12) 4 then
      firstBad 128 fun i => sourceOk req (wordAt p (16 * i)) && sourceOk req (wordAt p (16 * i + 4))
    else some f.offset
  | 0x42 =>
    if (List.range 256).all fun k => bits (wordAt p (16 * k + 8)) 31 1 = 0 && zero (16 * k + 12) 4 then
      firstBad 256 fun k => decide (k < models) || zero (16 * k) 16
    else some f.offset
  | _ => none

/-- R193 item 3 as far as the frame header shows it. -/
def RawFrame.fits (req : Nat) (f : RawFrame) : Bool :=
  (match strFrames f.stream with
    | some n => decide (f.offset < n) &&
        (if f.wide then f.vtile = 0xFF else decide (f.vtile < 128) && decide (f.vtile < req))
    | none => false) && f.rsvd = 0

/-- Record i of a RELOC payload. -/
def readReloc (f : RawFrame) (i : Nat) : Reloc where
  index := 256 * f.offset + i
  mbase := field f.payload (16 * i) 1 = 2
  sym := field f.payload (16 * i + 1) 1
  vtile := field f.payload (16 * i + 2) 1
  stream := field f.payload (16 * i + 3) 1
  offset := field f.payload (16 * i + 4) 4

/-- The bytes of a stream that a RELOC record may patch. -/
def relocBytes (stream : Nat) : Nat := if stream = strTmpl then 4096 else if stream = strPinit then 2 ^ 20 else 0

/-- R175: a record of KIND 1 or 2 is well formed. -/
def relocOk (h : Header) (f : RawFrame) (i : Nat) : Bool :=
  let r := readReloc f i
  let kind := field f.payload (16 * i) 1
  (kind = 1 || kind = 2) && (if r.mbase then decide (r.sym < h.models) && r.offset % 8 = 0 else r.sym = 0) &&
    decide (r.vtile < h.reqTiles) && decide (r.offset < relocBytes r.stream) &&
    field f.payload (16 * i + 8) 8 = 0 &&
    (!h.partialImg || (decide (h.regionFirst ≤ r.vtile) && decide (r.vtile ≤ h.regionLast)))

/-- The records of a RELOC frame before the first one of KIND 0, after which every byte is 0, or the index
of a malformed one; `n` records are left to read. The bytes of the record that ends the list are 0 too. -/
def takeRelocs (h : Header) (f : RawFrame) : Nat → List Reloc → Except Nat (List Reloc)
  | 0, acc => .ok acc
  | n + 1, acc =>
    let i := 256 - (n + 1)
    if field f.payload (16 * i) 1 = 0 then
      match (List.range' i (n + 1)).find? fun j => !((f.payload.drop (16 * j)).take 16).all (· = 0) with
      | some j => .error (256 * f.offset + j)
      | none => .ok acc
    else if relocOk h f i then takeRelocs h f n (acc ++ [readReloc f i])
    else .error (256 * f.offset + i)

/-- The record that stands after the end of the list: the first one of a RELOC frame with records, of
which an earlier frame ended the list. Frames come in any order; one that does not come is all zero, so it
ends the list too once the load is checked (`all`). -/
def Loader.relocAfterEnd (l : Loader) (all : Bool) : Option Nat :=
  let past (o : Nat) : Bool := (List.range o).any fun a =>
    match l.relocFrames.find? fun e => e.1 = a with
    | some e => decide (e.2 < 256)
    | none => all
  ((List.range 256).find? fun o =>
    (l.relocFrames.any fun e => e.1 = o && decide (0 < e.2)) && past o).map fun o => 256 * o

/-- Records kept in the order of the stream. -/
def mergeRelocs (l new : List Reloc) (first : Nat) : List Reloc :=
  (l.filter fun r => r.index < first) ++ new ++ l.filter fun r => decide (first ≤ r.index)

/-- Device ID of image device number d (LDR_DEVMAP as latched). -/
def State.devOf (s : State) (d : Nat) : Byte := Table.get (fun _ => 0) s.ldr.devmap d

/-- Port i of ROUTE entry d. -/
def routePort (p : List Byte) (d i : Nat) : Nat := field p (16 * d + 2 + i) 1
def routeCount (p : List Byte) (d : Nat) : Nat := field p (16 * d + 1) 1
def routeValid (p : List Byte) (d : Nat) : Bool := field p (16 * d) 1 = 1

/-- R169, R348: a valid ROUTE entry is in range, and its first hop exists. -/
def State.routeOk (s : State) (p : List Byte) (d : Nat) : Bool :=
  let n := routeCount p d
  let first := routePort p d 0
  !routeValid p d ||
    (decide (1 ≤ n) && decide (n ≤ 11) && ((List.range n).all fun i => decide (routePort p d i < 16)) &&
      ((List.range 11).all fun i => decide (i < n) || routePort p d i = 0) &&
      (decide (first < 8) || bits (s.rd .lnkCfg (first - 8)) 1 0 = 2))

/-- The base of model symbol k as the load in progress latched it. -/
def State.loadBase (s : State) (k : Nat) : Nat := (Table.get (fun _ => 0) s.ldr.baseLoad k).toNat

/-- R177 items 3 and 4 for model symbol k with a SIZE and INTEGRITY. -/
def State.modelFits (s : State) (k size : Nat) (integ : Bool) : Bool :=
  let base := s.loadBase k
  base % 64 = 0 && decide (base + size ≤ s.ddrCap) &&
    (!integ ||
      (List.range' (base / 2 ^ 20) ((base + size + 2 ^ 20 - 1) / 2 ^ 20 - base / 2 ^ 20)).all fun m =>
        s.integ (m * 2 ^ 20))

/-- MODELS entry k of a payload. -/
def State.modelOk (s : State) (p : List Byte) (k : Nat) : Bool :=
  let size := field p (16 * k) 8
  decide (size ≠ 0) && size % 64 = 0 && s.modelFits k size (field p (16 * k + 8) 4 % 2 = 1)

/-- The first model symbol that fails R177 although the load carries no MODELS frame: the declarations in
service under a partial image, SIZE 0 under a full one, which R171 allows no symbol below MODELS. -/
def State.modelBad (s : State) : Option Nat :=
  if (0xFF, strModels, 0) ∈ s.ldr.seen then none
  else
    (List.range s.hdr.models).find? fun k =>
      s.modelLen k = 0 || !s.modelFits k (s.modelLen k) (Table.get (fun _ => false) s.ldr.modelInteg k)

/-- ROUTE entry d expanded into the route table (R176, R348). -/
def State.putRoute (s : State) (p : List Byte) (d : Nat) : State :=
  if !routeValid p d then s
  else
    let n := routeCount p d
    let hop (i : Nat) : Nat := if i = 0 then routePort p d 0 % 8 / 2 else routePort p d (i - 1) % 8
    let hops := ((List.range (n + 1)).map fun i => hop i * 2 ^ (3 * i)).sum
    let half := ((List.range' 1 n).map fun i => routePort p d (i - 1) / 8 % 2 * 2 ^ i).sum
    let dev := (s.devOf d).toNat
    ((s.wr .nocRtLo (BitVec.ofNat 32 (hops % 2 ^ 24)) dev).wr .nocRtHi
      (BitVec.ofNat 32 (2 ^ 31 + (n + 1) * 2 ^ 24 + half * 2 ^ 12 + hops / 2 ^ 24)) dev).setLdr
      { s.ldr with routeOk := s.ldr.routeOk ++ [d] }

/-! ## Patches (R176) -/

/-- The destination entries of a payload with their device IDs bound (item 1). -/
def State.bindDest (s : State) (p : List Byte) : List Byte :=
  ((List.range 256).flatMap fun e =>
    let q : DWord := BitVec.ofNat 64 (field p (8 * e) 8)
    let dev := if destKind q = 0 then destDevice q else s.devOf (destDevice q).toNat
    (field p (8 * e) 3 |> leBytes 3) ++ [dev] ++ leBytes 4 (field p (8 * e + 4) 4)) ++ p.drop 2048

/-- One record applied to a byte list that begins at stream byte `base`; the second answer is false
when an MBASE field is not below SIZE. -/
def State.patch (s : State) (base : Nat) (p : List Byte) (r : Reloc) : List Byte × Bool :=
  if r.offset < base ∨ base + p.length ≤ r.offset then (p, true)
  else
    let o := r.offset - base
    if r.mbase then
      let f := field p o 8
      (splice p o (leBytes 8 (s.loadBase r.sym + f)), decide (f < s.modelLen r.sym))
    else (splice p o [s.devOf (field p o 1)], true)

/-- The records of a tile's stream applied to a frame's payload: the payload, or the index of a record
that fails. -/
def State.patchFrame (s : State) (f : RawFrame) : Except Nat (List Byte) :=
  (s.ldr.relocs.filter fun r => r.vtile = f.vtile && r.stream = f.stream).foldl (fun acc r =>
    match acc with
    | .ok p =>
      let q := s.patch (4096 * f.offset) p r
      if q.2 then .ok q.1 else .error r.index
    | e => e) (.ok (if f.stream = strDest then s.bindDest f.payload else f.payload))

/-! ## A frame taken (R193) -/

/-- PG_ERR_INFO of LD_RELOC: the record is of the RELOC stream (R182). -/
def relocInfo (i : Nat) : Nat := 0xFF430000 + i % 2 ^ 16

/-- A device-wide frame written to its destination, or the code and PG_ERR_INFO of its failure. -/
def State.takeWide (s : State) (f : RawFrame) : Except (Nat × Nat) State :=
  let p := f.payload
  let h := s.hdr
  match f.stream with
  | 0x40 =>
    match (List.range 256).find? fun d => !s.routeOk p d with
    | some d => .error (0x704A, f.info d)
    | none =>
      match (List.range 256).find? fun d => d ≠ h.self && routeValid p d && s.devOf d = s.devId with
      | some d => .error (0x704D, f.info d)
      | none => .ok ((List.range 256).foldl (fun s d => s.putRoute p d) s)
  | 0x41 => .ok (s.setLdr { s.ldr with
      pinData := (List.range 128).foldl (fun m i => Table.set (fun _ => 0) m i (wordAt p (16 * i))) []
      pinEnable := (List.range 128).foldl (fun m i => Table.set (fun _ => 0) m i (wordAt p (16 * i + 4))) []
      pinConfig := (List.range 128).foldl (fun m i => Table.set (fun _ => 0) m i (wordAt p (16 * i + 8))) [] })
  | 0x42 =>
    match (List.range h.models).find? fun k => !s.modelOk p k with
    | some k => .error (0x704B, f.info k)
    | none => .ok (s.setLdr { s.ldr with
        modelSize := (List.range h.models).foldl (fun m k =>
          Table.set (fun _ => 0) m k (BitVec.ofNat 64 (field p (16 * k) 8))) []
        modelInteg := (List.range h.models).foldl (fun m k =>
          Table.set (fun _ => false) m k (field p (16 * k + 8) 4 % 2 = 1)) [] })
  | _ =>
    match takeRelocs h f 256 [] with
    | .error i => .error (0x7049, relocInfo i)
    | .ok l =>
      let s := s.setLdr { s.ldr with
        relocs := mergeRelocs s.ldr.relocs l (256 * f.offset)
        relocFrames := s.ldr.relocFrames ++ [(f.offset, l.length)] }
      match s.ldr.relocAfterEnd false with
      | some i => .error (0x7049, relocInfo i)
      | none => .ok s

/-- The destination entries of the image kept as it carries them. -/
def State.keepRaw (s : State) (f : RawFrame) : State :=
  if f.stream = strDest then
    s.setLdr { s.ldr with rawDest := putTable s.ldr.rawDest (256 * f.vtile) 8 (f.payload.take 2048) }
  else s

/-- A larder bank refuses the loader: the loader does not own it, a handover of it is in progress, it has failed, or
it is under test (R284, R295, R495). -/
def State.bankRefused (s : State) (bank : Nat) : Bool :=
  let w := s.rd .memLown bank
  ownKind w ≠ 2 || ownPending w || ownFailed w || s.underTest (136 + bank / 8)

/-- The staging bank of the next frame refuses the loader. -/
def State.stageRefused (s : State) : Bool :=
  s.hdr.partialImg && s.bankRefused (s.ldr.stageBanks.getD (s.ldr.staged.length / 128) 0)

/-- A bank that holds a staged frame refuses the loader: its frames are read no more (assumption 71). -/
def State.stagedLost (s : State) : Bool :=
  s.hdr.partialImg && s.ldr.staged.any fun f => s.bankRefused (f.addr / 2 ^ 19)

/-- A payload staged in the larder, in the banks that the loader owned at header acceptance (R200). -/
def State.stage (s : State) (f : RawFrame) (p : List Byte) : State :=
  let n := s.ldr.staged.length
  let bank := s.ldr.stageBanks.getD (n / 128) 0
  let a := bank * 2 ^ 19 + n % 128 * 4096
  let s := (s.touchLarder bank).setLdr { s.ldr with
    staged := s.ldr.staged ++ [⟨f.vtile, f.stream, f.offset, a⟩], stagedCount := n + 1 }
  { s with mem := { s.mem with larder := s.mem.larder.writeBytes a p } }

/-- A patched per-tile frame written or staged (R193). -/
def State.placeFrame (s : State) (f : RawFrame) (p : List Byte) : State :=
  let s := s.keepRaw f
  if s.hdr.partialImg then s.stage f p
  else
    let s := s.modTile (s.latched f.vtile) fun x => x.putFrame f.stream f.offset p
    if f.stream = strBinit ∨ f.stream = strWinit then
      s.putShadow (shadowOff f.vtile f.stream f.offset) p
    else s

/-- What the 16 bytes of a frame header decide of R193, in its order: code and PG_ERR_INFO. DEDUCED (assumption 82): a
frame of a partial image with a reserved STREAM, 0x09 to 0x3F, is no per-tile frame, so it fails item 2 as LD_REGION
whatever its VTILE, before item 3 could make it LD_RESOURCE. -/
def State.frameHead (s : State) (f : RawFrame) : Option (Nat × Nat) :=
  let h := s.hdr
  if f.seq ≠ s.ldr.frames ∨ (f.wide ∧ s.ldr.perTileSeen) then some (0x700A, f.info s.ldr.frames)
  else if h.partialImg ∧ ¬(f.stream = strReloc ∨
      (f.stream < 9 ∧ h.regionFirst ≤ f.vtile ∧ f.vtile ≤ h.regionLast)) then
    some (0x700B, f.info f.offset)
  else if !f.fits h.reqTiles then some (0x7048, f.info f.offset)
  else none

/-- A frame whose header passed, with its payload: the rest of R193, patched and placed. A staging bank that
refuses the loader fails the load as LD_STAGE_FULL (R284, assumption 71). -/
def State.takePayload (s : State) (f : RawFrame) : State :=
  let done (s : State) : State :=
    (s.setLdr { s.ldr with
      frames := s.ldr.frames + 1
      perTileSeen := s.ldr.perTileSeen || !f.wide
      seen := s.ldr.seen ++ [(f.vtile, f.stream, f.offset)] }).wr .ldrFrames
      (BitVec.ofNat 32 (s.ldr.frames + 1))
  match contentBad s.hdr.reqTiles s.hdr.models f with
  | some low => s.ldrReject 0x7048 (f.info low)
  | none =>
    if (f.vtile, f.stream, f.offset) ∈ s.ldr.seen then s.ldrReject 0x704C (f.info f.offset)
    else if s.stageRefused then s.ldrReject 0x7009 (f.info s.stageCapacity)
    else if f.wide then
      match s.takeWide f with
      | .ok s => done (if s.hdr.partialImg then s.stage f f.payload else s)
      | .error (code, info) => s.ldrReject code info
    else
      match s.patchFrame f with
      | .ok p => done (s.placeFrame f p)
      | .error i => s.ldrReject 0x7049 (relocInfo i)

/-- n bytes of the stream taken. -/
def State.takeBytes (s : State) (n : Nat) : State :=
  s.setLdr { s.ldr with
    buf := s.ldr.buf.drop n
    crc := BitVec.ofNat 32 (crcUpdate crc32Poly s.ldr.crc.toNat (s.ldr.buf.take n)) }

/-- A frame checked, patched and placed. A failure that the frame header shows comes at the header's last
byte; the bytes after it are dropped. -/
def State.takeFrame (s : State) : State :=
  let f := readFrame (s.ldr.buf.take 4112)
  match s.frameHead f with
  | some (code, info) => (s.takeBytes 16).ldrReject code info
  | none => if 4112 ≤ s.ldr.buf.length then (s.takeBytes 4112).takePayload f else s

/-- A tile that the load in progress has latched is under test: its checks and its copy wait (R495). -/
def State.loadTested (s : State) : Bool :=
  s.tileTested && (List.range s.hdr.reqTiles).any fun v => s.underTest (s.latched v)

/-- The tile of the next frame of a full image is under test: the frame waits (R495). -/
def State.frameTested (s : State) : Bool :=
  s.ldr.state = .write && s.tileTested && s.underTest (s.latched (readFrame (s.ldr.buf.take 16)).vtile)

/-- LDR_FRAME: a frame of a tile under test waits (assumption 47). -/
def execLdrFrame (s : State) : Out :=
  whenDue ((s.ldr.state = .write || s.ldr.state = .stage) && decide (s.ldr.frames < s.hdr.frameCount) &&
    decide (16 ≤ s.ldr.buf.length) && !s.frameTested) s s.takeFrame

/-- LDR_TRAILER: the 16th trailer byte; bytes after it are dropped (R189). -/
def execLdrTrailer (s : State) : Out :=
  whenDue ((s.ldr.state = .write || s.ldr.state = .stage) && s.ldr.frames = s.hdr.frameCount &&
    decide (16 ≤ s.ldr.buf.length)) s (
    let b := s.ldr.buf.take 16
    let s := s.dropBytes (s.ldr.buf.length - 16)
    (s.setLdr { s.ldr with
      trailer := b
      crc := BitVec.ofNat 32 (crcUpdate crc32Poly s.ldr.crc.toNat (b.take 12))
      buf := [] }).ldrTo .check)

/-! ## The final checks (R194) -/

/-- The CRC computed over the image. -/
def State.imageCrc (s : State) : Word := s.ldr.crc ^^^ 0xFFFFFFFF

/-- The trailer is as R172 gives. -/
def State.trailerOk (s : State) : Bool :=
  field s.ldr.trailer 0 4 = 0x454B544F && field s.ldr.trailer 4 4 = s.hdr.frameCount &&
    field s.ldr.trailer 8 4 = 0

/-- The tile that virtual tile v will be: for a full load, and outside the region of a partial one, the
tile itself; in the region, its staged frames over zeros (R201). -/
def State.candidate (s : State) (v : Nat) : Tile :=
  let h := s.hdr
  if h.partialImg ∧ h.regionFirst ≤ v ∧ v ≤ h.regionLast then
    (s.ldr.staged.filter fun f => f.vtile = v).foldl
      (fun x f => x.putFrame f.stream f.offset (s.mem.larder.readBytes f.addr 4096))
      ((s.tile (s.latched v)).blank s.ldr.first)
  else s.tile (s.latched v)

/-- The larder banks of the staged frames read: a bank in retention wakes (R291). -/
def State.touchStaged (s : State) : State :=
  s.ldr.staged.foldl (fun s f => s.touchLarder (f.addr / 2 ^ 19)) s

/-- The virtual tiles that a load checks. -/
def State.loadTiles (s : State) : List Nat :=
  let h := s.hdr
  if h.partialImg then List.range' h.regionFirst (h.regionLast + 1 - h.regionFirst)
  else List.range h.reqTiles

/-- Whether a load carried a frame. -/
def State.carried (s : State) (v stream o : Nat) : Bool := decide ((v, stream, o) ∈ s.ldr.seen)

/-- The destination context of virtual tile v. -/
def State.destCtx (s : State) (v : Nat) : DestCtx where
  req := s.hdr.reqTiles
  self := s.hdr.self
  routes := s.ldr.routeOk
  raw := fun e =>
    if s.hdr.partialImg && !s.carried v strDest 0 then 0
    else Table.get (fun _ => 0) s.ldr.rawDest (256 * v + e)

/-- The virtual tiles outside the region of a partial image; none for a full one. -/
def State.outsideTiles (s : State) : List Nat :=
  let h := s.hdr
  if h.partialImg then (List.range h.reqTiles).filter fun v => v < h.regionFirst || h.regionLast < v else []

/-- The first failure of a recipe, tile by tile: code and PG_ERR_INFO. The templates in service outside the region of a
partial image come after the region's tiles (R217 item 6, assumption 18). -/
def State.recipeCheck (s : State) : Option (Nat × Nat) :=
  let keys := leadKeys ((List.range s.hdr.reqTiles).map s.candidate)
  let place (v : Nat) (r : Reject) : Nat × Nat := (r.1, v * 2 ^ 24 + r.2.1 * 2 ^ 16 + r.2.2 % 2 ^ 16)
  (s.loadTiles.findSome? fun v =>
    (checkTile (s.destCtx v) keys (s.carried v strCtrl 0 && s.carried v strTcfg 0) (s.candidate v)).map (place v)).orElse
  fun _ => s.outsideTiles.findSome? fun v => (checkStanding keys (s.candidate v)).map (place v)

/-- The stream bytes of a tile that a record of a frame that did not come targets, patched. -/
def State.patchTile (s : State) (r : Reloc) : State :=
  let o := r.offset / 4096
  let t := s.latched r.vtile
  if s.carried r.vtile r.stream o then s
  else
    let p := (s.tile t).frameBytes r.stream o
    s.modTile t fun x => x.putFrame r.stream o (s.patch (4096 * o) p r).1

/-- The records that target frames which the image does not carry patch the zero fill (R176). -/
def State.patchRest (s : State) : State := s.ldr.relocs.foldl State.patchTile s

/-- Whether the field of a record on a frame that the image does not carry is below SIZE of its model: the field is that
of the zero fill as the earlier records of the frame have patched it (R176 item 4). -/
def State.zeroOk (s : State) (r : Reloc) : Bool :=
  let base := 4096 * (r.offset / 4096)
  let earlier := s.ldr.relocs.filter fun q =>
    decide (q.index < r.index) && q.vtile = r.vtile && q.stream = r.stream && q.offset / 4096 = r.offset / 4096
  (s.patch base (earlier.foldl (fun p q => (s.patch base p q).1) (List.replicate 4096 0)) r).2

/-- What only the whole image shows of its device-wide streams: a RELOC record after the end of the list,
a model out of range, and a record on a frame that the image does not carry whose field is not below SIZE of its
model (R175 to R177): code and PG_ERR_INFO. -/
def State.restBad (s : State) : Option (Nat × Nat) :=
  match s.ldr.relocAfterEnd true with
  | some i => some (0x7049, relocInfo i)
  | none =>
    match s.modelBad with
    | some k => some (0x704B, 0xFF420000 + k)
    | none =>
      (s.ldr.relocs.find? fun r =>
        r.mbase && !s.carried r.vtile r.stream (r.offset / 4096) && !s.zeroOk r).map fun r =>
          (0x7049, relocInfo r.index)

/-- The loader enters SERVICE (R189, R198, R208, R213). -/
def State.enterService (s : State) : State :=
  let h := s.hdr
  let img := if h.partialImg then s.ldr.image.map fun g => { g with build := h.build } else some h
  let s := s.setLdr { s.ldr with
    image := img, inService := true, done := true, setReset := true, cfgerr := false
    lastPartial := h.partialImg, imageFirst := s.ldr.first, mbase := s.ldr.baseLoad }
  let s := (s.wr .ldrBuildLo (lo32 h.build)).wr .ldrBuildHi (hi32 h.build)
  let s := (s.wr .ldrCrc (wordAt s.ldr.trailer 12)).wr .ldrImage
    (BitVec.ofNat 32 (h.tgc * 2 ^ 16 + h.self * 2 ^ 8 + h.reqTiles))
  let s := { s with prf := { s.prf with baseDue := true, recipeDue := true } }
  s.vdioAlert.ldrTo .service

/-- A tile that no virtual tile is mapped to, at a load: its design state at the reset values of R195 without a frame,
flags 0, queues empty with HEAD 0, no valid mailbox slot, and its exchange batch and those it knows at LDR_FIRST (R91,
R117, R153, R195). -/
def Tile.loadCleared (x : Tile) (first : DWord) : Tile :=
  { x with
    xbatch := first, known := []
    thenHalf := [], nowHalf := [], wuReg := [], tap := [], mbx := [], mbxValid := 0, mbxHeld := 0, flags := []
    qHead := [], qCount := [] }

/-- Step items of COMMIT that come before its copy ends (R201 items 1 to 3): the set-reset holds the design
state of every mapped tile, whose reset values the copy then writes (R91). Mapped tiles that went to sleep in STAGE wake
(assumption 30). -/
def State.beginCommit (s : State) : State :=
  let s := s.wakeMapped
  let s := s.setLdr { s.ldr with done := false, setReset := true }
  let s := ((s.driversOff).discardProofs.dropTileItems).clearSinceLoad
  let s := s.mapTiles fun x => if x.vtile.isSome then x.setReset s.ldr.first else x.loadCleared s.ldr.first
  let s := s.loadTiles.foldl (fun s v => s.takePantry (s.latched v)) s
  (s.setRun .idle).ldrTo .commit

/-- The checks of R194 made: SERVICE, COMMIT, or a failed load. DESIGN CHOICE (assumption 82): LD_TRAILER and LD_CRC,
of whose PG_ERR_INFO R202 gives only bits [15:0], name no frame, so bits [31:16] are 0xFF00 as for a header failure. -/
def State.checkDone (s : State) : State :=
  if !s.trailerOk then s.ldrFail 0x700C (ldInfo 0)
  else if s.imageCrc ≠ wordAt s.ldr.trailer 12 then s.ldrFail 0x700D (ldInfo s.imageCrc.toNat)
  else
    match s.restBad with
    | some (code, info) => s.ldrFail code info
    | none =>
      if s.stagedLost then s.ldrFail 0x7009 (ldInfo s.stageCapacity)
      else
        let s := if s.hdr.partialImg then s.touchStaged else s.patchRest
        match s.recipeCheck with
        | some (code, info) => s.ldrFail code info
        | none => if s.hdr.partialImg then s.beginCommit else s.enterService

/-- LDR_CHECK_DONE: the checks wait while a tile of the load is under test (assumption 47). -/
def execLdrCheckDone (s : State) : Out :=
  whenDue (s.ldr.state = .check && !s.loadTested) s s.checkDone

/-! ## COMMIT (R201) -/

/-- The reset values of a tile outside the region read from the shadow; `ue` meets an uncorrected
error. -/
def State.fromShadow (s : State) (v : Nat) (ue : Dram) : Bool × State :=
  let t := s.latched v
  let s := s.modTile t fun x => x.setReset s.ldr.first
  match s.getFrames t (s.ldr.shadowAddr.toNat + kib 80 * v) ue slotFrames with
  | (.ok _, s) => (true, s)
  | (_, s) => (false, s)

/-- The tiles outside the region, in rising order, until one fails. -/
def State.fromShadowAll (s : State) (ueTile : Option Nat) : List Nat → Option Nat × State
  | [] => (none, s)
  | v :: rest =>
    match s.fromShadow v (if ueTile = some v then .failed else .clean) with
    | (true, s) => State.fromShadowAll s ueTile rest
    | (false, s) => (some v, s)

/-- A region tile replaced by its staged frames over zeros, its reset values put into the shadow. -/
def State.commitTile (s : State) (v : Nat) : State :=
  let t := s.latched v
  let x := { s.candidate v with vtile := some v }
  let s := s.setTile t x
  slotFrames.foldl (fun s f => s.putShadow (shadowOff v f.1 f.2.1) (x.frameBytes f.1 f.2.1)) s

/-- The copy of a partial image. -/
def State.commitDone (s : State) (ueTile : Option Nat) : State :=
  if s.stagedLost then s.ldrFail 0x7009 (ldInfo s.stageCapacity)
  else
    let s := s.loadTiles.foldl State.commitTile s.touchStaged
    match s.fromShadowAll ueTile s.outsideTiles with
    | (some v, s) => s.ldrFail 0x7011 (ldInfo v)
    | (none, s) => (s.patchRest).enterService

/-- LDR_COMMIT_DONE: the copy waits while a tile of the load is under test (assumption 47). -/
def execLdrCommitDone (ueTile : Option Nat) (s : State) : Out :=
  whenDue (s.ldr.state = .commit && !s.loadTested) s (s.commitDone ueTile)

/-! ## Ends of a load (R202, R207, R210) -/

/-- LDR_GAP_TIMEOUT: no byte for LDR_GAP_LIMIT.US in HEADER, STAGE or WRITE. -/
def execLdrGapTimeout (s : State) : Out :=
  let us := (s.rd .ldrGapLimit).toNat
  whenDue ((s.ldr.state = .header || s.ldr.state = .stage || s.ldr.state = .write) && decide (us ≠ 0) &&
    decide (us * 1000 < s.ldr.gapNs)) s (s.ldrFail 0x700E (ldInfo 0))

/-- LDR_CMD_ABORT: from HEADER to CHECK. -/
def execLdrCmdAbort (val : Word) (s : State) : Out := onWrite ldrPage s (
    whenDue (bit val 0 && s.loading && decide (s.ldr.state ≠ .commit)) s (s.ldrFail 0x700E (ldInfo 1)))

/-- LDR_CMD_CLEAR: leaves FAILED, deasserts CFGERR_N and clears LDR_DROPPED. -/
def execLdrCmdClear (val : Word) (s : State) : Out := onWrite ldrPage s (
    whenDue (bit val 1 && s.ldr.state = .failed) s
      (((s.setLdr { s.ldr with cfgerr := false, partialLoad := s.ldr.lastPartial }).wr .ldrDropped 0).ldrTo
        (if s.ldr.kept then .service else .empty)))

end Sys2Proof.Machine
end

