-- ==== Sys2Proof/Machine/Proofs.lean ====
section
/-! DEFINITION. Proofs: when a save is due, saving, restoring, the undo log applied back, sleep of
mapped tiles, and the proof commands (R30, R475 to R484, R490, R501). -/

namespace Sys2Proof.Machine

/-! ## When a save is due (R476) -/

/-- The number of the next batch to start (R196). -/
def State.nextBatch (s : State) : DWord := if s.ldr.setReset then s.ldr.imageFirst else s.run.batch

/-- log2 of the interval: 10 to 24, other values act as 16 (R501). -/
def State.prfInterval (s : State) : Nat :=
  let v := s.fld .prfCtrl 4 0
  if 10 ≤ v ∧ v ≤ 24 then v else 16

/-- PRF_CTRL.EN. -/
def State.prfEn (s : State) : Bool := bit (s.rd .prfCtrl) 31

/-- Item 2 of R476 at the boundary before batch p. -/
def State.scheduled (s : State) (p : DWord) : Bool :=
  decide (s.ldr.imageFirst.toNat < p.toNat) && (p.toNat - s.ldr.imageFirst.toNat) % 2 ^ s.prfInterval = 0 &&
    s.prf.savedAt ≠ some p

/-- A save is due at the boundary at which the device stands. No save is made in a recovery pause. -/
def State.saveNeeded (s : State) : Bool :=
  s.prfEn && s.pageEn prfPage && s.run.state ≠ .recover && !s.prf.redo &&
    (s.prf.baseDue || s.prf.saveDue || s.scheduled s.nextBatch)

/-! ## Saving (R478, R479) -/

/-- PRF_SAVE_FAIL. -/
def State.saveFailed (s : State) (reason : Nat) : State := s.err prfPage 0x8002 reason

/-- The end of a save that failed: the marks that asked for it are taken, CUR and PREV stay (R479). -/
def State.abandonSave (s : State) (reason : Nat) : State :=
  let s := s.dropItems fun i => i.source = .proofs && i.type = 0x40
  let s : State := { s with prf := { s.prf with
    state := .idle, todo := [], saveDue := false, baseDue := false, sleepAfter := false
    savedAt := some s.nextBatch } }
  let s : State := { s with run := { s.run with sleepCfg := s.run.sleepCfg &&& 0x7FFFFFFF } }
  s.saveFailed reason

/-- Proof items issued for the tiles that still need one, as far as the internal class has entries. -/
def State.issueProofs (type : Byte) : List Nat → State → State
  | [], s => { s with prf := { s.prf with todo := [] } }
  | t :: rest, s =>
    let r := s.issueInternal (blankItem .proofs type (BitVec.ofNat 64 type.toNat)
      (BitVec.ofNat 64 ((s.tile t).vtile.getD 0)))
    if r.1 then State.issueProofs type rest r.2
    else { s with prf := { s.prf with todo := t :: rest } }

/-- Every pantry line of a tile marked for both slots. -/
def Tile.allDirty (x : Tile) : Tile := x.dirtyRange 0 (2 ^ 20)

/-- A save begun at the boundary (R478 items 1 to 3). Under 16 MiB of input log the base proof fails with
reason 2 and the run is unprotected (R477). -/
def State.startSave (s : State) : State :=
  if s.inputBytes < 16 * 2 ^ 20 then
    let s := (s.abandonSave 2).unprotect 2
    { s with prf := { s.prf with saveDue := false } }
  else
    let s := s.flushCache
    if s.enc.integrityHalt then s
    else
    let s := if s.prf.recipeDue then s.mapped.foldl (fun s t => s.modTile t Tile.allDirty) s else s
    let target := match s.prf.cur with | some p => 1 - p.slot | none => 0
    let s : State := { s with prf := { s.prf with
      state := .saving, target := target, mark := s.prf.undoNext, saveFail := none, saveNs := 0
      savedAt := some s.nextBatch } }
    s.issueProofs 0x40 s.mapped

/-- PROOF_SAVE: at a due boundary of a run. -/
def execProofSave (s : State) : Out :=
  whenDue (s.saveNeeded && (s.run.state = .run || s.run.state = .halting) && !s.run.inBatch &&
    s.prf.state = .idle && s.ldr.inService) s s.startSave

/-- The tile that a proof item names. -/
def State.proofTile (s : State) (i : SvcItem) : Option Nat := s.ptile (i.w1.toNat)

/-- The first failure of a save noted. -/
def State.noteFail (s : State) (reason : Nat) : State :=
  { s with prf := { s.prf with saveFail := some (s.prf.saveFail.getD reason) } }

/-- One tile saved into the target slot, with its recipe copy when that is due. -/
def State.saveTile (s : State) (t v : Nat) (ue : Dram) : EncRes × State :=
  let k := s.prf.target
  let a := s.prfSlotAddr k v
  match s.putFrames t a ue slotFrames with
  | (.ok _, s) =>
    match s.savePantry t k a ((s.tile t).dirtyLines k) with
    | (.ok d, s) =>
      if s.prf.recipeDue then s.putFrames t (s.prfCopyAddr v) .clean copyFrames else (.ok d, s)
    | r => r
  | r => r

/-- PSAVE. -/
def execPsave (eng : Nat) (ue : Dram) (s : State) : Out :=
  onEngine eng 0x40 s fun i =>
    match s.proofTile i, s.prf.state, s.prf.saveFail with
    | some t, .saving, none =>
      match s.saveTile t i.w1.toNat ue with
      | (.integrity, s) => s
      | (.ok _, s) =>
        let s := (s.engineDone eng).dropItem i.id
        s.issueProofs 0x40 s.prf.todo
      | (.ue _, s) => ((s.engineDone eng).dropItem i.id).noteFail 1
      | (.refused _, s) => ((s.engineDone eng).dropItem i.id).noteFail 0
    | _, _, _ => (s.engineDone eng).dropItem i.id

/-- Whether a record of the input log belongs to batch p or later. -/
def LogRec.since (p : Nat) : LogRec → Bool
  | .batch n _ => decide (p ≤ n.toNat)
  | .xin _ _ _ _ n => decide (p ≤ n.toNat)
  | .arrive _ q => decide (p ≤ q.tag.toNat)
  | .sent _ _ tag => decide (p ≤ tag.toNat)
  | .window _ _ _ _ n => decide (p ≤ n.toNat)

/-- The input log restarted with the records that it keeps, in State and in the proof area: what the write
met. -/
def State.restartInput (s : State) (l : List LogRec) : EncRes × State :=
  let r := s.prfWrite s.inputBase (l.flatMap LogRec.bytes)
  if r.1.isOk then (r.1, { r.2 with prf := { r.2.prf with input := l, inputFull := false } }) else r

/-- A tile that sleeps: bit store, WU registers, flags, mailbox and queues are lost (R30). R30 does not name the
rack, the retry places and the known exchange batches: they stay (assumption 30). -/
def Tile.fallAsleep (x : Tile) : Tile :=
  { x with
    power := .sleep, thenHalf := [], nowHalf := [], bus := 0, spine := 0, wuReg := [], tap := []
    results := [], accesses := [], flags := [], mbx := [], mbxValid := 0, mbxHeld := 0, qData := [], qHead := []
    qCount := [] }

/-- Mapped tiles sleep after the save that R30 asks for, while the device still stands HALTED with RESUMABLE 1 and
PRF_CTRL.EN is still 1. -/
def State.sleepMapped (s : State) : State :=
  if s.prf.sleepAfter ∧ s.run.state = .halted ∧ s.run.resumable ∧ s.prfEn then
    let s := s.mapped.foldl (fun s t => s.modTile t Tile.fallAsleep) s
    { s with prf := { s.prf with sleeping := true, sleepAfter := false } }
  else { s with prf := { s.prf with sleepAfter := false } }

/-- Whether a reason for being unprotected outlasts a save that completes (R484): 2 ends with a base proof, 4 while
LIVE is 0, the others with any save. -/
def State.outlasts (s : State) (why : Nat) : Bool :=
  (why = 2 && !s.prf.baseDue) || (why = 4 && bit (s.rd .prfCtrl) 30)

/-- The slot of a save becomes CUR and the logs give up what no proof needs (R478 item 4). -/
def State.adoptSave (s : State) : State :=
  let p := s.nextBatch
  let cur : Proof := ⟨p, s.prf.target, s.prf.mark⟩
  let prev := if s.prf.discardOld then none else s.prf.cur
  let low := match prev with | some q => q.mark | none => cur.mark
  let s : State := { s with prf := { s.prf with
    state := .idle, cur := some cur, prev := prev
    undo := s.prf.undo.filter fun u => decide (low ≤ u.pos)
    undoLow := if s.prf.undoFull then cur.mark else max s.prf.undoLow low
    undoFull := false
    xoutDone := s.prf.xoutDone.filter fun k => decide (p.toNat ≤ k.1.toNat)
    xoutRedo := [], replay := []
    unprot := s.prf.unprot.filter s.outlasts
    saveDue := false, baseDue := false, recipeDue := false, discardOld := false } }
  let s := s.setFld .prfTimes 31 16 (min 0xFFFF (s.prf.saveNs / 1000))
  (s.cause prfPage 1).sleepMapped

/-- A save completed: the input log restarts, and the save is adopted; a write of the log that is refused or
meets DDR_UE fails the save (R478 item 4, R479). -/
def State.completeSave (s : State) : State :=
  match s.restartInput (s.prf.input.filter (LogRec.since s.nextBatch.toNat)) with
  | (.ok _, s) => s.adoptSave
  | (.ue _, s) => s.abandonSave 1
  | (.refused _, s) => s.abandonSave 0
  | (.integrity, s) => s

/-- A write of the spare map has not ended. -/
def FlashWrite.isSpare : FlashWrite → Bool
  | .spare _ => true
  | _ => false

/-- PROOF_SAVE_DONE: every PSAVE item has ended, and every change of the spare map is in flash (R485). -/
def execProofSaveDone (s : State) : Out :=
  whenDue (s.prf.state = .saving && s.prf.todo.isEmpty && !s.flash.writing.any FlashWrite.isSpare &&
      !(s.svc.store.any fun i => i.source = .proofs)) s
    (match s.prf.saveFail with
     | some r => s.abandonSave r
     | none => s.completeSave)

/-- TILE_SLEEP: HALTED with RESUMABLE 1 for PWR_TILE_SLEEP.MS, the device saves a proof, and the mapped
tiles sleep when it completes (R30, R277). -/
def execTileSleep (s : State) : Out :=
  let due := s.run.state = .halted && s.run.resumable && bit s.run.sleepCfg 31 && s.prfEn && s.pageEn prfPage &&
    decide (max 1 (bits s.run.sleepCfg 15 0) * 1000000 ≤ s.run.resumableNs) && s.prf.state = .idle &&
    !s.prf.sleeping && !s.prf.restoreDue && s.ldr.inService
  whenDue due s ({ s with prf := { s.prf with sleepAfter := true } } : State).startSave

/-! ## The exchange state of a restore (R486 item 5) -/

/-- A tile with its flags, queues, mailbox and rack empty, standing at a batch boundary. Emptying keeps the
HEAD of a queue and the stored data of slots and positions (R125, R153). Remote packets
of batch p and later leave its interface: the batches that sent them run again. -/
def Tile.emptied (x : Tile) (p : Nat) : Tile :=
  { x with
    power := .on, phase := .idle, step := 0, hold := none, nowHalf := [], bus := 0, spine := 0, tap := []
    results := [], accesses := [], flags := [], mbxValid := 0, mbxHeld := 0, qCount := [], rack := []
    retry := x.retry.filter fun r => decide (r.pkt.tag.toNat < p) }

/-- Proof `p` about to be restored: cache, tile entries and exchange state emptied, every flag and queue of an unmapped
tile too (R117, R153), PRESTORE items issued (R486 items 5 and 6). -/
def State.startRestore (s : State) (p : Proof) (replay : Bool) : State :=
  let s := s.dropRunning fun i => i.fromTile || i.source = .proofs
  let s : State := { s with svc := { s.svc with cache := [], tokens := [] } }
  let s : State := { s with net := { s.net with loc := [] } }
  let s := s.mapped.foldl (fun s t => s.modTile t fun x => x.emptied p.batch.toNat) s
  let s := s.mapTiles fun x => if x.vtile.isSome then x else { x with flags := [], qCount := [] }
  let s : State := { s with prf := { s.prf with
    state := .restoring, restoring := some p, thenReplay := replay, awaiting := false, sleeping := false
    restoreDue := false, saveFail := none } }
  s.issueProofs 0x41 s.mapped

/-! ## The undo log applied back (R481) -/

/-- The newest entries down to a mark, written back with class PROOF under the slot of ENC_QKEY[9]. -/
def State.undoBack (s : State) (mark : Nat) : List Undo → EncRes × State
  | [] => (.ok [], s)
  | u :: rest =>
    if u.pos < mark then (.ok [], s)
    else
      match s.prfRead (s.undoAddr u.pos) 128 with
      | (.ok d, s) =>
        match s.ddrWrite reqProof (s.qkey 9) (field d 64 8) (d.take 64) with
        | (.ok _, s) =>
          State.undoBack { s with prf := { s.prf with undo := rest, undoNext := u.pos } } mark rest
        | r => r
      | r => r

/-- The arrivals that were applied from the racks just before the proof batch started. -/
def State.rackArrivals (s : State) (p : DWord) : State :=
  let hit (r : LogRec) : Bool := match r with | .arrive n q => n = 0x7FF && q.tag = p | _ => false
  (s.prf.replay.filter hit).foldl (fun s r =>
    match r with
    | .arrive _ q =>
      let s : State := { s with prf := { s.prf with replay := s.prf.replay.erase r } }
      match s.ptile q.dstVt with
      | some t => s.applyPacket t q
      | none => s
    | _ => s) s

/-- The counters of a restored proof set, and the replay begun, or for a host restore the device left
HALTED and resumable (R486 item 6, R490). -/
def State.restored (s : State) (p : Proof) : State :=
  let s : State := { s with run := { s.run with batch := p.batch } }
  let s := s.mapped.foldl (fun s t => s.modTile t fun x => { x with xbatch := p.batch }) s
  if s.prf.thenReplay then
    let s : State := { s with prf := { s.prf with
      state := .replaying, restoring := none, newTiles := [], replay := s.prf.input
      xoutRedo := s.prf.xoutDone } }
    s.rackArrivals p.batch
  else
    let s := ((s.restartInput []).2).alert 0 false
    { s with
      run := { s.run with resumable := true, resumableNs := 0 }
      prf := { s.prf with
        state := .idle, restoring := none, newTiles := [], replay := [], xoutDone := [], xoutRedo := []
        cur := some p, prev := none, savedAt := none } }

/-! ## PRF_CMD and PRF_CTRL (R476, R484, R490, R501) -/

/-- PRF_BUSY with the offset of the dropped write. -/
def State.prfBusy (s : State) (off : Nat) : State := s.err prfPage 0x8005 off

/-- PRF_CMD_SAVE: a save is due at the next boundary. -/
def execPrfCmdSave (val : Word) (s : State) : Out := onWrite prfPage s (
    whenDue (bit val 0 && s.prfEn && s.pageEn prfPage) s { s with prf := { s.prf with saveDue := true } })

/-- PRF_CMD.RESTORE and RESTORE_PREV. -/
def State.hostRestore (s : State) (p : Option Proof) : State :=
  match p with
  | some q =>
    if s.run.state = .halted ∧ s.pageEn prfPage ∧ s.prf.state = .idle ∧ s.prf.undoLow ≤ q.mark ∧ !s.prf.undoFull then
      s.startRestore q false
    else s.prfBusy 0x50
  | none => s.prfBusy 0x50

/-- PRF_CMD_RESTORE. -/
def execPrfCmdRestore (val : Word) (s : State) : Out := onWrite prfPage s (
    whenDue (bit val 1) s (s.hostRestore s.prf.cur))

/-- PRF_CMD_RESTORE_PREV. -/
def execPrfCmdRestorePrev (val : Word) (s : State) : Out := onWrite prfPage s (
    whenDue (bit val 2) s (s.hostRestore s.prf.prev))

/-- A write of PRF_CTRL: EN 0 and LIVE 1 leave the run unprotected (R484). The logs go on while a proof is held. -/
def State.writePrfCtrl (s : State) (val : Word) : State :=
  let s := s.wr .prfCtrl (val &&& 0xC000001F)
  let s := if bit val 31 then s else s.unprotect 2
  if bit val 30 then s.unprotect 4 else s

/-- PRF_CTRL_WRITE. -/
def execPrfCtrlWrite (val : Word) (s : State) : Out := onWrite prfPage s (
    .next (s.writePrfCtrl val))

/-- PRF_DISCARD_READ. -/
def execPrfDiscardRead (via : Via) (s : State) : Out := onRead prfPage via s (
    .next (s.readClear prfPage via .prfDiscard 0xFFFFFFFF))

/-- A write of PRF_BASE or PRF_SIZE: dropped with PRF_BUSY while an image is in service. -/
def State.writePrfArea (s : State) (r : Reg) (off : Nat) (val mask : Word) : State :=
  if s.ldr.inService then s.prfBusy off else s.wr r (val &&& mask)

end Sys2Proof.Machine
end

