-- ==== Sys2Proof/Machine/Wear.lean ====
section
/-! DEFINITION. The sectors of the embedded flash: wear, and the maps kept in two copies (R485, R497, R499). -/

namespace Sys2Proof.Machine

/-! ## Flash sectors (R497, R499) -/

/-- The physical sector that serves logical sector n. -/
def Flash.sector (f : Flash) (n : Nat) : Nat := Table.get (fun k => k) f.sectorOf n

/-- The logical sector that a physical sector serves. -/
def Flash.logical (f : Flash) (p : Nat) : Option Nat := (List.range 64).find? fun n => f.sector n = p

/-- Physical sectors that serve no logical sector and are not retired. -/
def Flash.spares (f : Flash) : List Nat :=
  (List.range 68).filter fun p => (f.logical p).isNone && p ∉ f.retiredSectors

/-- One erase of logical sector n counted; at 100,000 its sector is retired to a spare, or the flash
becomes read-only (R499). -/
def State.eraseSector (s : State) (n : Nat) : State :=
  let p := s.flash.sector n
  let e := Table.get (fun _ => 0) s.flash.erases p + 1
  let s : State := { s with flash := { s.flash with erases := Table.set (fun _ => 0) s.flash.erases p e } }
  if e < 100000 then s
  else
    match s.flash.spares with
    | [] => ({ s with flash := { s.flash with readonly := true } }).err flsPage 0x8202 0
    | q :: _ =>
      ({ s with flash := { s.flash with
          sectorOf := Table.set (fun k => k) s.flash.sectorOf n q
          retiredSectors := s.flash.retiredSectors ++ [p] } }).err flsPage 0x8201 p

/-! ## Maps (R294, R485, R497) -/

/-- The logical sector that a write goes to: the copy that is not current, of the spare map in sectors 0 and 1, of
the repair map in 2 and 3, of the boot settings in 4 and 5. -/
def Flash.target (f : Flash) : FlashWrite → Nat
  | .spare _ => b2n (!f.spareCopyB)
  | .repair _ => 2 + b2n (!f.repairCopyB)
  | .boot _ toA => 4 + b2n (!toA)

/-- The write in front begun: its sector is erased. Once the flash is read-only, by that erase too, nothing is written
(R499). -/
def State.beginWrite (s : State) : State :=
  match s.flash.writing with
  | [] => s
  | w :: _ =>
    let s := if s.flash.readonly then s else s.eraseSector (s.flash.target w)
    if s.flash.readonly then { s with flash := { s.flash with writing := [] } } else s

/-- A write taken: it begins at once, or once the writes before it have ended. -/
def State.askWrite (s : State) (w : FlashWrite) : State :=
  let idle := s.flash.writing.isEmpty
  let s : State := { s with flash := { s.flash with writing := s.flash.writing ++ [w] } }
  if idle then s.beginWrite else s

/-- A copy stored, and current from then on. -/
def Flash.store (f : Flash) : FlashWrite → Flash
  | .boot c true => { f with bootA := c }
  | .boot c false => { f with bootB := c }
  | .spare m =>
    if f.spareCopyB then { f with spareA := m, spareCopyB := false }
    else { f with spareB := m, spareCopyB := true }
  | .repair l =>
    if f.repairCopyB then { f with repairA := l, repairCopyB := false }
    else { f with repairB := l, repairCopyB := true }

/-- The write in front ends: its copy becomes current, and the next write begins. -/
def State.endFlashWrite (s : State) : State :=
  match s.flash.writing with
  | [] => s
  | w :: rest => State.beginWrite { s with flash := { s.flash.store w with writing := rest } }

/-- Every write that waits carried to its end. -/
def State.endFlashWrites (s : State) : State := s.flash.writing.foldl (fun s _ => s.endFlashWrite) s

/-- The spare map as it stands in the registers and in the AON domain. -/
def State.liveSpare (s : State) : SpareMap where
  tiles := (List.range 128).foldl (fun m v =>
    if bit (s.rd .glbVmap v) 31 then Table.set (fun _ => none) m v (some (s.fld .glbVmap 7 0 v)) else m) []
  retiredTiles := (List.range numTiles).filter fun t => (s.tile t).retired
  retiredEngines := s.svc.retired
  servingEngines := s.svc.serving

/-- The spare map with the change that waits to be written last. -/
def Flash.spareNow (f : Flash) : SpareMap :=
  f.writing.foldl (fun m w => match w with
    | .spare n => n
    | _ => m) f.spare

/-- A change of the spare map written to flash, unless the flash is read-only (R485, R499). -/
def State.saveSpareMap (s : State) : State :=
  if s.flash.readonly then s else s.askWrite (.spare s.liveSpare)

/-- The repair map with the entries that still wait to be written. -/
def Flash.repairNow (f : Flash) : List Word :=
  f.writing.foldl (fun l w => match w with
    | .repair m => m
    | _ => l) f.repairMap

/-- A faulty column added to the repair map (R294, R499). The device notes it until a cold reset, so that a shutdown
writes it where the write has been cut short (R516). -/
def State.addColumn (s : State) (c : Word) : State :=
  if s.flash.readonly then s
  else if s.flash.repairNow.length < 8192 then
    State.askWrite { s with sup := { s.sup with columns := s.sup.columns ++ [c] } }
      (.repair (s.flash.repairNow ++ [c]))
  else s.err flsPage 0x8203 0

/-- The repair map written again where a write that was cut short has left a column out (R515, R516). -/
def State.saveColumns (s : State) : State :=
  let lost := s.sup.columns.filter fun c => decide (c ∉ s.flash.repairNow)
  if s.flash.readonly || lost.isEmpty then s
  else s.askWrite (.repair ((s.flash.repairNow ++ lost).take 8192))

end Sys2Proof.Machine
end

