-- ==== Sys2Proof/Machine/Recovery.lean ====
section
/-! DEFINITION. Single faults: host work discarded, spares brought in, the recovery pause, restore and
the start of a replay (R485 to R491). -/

namespace Sys2Proof.Machine

/-! ## Host work at a fault (R491) -/

/-- PRF_DISCARD grown: porter descriptors and host items, each saturating. -/
def State.countDiscard (s : State) (descs items : Nat) : State :=
  (s.setFld .prfDiscard 31 16 (satAdd 0xFFFF (s.fld .prfDiscard 31 16) descs)).setFld .prfDiscard 15 0
    (satAdd 0xFFFF (s.fld .prfDiscard 15 0) items)

/-- The descriptors of a porter that have begun moving data. -/
def State.inFlight (s : State) (p : Nat) : List (Nat × Nat × Nat × Bool) :=
  Table.get (fun _ => []) s.host.porter p

/-- The descriptors of porter p that are in flight stopped: CODE 0x01. The error is recorded with the
status (R52). -/
def State.discardPorter (s : State) (p : Nat) : State :=
  let ended := (s.inFlight p).map fun d => if d.2.1 = 0 then (d.1, 1, 0, d.2.2.2) else d
  { s with host := { s.host with
      porter := Table.set (fun _ => []) s.host.porter p ended
      moving := s.host.moving.filter fun x => x.porter ≠ p } }

/-- Host-queue items that are accepted and not completed. -/
def State.openHostItems (s : State) : List SvcItem :=
  s.svc.store.filter fun i => i.fromHost && i.stage ≠ .done

/-- A host item ended with STATUS 0x01. -/
def State.discardItem (s : State) (i : SvcItem) : State :=
  let s : State := { s with svc := { s.svc with
    engines := s.svc.engines.filter fun e => e.2 ≠ some i.id } }
  s.hostComplete i 1 0

/-- Host work in flight discarded and counted. -/
def State.discardHostWork (s : State) : State :=
  let descs := ((List.range 8).map fun p => ((s.inFlight p).filter fun d => d.2.1 = 0).length).sum
  let items := s.openHostItems
  let s := (List.range 8).foldl State.discardPorter s
  (items.foldl State.discardItem s).countDiscard descs items.length

/-! ## Spares (R485) -/

/-- Physical tiles that are serviceable and not mapped. -/
def State.spareTiles (s : State) : List Nat :=
  (List.range numTiles).filter fun t => !(s.tile t).retired &&
    !((List.range 128).any fun v => bit (s.rd .glbVmap v) 31 && s.fld .glbVmap 7 0 v = t)

/-- The virtual tile whose GLB_VMAP entry names physical tile t. -/
def State.vmapOf (s : State) (t : Nat) : Option Nat :=
  (List.range 128).find? fun v => bit (s.rd .glbVmap v) 31 && s.fld .glbVmap 7 0 v = t

/-- One of a list of units, which the spec leaves open (assumption 1). -/
def State.anyOf (s : State) (l : List Nat) : Option Nat × State :=
  match l with
  | [] => (none, s)
  | _ =>
    let f := s.freeNat
    (l[f.1 % l.length]?, f.2)

/-- GLB_SPARE_STAT brought up to date. -/
def State.countSpares (s : State) : State :=
  let gone := ((List.range numTiles).filter fun t => (s.tile t).retired).length
  (s.setFld .glbSpareStat 15 8 s.spareTiles.length).setFld .glbSpareStat 7 0 gone

/-- A tile out of service: OFF and retired. -/
def Tile.retire (x : Tile) : Tile :=
  { Tile.reset with power := .off, retired := true, phase := .fault, xbatch := x.xbatch }

/-- The pantry banks of a replacement tile handed to the owners that the retired tile's banks had
(R283). -/
def State.giveSpareBanks (s : State) (old new : Nat) : State :=
  (List.range 16).foldl (fun s b =>
    let w := s.rd .tilPanOwn old b
    s.giveBank ⟨false, new, b, ownKind w, ownIndex w, false⟩) s

/-- A load in progress fails when an entry of GLB_VMAP changes (R160, R202). -/
def State.vmapChanged (s : State) (v : Nat) : State :=
  if s.loading then s.ldrFail 0x700F (ldInfo v) else s

/-- Physical tile t retired and a spare brought in for its virtual tile; false when none is left, and the
virtual tile is then marked invalid (R161, R485). The map in flash follows. -/
def State.replaceTile (s : State) (t : Nat) : Bool × State :=
  let old := s.tile t
  match s.vmapOf t with
  | none => (true, ((s.setTile t old.retire).countSpares).saveSpareMap)
  | some v =>
    let c := (s.setTile t old.retire).anyOf (s.spareTiles.filter (· ≠ t))
    let s := c.2
    match c.1 with
    | none =>
      let s := ((s.wr .glbVmap (setBit (s.rd .glbVmap v) 31 false) v).saveSpareMap).countSpares
      (false, (s.err prfPage 0x8004 0).vmapChanged v)
    | some n =>
      let s := s.wr .glbVmap (BitVec.ofNat 32 (2 ^ 31 + n)) v
      let s := s.setTile n { Tile.reset with
        power := .on, vtile := old.vtile, xbatch := old.xbatch }
      let s := if old.vtile.isSome then s.giveSpareBanks t n else s
      let s : State := { s with prf := { s.prf with newTiles := n :: s.prf.newTiles } }
      (true, ((s.saveSpareMap).countSpares).vmapChanged v)

/-- A spare tile is there for a mapped tile that failed. -/
def State.hasSpare (s : State) (t : Nat) : Bool := (s.spareTiles.filter (· ≠ t)).length ≠ 0

/-- Serviceable engines that do not serve. -/
def State.spareEngines (s : State) : List Nat :=
  (List.range 18).filter fun n => n ∉ s.svc.serving && n ∉ s.svc.retired

/-- Engine n retired and a spare engine serving in its place; with none left, every GLB_VMAP entry is
marked invalid (R485). The map in flash follows. The engine's item ends with it, and a host item counts as
discarded (R491). -/
def State.replaceEngine (s : State) (n : Nat) : Bool × State :=
  let s := match s.running n with
    | some i => if i.fromHost then (s.discardItem i).countDiscard 0 1 else s.dropRunning fun j => j.id = i.id
    | none => s
  let s : State := { s with svc := { s.svc with retired := s.svc.retired ++ [n] } }
  let c := s.anyOf s.spareEngines
  let s := c.2
  let s : State := { s with svc := { s.svc with
    serving := (s.svc.serving.filter (· ≠ n)) ++ c.1.toList } }
  match c.1 with
  | some _ => (true, s.saveSpareMap)
  | none =>
    let v := ((List.range 128).find? fun v => bit (s.rd .glbVmap v) 31).getD 0
    let s := (List.range 128).foldl (fun s v => s.wr .glbVmap (setBit (s.rd .glbVmap v) 31 false) v) s
    (false, (((s.countSpares).saveSpareMap).err prfPage 0x8004 1).vmapChanged v)

/-- A stream index after bank number `b` of the stream is gone. -/
def shiftBlock (b k : Nat) : Nat := if 128 * (b + 1) ≤ k then k - 128 else k

/-- The blocks of bank `bank` gone from the stream, and a GAP record for them; which batches they held,
the record cannot say (assumption 1). -/
def State.loseBank (s : State) (bank : Nat) : State :=
  match s.acq.banks.findIdx? (· = bank) with
  | none => s
  | some b =>
    let inBank (k : Nat) : Bool := k / 128 = b
    let a := s.acq
    let lost := (a.blocks.any inBank) || (inBank a.wrBlock && decide (0 < a.wrUnits))
    let keep (o : Option Nat) : Option Nat := (o.filter fun k => !inBank k).map (shiftBlock b)
    let n := 128 * (a.banks.length - 1)
    let dirs := a.dirs.map fun d =>
      { d with startBlock := keep d.startBlock, rearmBlock := keep d.rearmBlock }
    let s : State := { s with acq := { a with
      banks := a.banks.eraseIdx b
      blocks := (a.blocks.filter fun k => !inBank k).map (shiftBlock b)
      dirs := dirs
      wrBlock := if inBank a.wrBlock then 128 * b % max 1 n else shiftBlock b a.wrBlock
      wrUnits := if inBank a.wrBlock then 0 else a.wrUnits } }
    if lost && s.acq.state ≠ .idle then
      let f := s.freeNat
      let g := f.2.freeNat
      g.2.putRecord 0 s.acq.segment (mkRec 0x0A 0xFF s.acq.segment 0 0 (BitVec.ofNat 64 f.1) (leBytes 16 g.1))
    else s

/-- A larder bank out of service: FAILED; it refuses every access, so the lines it held are cached no longer
(R295, R485). -/
def State.failLarder (s : State) (bank : Nat) : State :=
  let s := s.wr .memLown (setBit (s.rd .memLown bank) 30 true) bank
  let s : State := { s with svc := { s.svc with cache := s.svc.cache.filter fun c => c.bank ≠ bank } }
  (s.loseBank bank).setBanks

/-! ## The stop of R489 -/

/-- The failed tiles that wait for step 4 of a pause replaced: whether every one has a spare (R486). -/
def State.replaceFailed (s : State) : Bool × State :=
  let l := s.prf.failedTiles
  let s : State := { s with prf := { s.prf with failedTiles := [] } }
  l.foldl (fun r t =>
    let x := r.2.replaceTile t
    (r.1 && x.1, x.2)) (true, s)

/-- The drivers of design pins stay as they are; the device stops every tile, with PRF_FAULT_STOP, and still brings
in a spare where one exists (R489). The host work in flight is discarded (R491). A device that is halted already
changes neither its run state nor CAUSES (R453). -/
def State.faultStop (s : State) (code reason : Nat) : State :=
  let s := s.dropItems fun i => i.source = .proofs
  let s : State := { s with prf := { s.prf with
    state := .idle, todo := [], restoring := none, awaiting := false, redo := false, restoreDue := false
    noSpare := false, replay := [], xoutRedo := [], haltRequests := 0 } }
  let s := (s.replaceFailed).2.discardHostWork
  ((s.immediateStop 9).err prfPage 0x8001 (code * 2 ^ 16 + reason)).cause prfPage 3

/-- The conditions 0 to 2 of R489 for a recovery that would begin now. A run that is unprotected because proofs
were off cannot be replayed (R484), and of the reasons of R489 its CUR counts as not valid (assumption 36). -/
def State.noRecovery (s : State) : Option Nat :=
  if bit (s.rd .prfCtrl) 30 then some 0
  else if 0 ∈ s.prf.unprot || 1 ∈ s.prf.unprot || 3 ∈ s.prf.unprot then some 1
  else if s.prf.cur.isNone || 2 ∈ s.prf.unprot then some 2
  else none

/-- The first of the reasons 0 to 3 of R489 for which the device does not recover. -/
def State.cannotRecover (s : State) (spare : Bool) : Option Nat :=
  match s.noRecovery with
  | some w => some w
  | none => if spare then none else some 3

/-! ## The pause (R486) -/

/-- A remote packet that a tile of this device has issued awaits its answer. -/
def State.answersOut (s : State) : Bool :=
  s.mapped.any fun t => (s.tile t).retry.any fun r =>
    match r.stage with
    | .awaiting _ => true
    | _ => false

/-- Steps 5 and 6: the restore of CUR, with a replay to follow. -/
def State.beginRestore (s : State) : State :=
  match s.prf.cur with
  | some p => s.startRestore p true
  | none => s.faultStop s.prf.faultCode.toNat 2

/-- Step 3 ended, every answer has come: the failed tiles are replaced, and the restore begins. -/
def State.answersDone (s : State) : State :=
  if s.prf.awaiting && !s.answersOut then
    let r := s.replaceFailed
    if r.1 then r.2.beginRestore else r.2.faultStop s.prf.faultCode.toNat 3
  else s

/-- Steps 1 to 3 of a recovery pause; step 4 has a spare at hand. A paced slot that was not taken is given up
(R402). -/
def State.beginPause (s : State) (code : Nat) : State :=
  let f := s.nextBatch
  let s := s.mapTiles fun x => if x.vtile.isSome then x.stop else x
  let s := s.discardHostWork
  let s : State := { s with
    run := { s.run with inBatch := false }
    led := { s.led with holdNs := none }
    tim := { s.tim with slot := none }
    prf := { s.prf with
      faultBatch := f, faultCode := BitVec.ofNat 16 code, pauseNs := 0, redo := true, awaiting := true
      recoveries := satAdd 0xFFFF s.prf.recoveries 1, haltRequests := 0 } }
  (s.setRun .recover).answersDone

/-- A fault with its code, and whether a spare is there for what it replaces. In HALTED the restore and the replay,
or the stop, follow at the next release (R489). -/
def State.takeFault (s : State) (code : Nat) (spare : Bool) : State :=
  match s.run.state with
  | .idle => (s.replaceFailed).2.err prfPage 0x8001 (code * 2 ^ 16 + 2)
  | .recover => s.faultStop code 4
  | r =>
    let s := if s.prf.state = .saving then s.abandonSave 3 else s
    match s.prf.restoring with
    | some p =>
      if spare then (s.replaceFailed).2.startRestore p s.prf.thenReplay else s.faultStop code 3
    | none =>
      if r = .halted then
        let s := (s.replaceFailed).2
        { s with prf := { s.prf with
          restoreDue := true, noSpare := s.prf.noSpare || !spare, faultCode := BitVec.ofNat 16 code } }
      else
        match s.cannotRecover spare with
        | some w => s.faultStop code w
        | none => s.beginPause code

/-- A fault of a tile: the tile that no virtual tile is mapped to is only retired. -/
def State.tileFault (s : State) (t code info : Nat) : State :=
  let s := (s.recordNow).tileErr t 5 code info
  if (s.vmapOf t).isSome then
    if t ∈ s.prf.failedTiles then s.takeFault code true
    else
      let s : State := { s with prf := { s.prf with failedTiles := s.prf.failedTiles ++ [t] } }
      s.takeFault code (s.hasSpare t)
  else (s.replaceTile t).2

/-- One SRAM error counted (R293). -/
def State.countSram (s : State) : State := { s with mem := { s.mem with sramCount := s.mem.sramCount + 1 } }

/-- PG_ERR_INFO of an uncorrectable SRAM error: STORE, bank, word (R304). -/
def sramInfo (store bank word : Nat) : Nat := store % 8 * 2 ^ 29 + bank % 64 * 2 ^ 15 + word % 2 ^ 15

/-- A fault of larder bank b at a word. -/
def State.larderFault (s : State) (b word : Nat) : State :=
  ((s.err lownPage 0x3013 (sramInfo 0 b word)).failLarder b).takeFault 0x3013 true

/-- An uncorrectable error in a cached line (R293): a clean line is invalidated, refilled from DDR and counted; a
dirty one is a fault of its bank. Where in the bank the line lies is open (assumption 1). -/
def State.larderLine (s : State) (l : Nat) : State :=
  match s.cached l with
  | none => s
  | some c =>
    if c.dirty then
      let f := s.freeNat
      f.2.larderFault c.bank (f.1 % 8192)
    else (((s.uncache l).fillLine l c.slot .clean).2).countSram

/-- The unit of a single fault exists (R485). -/
def FaultUnit.there : FaultUnit → Bool
  | .tileUe t store bank word =>
    t < 136 && decide (store < 5) && store ≠ 3 && decide (bank < 64) && decide (word < 2 ^ 15)
  | .tileCheck t _ => t < 136
  | .engine n => n < 18
  | .larderBank b word => b < 64 && decide (word < 8192)
  | .larderCleanLine _ => true
  | .corrected => true

/-- RECOVERY_PAUSE: a single fault is recorded and its spare brought in; then the device pauses, stops,
or keeps the restore for the next release (R485, R486, R489). -/
def execRecoveryPause (fault : FaultUnit) (s : State) : Out :=
  guardUnit fault.there (
    match fault with
    | .tileUe t store bank word => whenDue (!(s.tile t).retired) s (s.tileFault t 0x1033 (sramInfo store bank word))
    | .tileCheck t unit => whenDue (!(s.tile t).retired) s (s.tileFault t 0x1034 (unit % 2 ^ 8))
    | .engine n => whenDue (decide (n ∈ s.svc.serving)) s (
        let type := (Table.get (fun _ => (0 : Byte)) s.svc.engType n).toNat
        let r := (s.err (engPage n) 0x2009 type).replaceEngine n
        r.2.takeFault 0x2009 r.1)
    | .larderBank b word => whenDue (!ownFailed (s.rd .memLown b)) s (s.larderFault b word)
    | .larderCleanLine line => .next (s.larderLine line.toNat)
    | .corrected => .next s.countSram)

/-- ANSWER_ARRIVAL: the first delivered answer reaches its source interface (R137, R350); in a pause the
last one lets the restore begin (R486). -/
def execAnswerArrival (s : State) : Out :=
  match s.net.answers with
  | [] => .next s
  | a :: rest =>
    let s := { s with net := { s.net with answers := rest } }
    match s.ptile a.srcVt with
    | some t => .next (s.takeAnswer t a).answersDone
    | none => .next s

/-- RECOVERY_ANSWER_TIMEOUT: 1 ms into a pause an answer is outstanding (R489 reason 6). -/
def execRecoveryAnswerTimeout (s : State) : Out :=
  whenDue (s.run.state = .recover && s.prf.awaiting && decide (1000000 ≤ s.prf.pauseNs)) s
    (s.faultStop s.prf.faultCode.toNat 6)

/-! ## PRESTORE (R486 item 6) -/

/-- Every line of a pantry. -/
def allLines : List Nat := List.range 16384

/-- One tile restored from a proof. -/
def State.restoreTile (s : State) (t v : Nat) (p : Proof) (ue : Dram) : EncRes × State :=
  let fresh := decide (t ∈ s.prf.newTiles)
  let lines := if fresh then allLines else (s.tile t).dirtyLines p.slot
  let a := s.prfSlotAddr p.slot v
  let copy := if fresh then s.getFrames t (s.prfCopyAddr v) .clean copyFrames else (.ok [], s)
  match copy with
  | (.ok _, s) =>
    match s.getFrames t a ue slotFrames with
    | (.ok _, s) => s.loadPantry t a lines
    | r => r
  | r => r

/-- The last tile restored: the undo log is applied back, and the proof batch is in force. -/
def State.endRestore (s : State) (p : Proof) : State :=
  match s.undoBack p.mark s.prf.undo with
  | (.ok _, s) => s.restored p
  | (.integrity, s) => s
  | (_, s) => s.faultStop s.prf.faultCode.toNat 5

/-- PRESTORE. -/
def execPrestore (eng : Nat) (ue : Dram) (s : State) : Out :=
  onEngine eng 0x41 s fun i =>
    match s.proofTile i, s.prf.state, s.prf.restoring with
    | some t, .restoring, some p =>
      match s.restoreTile t i.w1.toNat p ue with
      | (.integrity, s) => s
      | (.ok _, s) =>
        let s := ((s.engineDone eng).dropItem i.id).issueProofs 0x41 s.prf.todo
        if s.svc.store.any fun i => i.source = .proofs then s else s.endRestore p
      | (_, s) => ((s.engineDone eng).dropItem i.id).faultStop s.prf.faultCode.toNat 5
    | _, _, _ => (s.engineDone eng).dropItem i.id

end Sys2Proof.Machine
end

