-- ==== Sys2Proof/Machine/Control.lean ====
section
/-! DEFINITION. Run control: releases, halts, comparators, the watchdog and the criers (R450 to R461,
R469 to R473). -/

namespace Sys2Proof.Machine

/-! ## The watchdog's counter (R460) -/

/-- The watchdog reloaded with the full timeout. -/
def State.reloadWdg (s : State) : State :=
  let us := max 1 (s.rd .wdgTimeout).toNat
  ({ s with run := { s.run with wdgNs := us * 1000, wdgStopped := false } }).setFld .wdgStat 31 31 0

/-! ## Releases (R452, R455, R456) -/

/-- The command bits of a write of RUN_CMD. -/
def cmdBits (val : Word) : Nat := bits val 2 0

/-- Whether a write carries several command bits. -/
def severalBits (val : Word) : Bool :=
  decide (2 ≤ b2n (bit val 0) + b2n (bit val 1) + b2n (bit val 2))

/-- The first reason, in the order 3, 0, 1, 2, for which RUN or STEP is refused (R468); a stop of cause JTAG
bars every run until a cold reset (R465), and an integrity failure until a warm or a cold reset (R328), both as
reason 2 (assumption 29). -/
def State.refuseRun (s : State) (val : Word) : Option Nat :=
  if severalBits val then some 3
  else if s.ldr.state ≠ .service then some 0
  else if !s.isHalted then some 1
  else if (s.run.state = .halted ∧ !s.run.resumable) ∨ s.jtag.stopped ∨ s.enc.integrityHalt then some 2
  else none

/-- RUN_REFUSED. -/
def State.runRefused (s : State) (val : Word) (why : Nat) : State :=
  s.err runPage 0x6001 (cmdBits val * 2 ^ 8 + why)

/-- What makes a run unprotected from its start (R484 reasons 2 and 4). -/
def State.releaseProtect (s : State) : State :=
  let s := if s.prfEn then s else s.unprotect 2
  if bit (s.rd .prfCtrl) 30 then s.unprotect 4 else s

/-- The restore and replay that a fault in HALTED left to the next release, or the stop for which R489 has a
reason. -/
def State.lateRestore (s : State) : State :=
  if s.prf.restoreDue then
    match s.cannotRecover (!s.prf.noSpare) with
    | some why => s.faultStop s.prf.faultCode.toNat why
    | none =>
      let s := s.discardHostWork
      let s : State := { s with prf := { s.prf with
        faultBatch := s.nextBatch, pauseNs := 0, redo := true, haltRequests := 0
        recoveries := satAdd 0xFFFF s.prf.recoveries 1 } }
      (s.setRun .recover).beginRestore
  else s

/-- A release: mapped tiles wake, CAUSES is cleared, the watchdog is reloaded, the next batch is
estimated at E_max with a new pacing grid (R253, R401, R455). -/
def State.release (s : State) (stp : Bool) : State :=
  let fresh := s.run.state = .idle
  let s := s.wakeMapped
  let s : State := { s with
    run := { s.run with
      causes := if stp then causeBit 2 else 0
      resumable := false
      stepPending := stp
      firstAfterRelease := true
      newRun := s.run.newRun || fresh
      haltedNs := 0
      resumableNs := 0 }
    tim := { s.tim with grid := none, slot := none }
    sup := { s.sup with stepPllOn := true }
    led := { s.led with est := s.eMax }
    prf := { s.prf with
      baseDue := s.prf.baseDue || fresh
      recipeDue := s.prf.recipeDue || fresh } }
  ((s.reloadWdg.setRun (if stp then .halting else .run)).releaseProtect).lateRestore

/-- A run command: dropped while the RUN page is disabled (R48), ignored in RUN, refused where R455 refuses
it. -/
def State.runCommand (s : State) (val : Word) : State :=
  if !s.pageEn runPage then s
  else
  match s.refuseRun val with
  | some 3 => s.runRefused val 3
  | some why => if s.run.state = .run then s else s.runRefused val why
  | none => s.release false

/-- RUN_CMD_RUN: a write of RUN_CMD with RUN. -/
def execRunCmdRun (val : Word) (s : State) : Out := onWrite runPage s (
    whenDue (bit val 0) s (s.runCommand val))

/-- RUN_CMD_HALT: a halt request of cause HOST. -/
def execRunCmdHalt (val : Word) (s : State) : Out := onWrite runPage s (
    whenDue (bit val 1) s (if severalBits val then s.runRefused val 3 else s.haltRequest 1))

/-- A single-batch step. -/
def State.stepCommand (s : State) (val : Word) : State :=
  if !s.pageEn runPage then s
  else
  match s.refuseRun val with
  | some why => s.runRefused val why
  | none => s.release true

/-- RUN_CMD_STEP. -/
def execRunCmdStep (val : Word) (s : State) : Out := onWrite runPage s (
    whenDue (bit val 2) s (s.stepCommand val))

/-! ## The end of a halt (R454) -/

/-- HALTED entered: the model cache has written back, the acquisition engine has completed its records, soft repair is
applied, and PWR_TILE_SLEEP is taken (R277, R303, R427). -/
def State.enterHalted (s : State) : State :=
  let s := (s.flushCache).haltTaken
  let s : State := { s with run := { s.run with
    resumable := s.run.causes &&& 0x1E00 = 0, stepPending := false } }
  ((s.setRun .halted).haltRecords).cause runPage 1

/-- HALT_COMPLETE. -/
def execHaltComplete (s : State) : Out :=
  whenDue (s.run.state = .halting && !s.run.inBatch && !s.run.stepPending && s.prf.state = .idle &&
    !s.saveNeeded && s.quiet) s s.enterHalted

/-! ## Registers of the RUN page (R469 to R471) -/

/-- RUN_BATCH_READ. -/
def execRunBatchRead (via : Via) (s : State) : Out := onRead runPage via s (
    let v := lo32 s.run.batch
    .next ((if s.peeks runPage via then s else s.wr .runBatchHi (hi32 s.run.batch)).answer [v]))

/-- RUN_ACMP_COUNT_READ. -/
def execRunAcmpCountRead (a : Nat) (via : Via) (s : State) : Out :=
  guardUnit (a < 8) (onRead runPage via s (
    .next (s.readClear runPage via .runAcmpCount 0xFFFFFFFF a)))

/-- RUN_BCMP_CTRL_WRITE. -/
def execRunBcmpCtrlWrite (b : Nat) (val : Word) (s : State) : Out :=
  guardUnit (b < 4) (onWrite runPage s (
    .next (s.wr .runBcmpCtrl (val &&& 0x80000003) b)))

/-- RUN_ACMP_CTRL_WRITE. -/
def execRunAcmpCtrlWrite (a : Nat) (val : Word) (s : State) : Out :=
  guardUnit (a < 8) (onWrite runPage s (
    .next ((((s.wr .runAcmpCtrl (val &&& 0xFFF00003) a).wr .runAcmpHit 0 a).wr64
      .runAcmpHbatchLo .runAcmpHbatchHi 0 a).wr64 .runAcmpHaddrLo .runAcmpHaddrHi 0 a)))

/-! ## Watchdog (R460, R472) -/

/-- WDG_CFG.ACTION; 3 acts as 2. -/
def State.wdgAction (s : State) : Nat := min 2 (s.fld .wdgCfg 1 0)

/-- Whether the watchdog counts (R460). -/
def State.wdgCounts (s : State) : Bool :=
  bit (s.rd .wdgCfg) 31 && s.pageEn wdgPage && !s.run.wdgStopped &&
  match s.run.state with
  | .run => true
  | .halting => true
  | .recover => false
  | _ => !s.haltFreeze wdgPage

/-- WDG_STAT.FROZEN. -/
def State.wdgFrozen (s : State) : Bool :=
  bit (s.rd .wdgCfg) 31 && (s.run.state = .recover || (s.isHalted && s.haltFreeze wdgPage))

/-- The watchdog at zero. -/
def State.wdgExpire (s : State) : State :=
  let s : State := { s with run := { s.run with wdgStopped := true } }
  let n := satAdd 0xFFFF (s.fld .wdgStat 15 0) 1
  let s := (s.setFld .wdgStat 15 0 n).setFld .wdgStat 31 31 1
  let s := ((s.err wdgPage 0x6010 (s.fld .wdgCfg 1 0)).cause wdgPage 1).alert 4 true
  let s := if s.wdgAction = 0 then s else s.haltRequest 7
  if s.wdgAction = 2 then
    let s : State := { s with run := { s.run with driversOff := true, driversArmed := false } }
    s.driversOff
  else s

/-- WDG_EXPIRED. -/
def execWdgExpired (s : State) : Out :=
  whenDue (s.wdgCounts && s.run.wdgNs = 0) s s.wdgExpire

/-- WDG_KICK. -/
def execWdgKick (val : Word) (s : State) : Out := onWrite wdgPage s (
    let key := bits val 7 0
    .next (if key = 0x5A then s.reloadWdg else s.err wdgPage 0x6011 key))

/-- WDG_CFG_WRITE: a write of EN reloads. -/
def execWdgCfgWrite (val : Word) (s : State) : Out := onWrite wdgPage s (
    let s := s.wr .wdgCfg (val &&& 0x80000003)
    .next (if bit val 31 then s.reloadWdg else s))

/-! ## Criers (R461, R473) -/

/-- Items of the crier block issued in write order while the internal class has entries. -/
def State.issueCriers : Nat → State → State
  | 0, s => s
  | n + 1, s =>
    match s.run.criers with
    | [] => s
    | (c, v, b, t) :: rest =>
      let i := { blankItem .crier 0x60 0 0 with
        batch := b, t0 := some (BitVec.ofNat 64 c), t1 := some (v.setWidth 64), t2 := some t }
      let r := s.issueInternal i
      if r.1 then
        State.issueCriers n ({ r.2 with run := { r.2.run with criers := rest } } : State)
      else s

/-- Crier items queued or issued and not yet run: those of R473. -/
def State.criersPending (s : State) : Nat :=
  s.run.criers.length + (s.svc.store.filter fun i => i.source = .crier).length

/-- A write of CRI_VAL[c]. -/
def State.writeCrier (s : State) (c : Nat) (val : Word) : State :=
  let s := s.wr .criVal val c
  if !s.pageEn criPage then s
  else if s.criersPending < 64 then
    let s : State := { s with run := { s.run with
      criers := s.run.criers ++ [(c, val, s.run.batch, BitVec.ofNat 64 s.outNs)] } }
    s.issueCriers 64
  else
    (s.setFld .criStat 31 16 (satAdd 0xFFFF (s.fld .criStat 31 16) 1)).err criPage 0x6020 c

/-- CRI_VAL_WRITE. -/
def execCriValWrite (c : Nat) (val : Word) (s : State) : Out :=
  guardUnit (c < 32) (onWrite criPage s (
    .next (s.writeCrier c val)))

/-- CRI_STAT with PENDING. -/
def State.criStatNow (s : State) : Word := setBits (s.rd .criStat) 6 0 s.criersPending

/-- CRI_STAT_READ. -/
def execCriStatRead (via : Via) (s : State) : Out := onRead criPage via s (
    let v := s.criStatNow
    .next ((if s.peeks criPage via then s else s.setFld .criStat 31 16 0).answer [v]))

end Sys2Proof.Machine
end

