-- ==== Sys2Proof/Machine/Windows.lean ====
section
/-! DEFINITION. The state windows of the tile pages 8 to 15 (R463, R464, R474). -/

namespace Sys2Proof.Machine

/-- The size of a window space in bytes; reserved spaces have none (R463). -/
def spaceSize : Nat → Nat
  | 0 => 2 ^ 22
  | 1 => 2 ^ 18
  | 2 => 4096
  | 3 => 65536
  | 4 => 65536
  | 5 => 16384
  | 6 => 128
  | 7 => 512
  | 8 => 520
  | 9 => 8448
  | 10 => 4096
  | _ => 0

/-- Word k, from the lowest, of a stored value. -/
def partOf {w : Nat} (x : BitVec w) (k : Nat) : Word := x.extractLsb' (32 * k) 32

/-- A stored value with its word k replaced. -/
def setPart {w : Nat} (x : BitVec w) (k : Nat) (v : Word) : BitVec w :=
  let m : BitVec w := BitVec.ofNat w (0xFFFFFFFF * 2 ^ (32 * k))
  (x &&& ~~~m) ||| BitVec.ofNat w (v.toNat * 2 ^ (32 * k))

/-- A word made of 32 bits. -/
def wordOf (f : Nat → Bool) : Word := BitVec.ofNat 32 (((List.range 32).map fun i => b2n (f i) * 2 ^ i).sum)

/-- The word at byte offset o of a space. -/
def Tile.readSpace (x : Tile) (space o : Nat) : Word :=
  let k := o % 8 / 4
  match space with
  | 0 => partOf (Table.get (fun _ => 0) x.bpCode (o / 8)) k
  | 1 => partOf (Table.get (fun _ => 0) x.wuCode (o / 16)) (o % 16 / 4)
  | 2 => x.ctrlWord (o / 4)
  | 3 => wordOf fun i => x.thenBit (o / 128) (8 * (o % 128) + i)
  | 4 => wordOf fun i => x.nowBit (o / 128) (8 * (o % 128) + i)
  | 5 => x.wreg (o / 1024) (o % 1024 / 4)
  | 6 => partOf (x.tapOf (o / 8)) k
  | 7 => BitVec.ofNat 32 (((List.range 8).map fun i => x.flag (2 * o + i) * 16 ^ i).sum)
  | 8 => if o < 512 then partOf (x.slot (o / 8)) k else partOf x.mbxValid k
  | 9 =>
    if o < 8192 then partOf (Table.get (fun _ => 0) x.qData (o / 8)) k
    else
      let q := (o - 8192) / 4
      BitVec.ofNat 32 (x.qPos q * 2 ^ 8 + x.qLen q)
  | 10 => partOf (x.template (o / 16)) (o % 16 / 4)
  | _ => 0

/-- The word at byte offset o of a writable space replaced. DESIGN CHOICE (assumption 85): DEPTH stays that of the load
when a write of space 2 moves or removes the END step. -/
def Tile.writeSpace (x : Tile) (space o : Nat) (v : Word) : Tile :=
  let k := o % 8 / 4
  match space with
  | 0 =>
    let old := Table.get (fun _ => (0 : DWord)) x.bpCode (o / 8)
    { x with bpCode := Table.set (fun _ => 0) x.bpCode (o / 8) (setPart old k v) }
  | 1 =>
    let old := Table.get (fun _ => (0 : QWord)) x.wuCode (o / 16)
    { x with wuCode := Table.set (fun _ => 0) x.wuCode (o / 16) (setPart old (o % 16 / 4) v) }
  | 2 => { x with ctrl := Table.set (fun _ => 0) x.ctrl (o / 4) v }
  | 3 =>
    let put (m : Table Bool) (i : Nat) : Table Bool := Table.set (fun _ => false) m (8 * o + i) (bit v i)
    { x with thenHalf := (List.range 32).foldl put x.thenHalf }
  | 5 => x.setWreg (o / 1024) (o % 1024 / 4) v
  | 7 => (List.range 8).foldl (fun x i => x.setFlag (2 * o + i) (bits v (4 * i + 3) (4 * i))) x
  | 8 =>
    if o < 512 then { x with mbx := Table.set (fun _ => 0) x.mbx (o / 8) <| setPart (x.slot (o / 8)) k v }
    else { x with mbxValid := setPart x.mbxValid k v }
  | 9 =>
    if o < 8192 then
      let old := Table.get (fun _ => (0 : DWord)) x.qData (o / 8)
      { x with qData := Table.set (fun _ => 0) x.qData (o / 8) (setPart old k v) }
    else
      let q := (o - 8192) / 4
      { x with
        qHead := Table.set (fun _ => 0) x.qHead q (bits v 11 8)
        qCount := Table.set (fun _ => 0) x.qCount q (min 16 (bits v 4 0)) }
  | 10 =>
    let old := Table.get (fun _ => (0 : QWord)) x.tmpl (o / 16)
    { x with tmpl := Table.set (fun _ => 0) x.tmpl (o / 16) (setPart old (o % 16 / 4) v) }
  | _ => x

/-- The reason for which the windows do not work (R464). -/
def State.windowOff (s : State) (space : Nat) (write : Bool) : Option Nat :=
  if !s.isHalted then some 0
  else if s.loading then some 1
  else if write && (space = 3 || space = 5 || space = 8) && s.ldr.setReset then some 2
  else none

/-- WIN_RUNNING on the window's page. -/
def State.winRunning (s : State) (t pg i why : Nat) : State :=
  s.tileErr t pg 0x1040 (why * 2 ^ 16 + pg * 2 ^ 12 + 0x800 + 4 * i)

/-- SPACE of window page pg, and the byte offset in it of word i of the aperture. -/
def State.winSpace (s : State) (t pg : Nat) : Nat := bits (s.rd .tilWinSel t (pg - 8)) 31 28
def State.winOff (s : State) (t pg i : Nat) : Nat := 2048 * bits (s.rd .tilWinSel t (pg - 8)) 10 0 + 4 * i

/-- Whether a space is part of the image in service: the streams and the templates. -/
def recipeSpace (space : Nat) : Bool := decide (space ≤ 2) || space = 10

/-- What a window write leaves for proofs: a record, or an image that changed (R464, R476, R484). -/
def State.noteWindow (s : State) (t space o : Nat) (v : Word) : State :=
  match (s.tile t).vtile with
  | none => s
  | some vt =>
    if recipeSpace space then
      let s := s.unprotect 3
      { s with prf := { s.prf with saveDue := true, recipeDue := true, discardOld := true } }
    else if s.inRun then s.logInput (.window vt space o v s.nextBatch)
    else s

/-- A window write that is carried out. -/
def State.writeWindow (s : State) (t space o : Nat) (v : Word) : State :=
  if spaceSize space ≤ o || space = 4 || space = 6 then s
  else (s.modTile t fun x => x.writeSpace space o v).noteWindow t space o v

/-- TIL_WIN_WRITE: word i of the aperture of window page pg of tile t. A tile under test is isolated: a write is
dropped, and a read gives 0 (R495, assumption 47). -/
def execTilWinWrite (t pg i : Nat) (val : Word) (s : State) : Out :=
  guardUnit (t < numTiles && 8 ≤ pg && pg < 16 && i < 512) (onWrite (tilePage t pg) s (
      let space := s.winSpace t pg
      if (s.tile t).power ≠ .on then .next (s.asleepErr t pg (0x800 + 4 * i))
      else if s.underTest t then .next s
      else
        match s.windowOff space true with
        | some why => .next (s.winRunning t pg i why)
        | none => .next (s.writeWindow t space (s.winOff t pg i) val)))

/-- TIL_WIN_READ. -/
def execTilWinRead (t pg i : Nat) (s : State) : Out :=
  guardUnit (t < numTiles && 8 ≤ pg && pg < 16 && i < 512) (onRead (tilePage t pg) .bar0 s (
      let space := s.winSpace t pg
      let o := s.winOff t pg i
      if (s.tile t).power ≠ .on || s.underTest t then .next (s.answer [0])
      else
        match s.windowOff space false with
        | some why => .next ((s.winRunning t pg i why).answer [0])
        | none =>
          .next (s.answer [if spaceSize space ≤ o then 0 else (s.tile t).readSpace space o])))

end Sys2Proof.Machine
end

