-- ==== Sys2Proof/Machine/Batch.lean ====
section
/-! DEFINITION. Batches: the start conditions, the start phase, the batch-end actions, and pacing
(R22 to R26, R85, R90, R106, R107, R130 to R134, R252 to R257, R287, R400 to R402, R487). -/

namespace Sys2Proof.Machine

/-! ## Start conditions (R22) -/

/-- The device replays in a recovery pause. -/
def State.replays (s : State) : Bool := s.run.state = .recover && s.prf.state = .replaying

/-- Whether the next batch is one that a pause replays, and not the live batch f. -/
def State.replayed (s : State) : Bool :=
  s.replays && decide (s.nextBatch.toNat < s.prf.faultBatch.toNat)

/-- Condition 1. A batch that a pause replays writes no record and needs no room for one; batch f does (R439, R486). -/
def State.startReady (s : State) : Bool :=
  !s.run.inBatch && s.ldr.inService && !s.prf.sleeping && !s.saveNeeded &&
    (s.prf.state = .idle || s.replays) && (s.acqRoom || s.replayed)

/-- Condition 2: RUN, a single-batch step, or a recovery pause that replays. -/
def State.startAllowed (s : State) : Bool :=
  s.run.state = .run || (s.run.state = .halting && s.run.stepPending) || s.replays

/-- Condition 3: the level covers the estimate, and the peak guard is met (R254). -/
def State.covered (s : State) : Bool :=
  decide (fjOfNj s.led.est ≤ s.led.level) && (s.ldr.setReset || s.led.guardNs = 0)

/-- The grid period in 2^-16 ns (R401). -/
def State.pacePeriod (s : State) : Nat := (s.rd .timPacePerNs).toNat * 2 ^ 16 + s.fld .timPacePerFr 15 0

/-- Paced mode applies. -/
def State.paced (s : State) : Bool := bit (s.rd .timSchedCtrl) 30 && decide (s.pacePeriod ≠ 0)

/-- TIM_SCHED_CTRL.ARM applies to the first batch after a run command. -/
def State.armed (s : State) : Bool := bit (s.rd .timSchedCtrl) 31 && s.run.firstAfterRelease

/-- TIM_SCHED in 2^-16 ns. -/
def State.schedAt (s : State) : Nat := (s.rd64 .timSchedLo .timSchedHi).toNat * 2 ^ 16

/-- TIM_LATE_START with its lateness in 2^-16 ns, in whole ns (R411). -/
def State.lateStart (s : State) (late16 : Nat) : State :=
  (s.timErr 0 0x5005 (min 0xFFFFFFFF (late16 / 2 ^ 16))).cause timPage 3

/-- Slots that passed without a start (R401). -/
def State.overrun (s : State) (n : Nat) : State := s.countReg .timPaceOverrun 0xFFFFFFFF n

/-- The first slot at or after a moment on the grid with an origin. -/
def slotAt (origin p now : Nat) : Nat := if now ≤ origin then 0 else ceilDiv (now - origin) p

/-- The slot chosen in which the next batch starts, conditions 1 to 3 holding now (R401): the slots that passed are
overruns, except in a recovery pause (R402). -/
def State.chooseSlot (s : State) : State :=
  let now := s.out16
  let o := s.tim.grid.getD (if s.armed then s.schedAt else now)
  let j := if s.tim.grid.isSome then s.tim.nextSlot else 0
  let m := max j (slotAt o s.pacePeriod now)
  let s : State := { s with tim := { s.tim with grid := some o, slot := some m, nextSlot := m } }
  if s.prf.redo then s else s.overrun (m - j)

/-- A paced run's first batch that starts in a later slot than slot 0 is late by the start of its slot less G_0
(R401). -/
def State.noteLate (s : State) : State :=
  match s.tim.slot with
  | some j => if s.paced && s.run.firstAfterRelease && j ≠ 0 then s.lateStart (j * s.pacePeriod) else s
  | none => s

/-- Condition 4, as far as it must be prepared: a slot chosen, or the moment noted at which an armed
start waits for TIM_SCHED. A late armed start is recorded once. DESIGN CHOICE (assumption 97): with PACED 1 and period 0
an armed start is that of PACED 0, its lateness recorded too. -/
def State.prepareStart (s : State) : State :=
  if s.replayed || s.tim.slot.isSome then s
  else if s.paced then s.chooseSlot
  else if s.armed then
    let s : State := { s with tim := { s.tim with slot := some 0 } }
    if s.schedAt < s.out16 then s.lateStart (s.out16 - s.schedAt) else s
  else s

/-- Condition 4 (R400 to R402). -/
def State.timeReached (s : State) : Bool :=
  if s.replayed then true
  else if s.paced then
    match s.tim.grid, s.tim.slot with
    | some o, some j => decide (o + j * s.pacePeriod ≤ s.out16)
    | _, _ => false
  else if s.armed then decide (s.schedAt ≤ s.out16)
  else true

/-- R254 alone holds the start of the next batch: conditions 1 and 2 of R22 hold, and condition 3 does not. -/
def State.heldNow (s : State) : Bool := s.startReady && s.startAllowed && !s.covered

/-- The paced slot given up while conditions 1 to 3 do not hold: it is chosen anew once they hold again (R23,
R401). -/
def State.leaveSlot (s : State) : State :=
  if s.paced then { s with tim := { s.tim with slot := none } } else s

/-- A start held by the ledger: counted once for the batch (R257, R274). -/
def State.holdStart (s : State) : State :=
  let s := s.leaveSlot
  if s.led.holdNs.isSome then s
  else
    let s : State := { s with led := { s.led with holdNs := some 0, starved := false } }
    s.countReg .pwrPaceHolds 0xFFFFFFFF 1

/-! ## The start phase (R24, R106, R196, R252, R287, R486) -/

/-- The pins of the VDIO banks that are on: bank k holds DIO32k to DIO32k + 31 (R533). -/
def State.poweredPins (s : State) : BitVec 128 :=
  BitVec.ofNat 128 (((List.range 4).map fun k =>
    b2n (bit s.sup.vdioOn k) * 0xFFFFFFFF * 2 ^ (32 * k)).sum)

/-- The levels of the design pins: a pin that the device drives reads its own level (R106), one that the target drives
the target's, and one that nothing drives is held low by its weak pull-down (R197). A pin of a bank that is off reads
0 (R536). -/
def State.pinSample (s : State) : BitVec 128 :=
  ((s.pins.dioLevel &&& s.pins.dioDrive) ||| (s.pins.dioIn &&& s.pins.dioHeld &&& ~~~s.pins.dioDrive)) &&& s.poweredPins

/-- The set-reset released: the batch counter becomes LDR_FIRST, the slots written meanwhile become valid, and the
loader's pantry banks go to their tiles (R91, R196, R287). -/
def State.leaveReset (s : State) : State :=
  if s.ldr.setReset then
    let first := s.ldr.imageFirst
    let s : State := { s with
      ldr := { s.ldr with setReset := false, firstBatch := first }
      run := { s.run with batch := first } }
    let s := s.mapped.foldl (fun s t => s.modTile t Tile.freeValid) s
    s.mapped.foldl (fun s t => (List.range 16).foldl (fun s k =>
      if bit (s.tile t).panOwnMask k && ownKind (s.rd .tilPanOwn t k) = 2 then
        s.giveBank ⟨false, t, k, 1, 0, false⟩
      else s) s) s
  else s

/-- The BATCH record of batch n in the replay. -/
def State.loggedDin (s : State) (n : DWord) : Option (BitVec 128) :=
  s.prf.replay.findSome? fun r => match r with | .batch k d => if k = n then some d else none | _ => none

/-- A free value for the 128 design pins. -/
def State.freePins (s : State) : BitVec 128 × State :=
  (List.range 4).foldl (fun (r : BitVec 128 × State) k =>
    let w := r.2.free
    (r.1 ||| (w.1.setWidth 128 <<< (32 * k)), w.2)) (0, s)

/-- The design pins that the target drives in the sampling window of a batch, and its levels there: no command carries
them, so they are free (R535; assumption 1). -/
def State.targetDrives (s : State) : State :=
  let h := s.freePins
  let f := h.2.freePins
  { f.2 with pins := { f.2.pins with dioHeld := h.1, dioIn := f.1 } }

/-- The design inputs of batch n: logged, or sampled and entered into the input log (R487). -/
def State.takeDin (s : State) (n : DWord) : State :=
  match s.loggedDin n with
  | some d =>
    { s with
      pins := { s.pins with din := d }
      prf := { s.prf with replay := s.prf.replay.erase (.batch n d) } }
  | none =>
    let s := s.targetDrives
    let d := s.pinSample
    ({ s with pins := { s.pins with din := d } } : State).logInput (.batch n d)

/-- The window writes of batch n made again (R487). -/
def State.replayWindows (s : State) (n : DWord) : State :=
  let hit (r : LogRec) : Bool := match r with | .window _ _ _ _ k => k = n | _ => false
  (s.prf.replay.filter hit).foldl (fun s r =>
    match r with
    | .window vt space o v _ =>
      let s : State := { s with prf := { s.prf with replay := s.prf.replay.erase r } }
      match s.ptile vt with
      | some t => s.modTile t fun x => x.writeSpace space o v
      | none => s
    | _ => s) s

/-- A tile released at step 0 (R24). -/
def Tile.begin (x : Tile) : Tile :=
  { x with
    phase := .exec, step := 0, hold := none, nowHalf := [], bus := 0, spine := 0, results := []
    accesses := [], energy := Energy.zero }

/-- NCLK cycles of 0.625 ns in whole ns, rounded up. -/
def nclkNs (n : Nat) : Nat := ceilDiv (5 * n) 8

/-- The peak guard of the batch that starts with an estimate (R254). -/
def State.guardFor (s : State) (est : Nat) : Nat :=
  let p := s.led.pInUw - s.pU
  let p := if p ≤ 10000000 then 10000000 else p
  nclkNs (ceilDiv (est * 1600000) p)

/-- The estimate debited and the guard set at a start (R252, R254); a hold ends. -/
def State.debitStart (s : State) : State :=
  let est := s.led.est
  let s : State := { s with led := { s.led with
    level := s.led.level - fjOfNj est
    estCurrent := est
    guardNs := s.guardFor est
    holdNs := none
    starved := false } }
  s

/-- A pause ends at the start phase of batch f (R457, R486). -/
def State.endPause (s : State) : State :=
  let causes := s.run.causes ||| s.prf.haltRequests
  let s : State := { s with
    run := { s.run with causes := causes }
    prf := { s.prf with state := .idle, haltRequests := 0 } }
  let s := s.setFld .prfTimes 15 0 (min 0xFFFF (s.prf.pauseNs / 1000))
  (s.setRun (if causes = 0 then .run else .halting)).cause prfPage 2

/-- What belongs to the start of a live batch only: comparators, captures, the pending ACQ halt, pacing. A base
proof that EN 0 left unsaved is due no longer (R476 item 1, R484 reason 2). -/
def State.startLive (s : State) : State :=
  let s := s.latchCompare.noteLate
  let s := if s.run.newRun then s.captureAt 12 s.out16 else s
  let s := if s.armed then s.setFld .timSchedCtrl 31 31 0 else s
  let s : State := { s with tim := { s.tim with
    nextSlot := (s.tim.slot.map (· + 1)).getD s.tim.nextSlot, slot := none } }
  let s : State := { s with run := { s.run with
    newRun := false, firstAfterRelease := false, driversArmed := s.run.driversOff } }
  let s : State := { s with prf := { s.prf with baseDue := false } }
  if s.acq.haltNext then ({ s with acq := { s.acq with haltNext := false } } : State).haltRequest 5 else s

/-- The end of a start phase: the estimate is debited and the tiles are released; a stop during the phase
(an integrity failure met by the input log) stands (R143, R328). -/
def State.releaseTiles (s : State) : State :=
  if s.isHalted then s
  else
    let s := s.debitStart
    let s := s.mapTiles fun x => if x.vtile.isSome then x.begin else x
    { s with run := { s.run with inBatch := true, stepPending := false } }

/-- The start phase of the next batch. -/
def State.startBatch (s : State) : State :=
  let again := s.replayed
  let s := if s.replays && !again then s.endPause else s
  let s := s.leaveReset
  let n := s.run.batch
  let s := if again then s else s.startLive
  ((s.takeDin n).replayWindows n).releaseTiles

/-- BATCH_START: the conditions of R22 in their order; a start that the ledger holds is noted. -/
def execBatchStart (s : State) : Out :=
  if s.startReady && s.startAllowed then
    if s.covered then
      let s := s.prepareStart
      .next (if s.timeReached then s.startBatch else s)
    else .next s.holdStart
  else .next s

/-- PACE_STARVED: a start held longer than PWR_STARVE_LIMIT.US is recorded once (R257). -/
def execPaceStarved (s : State) : Out :=
  match s.led.holdNs with
  | some ns =>
    let us := s.fld .pwrStarveLimit 15 0
    whenDue (s.heldNow && !s.led.starved && decide (us ≠ 0) && decide (us * 1000 < ns)) s
      (((({ s with led := { s.led with starved := true } } : State).err pwrPage 0xA001
        (lo32 s.nextBatch).toNat).cause pwrPage 3).alert 3 true)
  | none => .next s

/-! ## The batch-end phase (R133) -/

/-- Action 3: the halves swap and the taps are cleared (R90, R100). -/
def Tile.swapHalves (x : Tile) : Tile :=
  let then_ := x.nowHalf.foldl (fun m e =>
    match e.2 with
    | some v => Table.set (fun _ => false) m e.1 v
    | none => m) x.thenHalf
  { x with thenHalf := then_, nowHalf := [], tap := [] }

/-- The value of a pin source word (R107, R170). -/
def State.pinSource (s : State) (w : Word) : Bool :=
  match bits w 31 30 with
  | 1 => true
  | 2 =>
    match s.ptile (bits w 29 23) with
    | some t => (s.tile t).thenBit (bits w 22 14) (bits w 13 4)
    | none => false
  | _ => false

/-- Action 4: bound pins driven. After a watchdog expiry with ACTION 2 they drive again at the end of the
first batch that started after it (R460). -/
def State.drivePins (s : State) : State :=
  if s.run.driversOff && !s.run.driversArmed then s
  else
    let src (m : Table Word) (p : Nat) : Word := Table.get (fun _ => 0) m p
    let en := BitVec.ofNat 128 (((List.range 128).map fun p =>
      b2n (s.pinSource (src s.ldr.pinEnable p)) * 2 ^ p).sum)
    let lv := BitVec.ofNat 128 (((List.range 128).map fun p =>
      b2n (s.pinSource (src s.ldr.pinData p)) * 2 ^ p).sum)
    { s with
      pins := { s.pins with dioDrive := en &&& s.poweredPins, dioLevel := lv &&& en &&& s.poweredPins }
      run := { s.run with driversOff := false, driversArmed := false } }

/-- Non-zero flags and non-empty queues of a tile. -/
def Tile.flagsLeft (x : Tile) : Nat := ((List.range 1024).filter fun f => x.flag f ≠ 0).length
def Tile.queuesLeft (x : Tile) : Nat := ((List.range 64).filter fun q => x.qLen q ≠ 0).length

/-- A residue register: the last count, and the batch ends with one (R149, R153). -/
def State.residue (s : State) (r : Reg) (t hi n : Nat) : State :=
  let s := s.setFld r hi 0 n t
  if n = 0 then s else s.setFld r 31 16 (satAdd 0xFFFF (s.fld r 31 16 t) 1) t

/-- Action 5 at tile t. -/
def State.clearExchange (s : State) (t : Nat) : State :=
  let x := s.tile t
  let s := (s.residue .tilFlagResidue t 10 x.flagsLeft).residue .tilQResidue t 6 x.queuesLeft
  s.setTile t { x with mbxValid := 0, flags := [], qCount := [] }

/-- Action 7 at tile t: racked packets tagged n + 1 are applied in their order of arrival and logged. -/
def State.unrack (s : State) (t : Nat) (n1 : DWord) : State :=
  let x := s.tile t
  let s := s.setTile t { x with rack := x.rack.filter fun p => p.tag ≠ n1 }
  (x.rack.filter fun p => p.tag = n1).foldl
    (fun s p => (s.applyPacket t p).logInput (.arrive 0x7FF p)) s

/-- Action 6 at tile t: the counters freeze (R248, R279). -/
def State.freezeTile (s : State) (t : Nat) : State :=
  s.modTile t fun x => { x with frozen := x.energy, frozenNj := nj16 (s.tileEnergy16 x.energy) }

/-- The ledger at the freeze: E_est(n) comes back, E_batch(n) goes, the next estimate is made (R252,
R253). DEDUCED (assumption 88): MARGIN and E_max are read here, so a later write of MARGIN does not change this
estimate. A restore leaves the estimate as it stands: the first batch of a replay is estimated from the last batch
measured before the pause (assumption 78). -/
def State.settleLedger (s : State) : State :=
  let e := s.batchEnergy
  let s : State := { s with led := { s.led with
    level := s.led.level + fjOfNj s.led.estCurrent - fjOfNj e
    last := e
    est := s.nextEst e } }
  s.clampLevel

/-- The batch-end phase of batch n, action by action; a stop during it (an integrity failure met by the input
log) leaves the tiles in FAULT (R143, R328). -/
def State.endBatch (s : State) : State :=
  let again := s.run.state = .recover
  let n := s.run.batch
  let n1 := n + 1
  let l := s.mapped
  let s := s.mapTiles fun x => if x.vtile.isSome then { x with xbatch := n1, phase := .batchEnd } else x
  let s := s.sampleBatch n again
  let s := s.mapTiles fun x => if x.vtile.isSome then x.swapHalves else x
  let s := if again then s else s.drivePins
  let s := l.foldl State.clearExchange s
  let s : State := { s with run := { s.run with batch := n1, inBatch := false } }
  let s := (l.foldl State.freezeTile s).settleLedger
  let s := l.foldl (fun s t => s.unrack t n1) s
  let s := s.rackArrivals n1
  if s.isHalted then s
  else
    let s := s.mapTiles fun x => if x.vtile.isSome then { x with phase := .idle, step := 0 } else x
    let s := if again then s else s.bcmpAll n
    let s := s.orphans n
    if again then s else { s with prf := { s.prf with redo := false } }

/-- Every active tile rests, and no packet between tiles of this device is on its way (R132); the
sequencer has evaluated the batch before (R431). -/
def State.batchOver (s : State) : Bool :=
  s.run.inBatch && (s.mapped.all fun t => (s.tile t).phase = .resting) && s.net.loc.isEmpty &&
    (s.evaluated || s.run.state = .recover)

/-- BATCH_END. -/
def execBatchEnd (s : State) : Out := whenDue s.batchOver s s.endBatch

end Sys2Proof.Machine
end

