-- ==== Sys2Proof/Machine/Link.lean ====
section
/-! DEFINITION. Octusk link ports: cells, link packets, the link layer, and training (R353 to R375,
R377, R380 to R384). -/

namespace Sys2Proof.Machine

/-! ## Ports, halves and lanes (R353, R360) -/

/-- The x8 port of a logical port. -/
def lpPort (lp : Nat) : Nat := lp % 8
/-- The half of a logical port: 0 for A or x8, 1 for B. -/
def lpHalf (lp : Nat) : Nat := lp / 8
/-- LNK_CFG.MODE in effect: the reserved MODE 3 acts as 0 (R380). -/
def State.linkMode (s : State) (p : Nat) : Nat :=
  let m := s.fld .lnkCfg 1 0 p
  if m = 3 then 0 else m
/-- The logical ports of a port in its mode. -/
def State.linkHalves (s : State) (p : Nat) : List Nat :=
  match s.linkMode p with
  | 1 => [p]
  | 2 => [p, p + 8]
  | _ => []
/-- The physical data lanes of a logical port: four for a half of the port as it was split when its training started,
which a later MODE 0 does not change while it drains. -/
def State.dataLanes (s : State) (lp : Nat) : List Nat :=
  if (s.port lp).split then List.range' (4 * lpHalf lp) 4 else List.range 8
/-- The logical lane of a transmit lane: its place in the half (R360). -/
def logicalLane (lp k : Nat) : Nat := k - 4 * lpHalf lp
/-- The transmit lane of a logical lane. -/
def physLane (lp l : Nat) : Nat := l + 4 * lpHalf lp
/-- Receive lanes and logical lanes with lane reversal corrected: the far end's lanes stand in the opposite order
(R367). The map is its own inverse up to the place of the half. -/
def State.recvLogical (s : State) (lp k : Nat) : Nat :=
  if (s.port lp).reversed then (s.dataLanes lp).length - 1 - logicalLane lp k else logicalLane lp k
/-- The receive lane of a logical lane. -/
def State.recvLane (s : State) (lp l : Nat) : Nat :=
  if (s.port lp).reversed then physLane lp ((s.dataLanes lp).length - 1 - l) else physLane lp l
/-- PG_ERR_INFO bit [23]: the half. -/
def halfInfo (lp : Nat) : Nat := lpHalf lp * 2 ^ 23

/-- An error on page 0 of a logical port's port. -/
def State.lnkErr (s : State) (lp code info : Nat) : State :=
  s.err (portPage (lpPort lp) 0) code (halfInfo lp + info)

/-- Whether the receivers of a logical port take what arrives: not in OFF, PLL and FAILED (R363). -/
def LogicalPort.receives (x : LogicalPort) : Bool := x.state ≠ .off && x.state ≠ .pll && x.state ≠ .failed

/-- Lane errors counted on a receive lane, in LNK_LANE_ERR and for the trip of R374 (R361). -/
def State.laneErr (s : State) (lp lane n : Nat) : State :=
  if (s.port lp).receives then
    (s.modPort lp fun x => { x with errs := (lane, n, 0) :: x.errs }).countReg .lnkLaneErr 0xFFFFFFFF n
      (lpPort lp) lane
  else s

/-- Lane errors of a receive lane in the last ms. -/
def LogicalPort.laneErrs (x : LogicalPort) (lane : Nat) : Nat :=
  ((x.errs.filter fun e => e.1 = lane).map fun e => e.2.1).sum

/-- The code of a link state (R362). -/
def LinkState.code : LinkState → Nat
  | .off => 0 | .pll => 1 | .detect => 2 | .lock => 3 | .eq => 4 | .order => 5
  | .init => 6 | .active => 7 | .swap => 8 | .failed => 9 | .drain => 10

/-- The other half of a logical port's port. -/
def otherHalf (lp : Nat) : Nat := (lp + 8) % 16

/-- A half that has lost a lane in training holds lane 8. -/
def LogicalPort.needsSpare (x : LogicalPort) : Bool :=
  x.lost.isSome && (x.state = .eq || x.state = .order || x.state = .init)

/-- Whether lane 8 serves a half: it carries a logical lane of it, is being swapped in, or trains for it. -/
def State.usesSpare (s : State) (lp : Nat) : Bool :=
  let w := s.rd .lnkSpare (lpPort lp)
  let x := s.port lp
  (bit w 31 && bits w 30 30 = lpHalf lp) || x.state = .swap || x.needsSpare

/-- Whether lane 8 serves another half than lp's; it serves the half that first needs it (R353). -/
def State.spareTaken (s : State) (lp : Nat) : Bool := s.usesSpare (otherHalf lp)

/-- Lane 8 taken from the other half, which trains it without need (R353). -/
def State.takeSpare (s : State) (lp : Nat) : State :=
  s.modPort (otherHalf lp) fun x =>
    { x with lanes := x.lanes &&& 0xFF, ready := x.ready &&& 0xFF, farReady := x.farReady &&& 0xFF }

/-- A field of LNK_LANE. -/
def State.setLane (s : State) (lp k hi lo v : Nat) : State :=
  s.setFld .lnkLane hi lo v (lpPort lp) k

/-- The taps PRE, MAIN, POST of a transmit lane. -/
def State.taps (s : State) (p k : Nat) : Nat × Nat × Nat :=
  let w := s.rd .lnkLane p k
  (bits w 19 16, bits w 15 10, bits w 9 5)

/-- The taps of a transmit lane set. -/
def State.setTaps (s : State) (lp k : Nat) (t : Nat × Nat × Nat) : State :=
  ((s.setLane lp k 19 16 t.1).setLane lp k 15 10 t.2.1).setLane lp k 9 5 t.2.2

/-- The presets P0 to P3 (R366). -/
def preset : Nat → Nat × Nat × Nat
  | 0 => (0, 63, 0)
  | 1 => (0, 55, 8)
  | 2 => (4, 47, 12)
  | _ => (6, 37, 20)

/-- Receive lanes of a logical port without lock and READY. -/
def State.dropLanes (s : State) (lp : Nat) (l : List Nat) : State :=
  l.foldl (fun s k => (s.setLane lp k 31 30 0).setLane lp k 28 28 0) s

/-- A logical port in a new state, its time counted afresh, as LNK_STAT reports it. -/
def State.linkTo (s : State) (lp : Nat) (st : LinkState) : State :=
  let s := s.modPort lp fun x => { x with state := st, ns := 0 }
  if lpHalf lp = 0 then s.setFld .lnkStat 31 28 st.code (lpPort lp)
  else s.setFld .lnkStat 27 24 st.code (lpPort lp)

/-- LNK_PEER of a logical port. -/
def peerReg (lp : Nat) : Reg := if lpHalf lp = 0 then .lnkPeerA else .lnkPeerB

/-! ## Cells (R356, R369, R371, R374) -/

/-- CRC-32C of bits [127:32] of a cell (R369). -/
def cellCrc (c : QWord) : Word := crcOf crc32cPoly (beBytes 12 (c.toNat / 2 ^ 32))

/-- Whether a control cell's CRC holds. -/
def cellOk (c : QWord) : Bool := c.setWidth 32 = cellCrc c

/-- A cell with bits [127:32] given, its CRC below them. -/
def mkCell (top : Nat) : QWord :=
  let c : QWord := BitVec.ofNat 128 (top * 2 ^ 32)
  c ||| (cellCrc c).setWidth 128

/-- A cell handed to the transmitters of a logical port. -/
def State.sendCell (s : State) (lp : Nat) (type : BitVec 4) (c : QWord) : State :=
  { s with net := { s.net with linkTx := s.net.linkTx ++ [(lp, type, c)] } }

/-- The ACK cell of a logical port (R371). -/
def LogicalPort.ackCell (x : LogicalPort) (nak : Bool) : QWord :=
  mkCell ((x.rxSeq - 1).toNat * 2 ^ 84 + b2n x.rxAny * 2 ^ 83 + b2n nak * 2 ^ 82 +
    x.rxSeq.toNat * 2 ^ 70 + x.rxFreedExch % 4096 * 2 ^ 58 + x.rxFreedAns % 4096 * 2 ^ 46)

/-- An ACK cell sent. -/
def State.sendAck (s : State) (lp : Nat) (nak : Bool) : State :=
  let x := s.port lp
  (s.sendCell lp 4 (x.ackCell nak)).setPort lp { x with sinceAck := 0, sendNs := 0 }

/-- A SPARE cell sent. -/
def State.sendSpare (s : State) (lp : Nat) (req : Bool) (lane : Nat) : State :=
  s.sendCell lp 6 (mkCell (b2n req * 2 ^ 95 + lpHalf lp * 2 ^ 94 + lane * 2 ^ 90))

/-- HEAD cell of a link packet, with the CRC field as the packet carries it. -/
def LinkPacket.head (k : LinkPacket) : QWord :=
  BitVec.ofNat 128 (k.seq.toNat * 2 ^ 116 + k.vn.toNat * 2 ^ 114 + k.len.toNat * 2 ^ 112 +
    k.rsvd.toNat * 2 ^ 32 + k.crc.toNat)

/-- The CRC of a link packet over HEAD bits [127:32] and its flits. -/
def LinkPacket.crcNow (k : LinkPacket) : Word :=
  crcOf crc32cPoly (beBytes 12 (k.head.toNat / 2 ^ 32) ++ k.flits.flatMap fun f => beBytes 16 f.toNat)

/-- Whether a link packet came whole: LEN flits and a good CRC. -/
def LinkPacket.good (k : LinkPacket) : Bool := k.crc = k.crcNow && k.flits.length = k.len.toNat

/-- A link packet as its cells. -/
def State.sendLinkCells (s : State) (lp : Nat) (k : LinkPacket) : State :=
  k.flits.foldl (fun s f => s.sendCell lp 3 f) (s.sendCell lp 2 k.head)

/-! ## TRAIN and IDLE cells of single lanes (R356, R360, R365) -/

/-- The TRAIN cell that transmit lane k of a logical port sends. STATE and HALF are those of the half that the lane
belongs to: for lane 8, of the half that holds the spare, else of half A (R365). -/
def State.trainCell (s : State) (lp k : Nat) : QWord :=
  let p := lpPort lp
  let x := s.port lp
  let q := if k = 8 ∧ !s.usesSpare lp then p else lp
  let t := s.taps p k
  let st := Table.get (fun _ => 0) x.txStatus k
  let r := Table.get (fun _ => 0) x.rxReq k
  let dev := if s.chain.valid then s.chain.id.toNat else 0xFF
  let half := if x.split then lpHalf q else 0
  let rep := if x.state = .init then (x.lost.map (s.recvLogical lp)).getD 15 else 15
  mkCell (dev * 2 ^ 88 + p * 2 ^ 84 + k * 2 ^ 80 + (s.port q).state.code * 2 ^ 76 + s.linkMode p * 2 ^ 74 +
    s.fld .lnkCfg 5 4 p * 2 ^ 72 + half * 2 ^ 71 + rep * 2 ^ 67 +
    Table.get (fun _ => 0) x.farLane k * 2 ^ 63 + bits r 1 0 * 2 ^ 61 + bits r 3 2 * 2 ^ 59 +
    bits r 5 4 * 2 ^ 57 + bits r 6 6 * 2 ^ 56 + bits r 8 7 * 2 ^ 54 + b2n (bit x.ready k) * 2 ^ 53 +
    bits st 1 0 * 2 ^ 51 + bits st 3 2 * 2 ^ 49 + bits st 5 4 * 2 ^ 47 +
    t.1 * 2 ^ 43 + t.2.1 * 2 ^ 37 + t.2.2 * 2 ^ 32)

/-- A cell that one transmit lane sends. -/
def State.sendLane (s : State) (lp k : Nat) (type : BitVec 4) (c : QWord) : State :=
  { s with net := { s.net with laneTx := s.net.laneTx ++ [(lpPort lp, k, type, c)] } }

/-- A lane sends its TRAIN cell as it now is; it repeats it until the next one (assumption 51). -/
def State.sendTrain (s : State) (lp k : Nat) : State := s.sendLane lp k 1 (s.trainCell lp k)

/-- Lane 8 stands with half A, and with half B while half A is off or FAILED (R353, R363). -/
def State.spareStands (s : State) (lp : Nat) : Bool := lpHalf lp = 0 || !(s.port (otherHalf lp)).receives

/-- The lanes on which a logical port trains: its data lanes, and lane 8 unless it serves the other half or stands with
it (R353, R365). -/
def State.ownLanes (s : State) (lp : Nat) : List Nat :=
  let mine := !s.spareTaken lp && (s.spareStands lp || (s.port lp).needsSpare)
  s.dataLanes lp ++ (if mine then [8] else [])

/-- Whether a half sends TRAIN cells on lane 8: in SWAP it does on that lane alone (R374). -/
def State.trainsSpare (s : State) (lp : Nat) : Bool :=
  let st := (s.port lp).state
  st = .swap || ((st = .detect || st = .lock || st = .eq || st = .order || st = .init) && decide (8 ∈ s.ownLanes lp))

/-- Lane 8 as a half changes its state: TRAIN cells of the other half where the lane now falls to it, and IDLE cells of
a port with a half in ACTIVE, while the lane carries no logical lane and no half trains on it (R360, R363). -/
def State.idleSpare (s : State) (lp : Nat) : State :=
  let o := otherHalf lp
  let active := (s.port lp).state = .active || (s.port o).state = .active
  if !(s.port lp).receives && s.trainsSpare o then s.sendTrain o 8
  else if active && !bit (s.rd .lnkSpare (lpPort lp)) 31 && !s.trainsSpare lp && !s.trainsSpare o then
    s.sendLane lp 8 0 0
  else s

/-- A training state entered: every lane sends TRAIN cells of it (R363). -/
def State.trainTo (s : State) (lp : Nat) (st : LinkState) : State :=
  let s := s.linkTo lp st
  (s.ownLanes lp).foldl (fun s k => s.sendTrain lp k) s

/-! ## Flits (R370) -/

/-- The route flit of a packet. -/
def Packet.routeFlit (p : Packet) : QWord :=
  BitVec.ofNat 128 (p.dstDev.toNat * 2 ^ 120 + p.srcDev.toNat * 2 ^ 112 + p.count % 16 * 2 ^ 108 +
    p.next % 16 * 2 ^ 104 + p.half.toNat * 2 ^ 92 + p.hop.toNat * 2 ^ 56 + p.rcount % 16 * 2 ^ 52 +
    p.ret.toNat * 2 ^ 8)

/-- The flits of an EXCH link packet. -/
def Packet.flits (p : Packet) : List QWord :=
  let two : QWord := BitVec.ofNat 128 (p.tag.toNat * 2 ^ 64 + p.dstVt % 128 * 2 ^ 57 +
    p.srcVt % 128 * 2 ^ 50 + p.kind.code * 2 ^ 48 + p.index % 64 * 2 ^ 42 + p.flag % 1024 * 2 ^ 32 +
    p.entry % 256 * 2 ^ 24)
  p.routeFlit :: two :: (if p.kind = .flag then [] else [p.data.setWidth 128])

/-- The OUTCOME code of an answer; the reserved codes are one outcome, sent on as 5 (R370; assumption 83). -/
def AnsOutcome.code : AnsOutcome → Nat
  | .accepted => 0 | .refused => 1 | .stale => 2 | .unserved => 3 | .unreachable => 4 | .reserved => 5

/-- The OUTCOME that a code spells. -/
def outcomeOf : Nat → AnsOutcome
  | 0 => .accepted
  | 1 => .refused
  | 2 => .stale
  | 3 => .unserved
  | 4 => .unreachable
  | _ => .reserved

/-- The flits of an ANS link packet. -/
def Answer.flits (a : Answer) : List QWord :=
  [BitVec.ofNat 128 (a.dstDev.toNat * 2 ^ 120 + a.srcDev.toNat * 2 ^ 112 + a.rcount % 16 * 2 ^ 52 +
      a.ret.toNat * 2 ^ 8),
   BitVec.ofNat 128 (a.xbatch.toNat * 2 ^ 64 + a.srcVt % 128 * 2 ^ 57 + a.dstVt % 128 * 2 ^ 50 +
      a.outcome.code * 2 ^ 47 + a.entry % 256 * 2 ^ 39 + a.tag.toNat * 2 ^ 23)]

/-- The KIND that two bits spell. -/
def kindCode : Nat → PktKind
  | 1 => .mailbox
  | 2 => .flag
  | 3 => .queue
  | _ => .invalid

/-- The packet that the flits of an EXCH link packet spell. -/
def readPacket (r q : QWord) (data : DWord) : Packet where
  dstDev := r.extractLsb' 120 8
  srcDev := r.extractLsb' 112 8
  count := bits r 111 108
  next := bits r 107 104
  half := r.extractLsb' 92 12
  hop := r.extractLsb' 56 36
  rcount := bits r 55 52
  ret := r.extractLsb' 8 44
  tag := q.extractLsb' 64 64
  dstVt := bits q 63 57
  srcVt := bits q 56 50
  kind := kindCode (bits q 49 48)
  index := bits q 47 42
  flag := bits q 41 32
  entry := bits q 31 24
  data := data
  step := 0

/-- The answer that the flits of an ANS link packet spell. -/
def readAnswer (r q : QWord) : Answer where
  dstDev := r.extractLsb' 120 8
  srcDev := r.extractLsb' 112 8
  rcount := bits r 55 52
  ret := r.extractLsb' 8 44
  xbatch := q.extractLsb' 64 64
  srcVt := bits q 63 57
  dstVt := bits q 56 50
  outcome := outcomeOf (bits q 49 47)
  entry := bits q 46 39
  tag := q.extractLsb' 23 16

/-! ## Errors of the NOC page (R351, R377) -/

/-- NOC_NO_PORT for a packet or answer that names these devices. -/
def State.noPort (s : State) (dst src : Byte) (next lp : Nat) : State :=
  s.err nocPage 0x4101 (dst.toNat * 2 ^ 24 + src.toNat * 2 ^ 16 + next % 16 * 2 ^ 12 + lp)

/-- NOC_MISROUTE. -/
def State.misroute (s : State) (dst src : Byte) (next count : Nat) : State :=
  s.err nocPage 0x4102 (dst.toNat * 2 ^ 24 + src.toNat * 2 ^ 16 + next % 16 * 2 ^ 12 + count % 16 * 2 ^ 8)

/-- The answer UNREACHABLE from this device (R351). -/
def State.unreachable (s : State) (p : Packet) : State :=
  s.sendAnswer (answerTo p s.devId .unreachable 0)

/-- A link packet that will not be delivered: recorded, and an EXCH one answered (R375). -/
def State.giveUp (s : State) (lp : Nat) (k : LinkPacket) : State :=
  match k.flits with
  | r :: q :: rest =>
    if k.vn = 0 then
      let p := readPacket r q ((rest.headD 0).setWidth 64)
      (s.noPort p.dstDev p.srcDev (p.next + 15) lp).unreachable p
    else
      let a := readAnswer r q
      s.noPort a.dstDev a.srcDev 0 lp
  | _ => s

/-- The link packets of a retry buffer given up. -/
def State.giveUpAll (s : State) (lp : Nat) : State :=
  let l := (s.port lp).retryBuf
  l.foldl (fun s u => s.giveUp lp u.pkt) (s.modPort lp fun x => { x with retryBuf := [] })

/-! ## Ports off, down, and attempts (R363, R375) -/

/-- LNK_STAT.MARKER_DESKEW: a half of the port deskews on markers (R381). -/
def State.setDeskew (s : State) (lp : Nat) : State :=
  let m := (s.port (lpPort lp)).markerDeskew || (s.port (lpPort lp + 8)).markerDeskew
  s.setFld .lnkStat 16 16 (b2n m) (lpPort lp)

/-- LNK_STAT.REVERSED of a logical port (R381). -/
def State.setReversed (s : State) (lp : Nat) (r : Bool) : State :=
  if lpHalf lp = 0 then s.setFld .lnkStat 23 23 (b2n r) (lpPort lp)
  else s.setFld .lnkStat 22 22 (b2n r) (lpPort lp)

/-- The lanes of a logical port that stops: none holds lock or carries a logical lane, and no reversal is corrected.
Lane 8 is free again if it served the port, and is dropped unless it serves the other half or stands with it. Lanes
4 to 7 are half B's while that runs. DESIGN CHOICE (assumption 95): INVERTED and the taps keep their last values. -/
def State.clearLanes (s : State) (lp : Nat) : State :=
  let p := lpPort lp
  let away := s.port (otherHalf lp)
  let n := if lpHalf lp = 0 ∧ away.state = .off then 8 else 4
  let ls := List.range' (4 * lpHalf lp) n
  let own := s.usesSpare lp || (!s.spareTaken lp && (lpHalf lp = 0 || !away.receives))
  let s := ls.foldl (fun s k => s.setLane lp k 27 24 15) (s.dropLanes lp ls)
  let s := if own then ((s.wr .lnkSpare 0 p).setLane lp 8 27 24 15).dropLanes lp [8] else s
  let s := s.modPort lp fun x => { x with lost := none, errs := [], markerDeskew := false, reversed := false }
  (s.setReversed lp false).setDeskew lp

/-- A logical port off: no lane holds lock or carries a logical lane, and the peer is not known. The drain of a port
with no half left in DRAIN is over. -/
def State.linkOff (s : State) (lp : Nat) : State :=
  let s := (((s.giveUpAll lp).clearLanes lp).linkTo lp .off).idleSpare lp
  let s := s.setFld (peerReg lp) 31 31 0 (lpPort lp)
  if (s.port (otherHalf lp)).state = .drain then s
  else { s with host := { s.host with drains := s.host.drains.filter fun d => d.1 ≠ portPage (lpPort lp) 0 } }

/-- LNK_DOWN with its cause bit. -/
def State.linkDown (s : State) (lp reason : Nat) : State :=
  (s.lnkErr lp 0x4008 reason).cause (portPage (lpPort lp) 0) 2

/-- A logical port goes down to FAILED: its transmitters are off and its receivers hold no lock (R363). -/
def State.linkFail (s : State) (lp reason : Nat) : State :=
  ((((s.linkDown lp reason).giveUpAll lp).clearLanes lp).linkTo lp .failed).idleSpare lp

/-- DRAIN entered; its limit counts from here (R375, R493). -/
def State.linkDrain (s : State) (lp : Nat) : State :=
  let page := portPage (lpPort lp) 0
  let s := s.linkTo lp .drain
  if s.host.drains.any fun d => d.1 = page then s
  else { s with host := { s.host with drains := s.host.drains ++ [(page, 0)] } }

/-- A logical port taken down by MODE 0 or EN 0: an ACTIVE or swapping one drains its retry buffer, any
other goes off at once. -/
def State.linkTakeDown (s : State) (lp : Nat) : State :=
  match (s.port lp).state with
  | .off => s
  | .drain => s
  | .active =>
    let s := s.linkDown lp 0
    if (s.port lp).retryBuf.isEmpty then s.linkOff lp else s.linkDrain lp
  | .swap =>
    let s := s.linkDown lp 0
    if (s.port lp).retryBuf.isEmpty then s.linkOff lp else s.linkDrain lp
  | _ => s.linkOff lp

/-- Both logical ports of a port taken down. -/
def State.portTakeDown (s : State) (p : Nat) : State := (s.linkTakeDown p).linkTakeDown (p + 8)

/-- A logical port in DETECT: TRAIN cells with the taps of PRESET, no lane locked (R363). -/
def State.toDetect (s : State) (lp : Nat) : State :=
  let p := lpPort lp
  let s := s.clearLanes lp
  let s := (s.ownLanes lp).foldl (fun s k => s.setTaps lp k (preset (s.fld .lnkCfg 3 2 p))) s
  let s := s.modPort lp fun x => { x with
    lanes := 0, ready := 0, farReady := 0, txStatus := [], rxReq := [], farLane := [], initSeen := 0 }
  (s.trainTo lp .detect).idleSpare lp

/-- Lanes of a logical port that are not locked or not ready, as LNK_TRAIN_FAIL names them (R377). -/
def State.badLanes (s : State) (lp : Nat) : Nat :=
  ((s.dataLanes lp ++ (if s.spareTaken lp then [] else [8])).filter fun k =>
    let w := s.rd .lnkLane (lpPort lp) k
    !(bit w 31 && bit w 30 && bit w 28)).foldl (fun a k => a + 2 ^ k) 0

/-- An attempt fails in the present state (R363). -/
def State.failAttempt (s : State) (lp : Nat) : State :=
  let x := s.port lp
  let n := x.attempts + 1
  let lim := s.fld .lnkCfg 31 28 (lpPort lp)
  let s := s.setPort lp { x with attempts := n }
  if lim ≠ 0 ∧ lim ≤ n then
    (((s.lnkErr lp 0x4001 (x.state.code * 2 ^ 28 + n % 16 * 2 ^ 24 + s.badLanes lp)).clearLanes lp).linkTo lp
      .failed).idleSpare lp
  else s.toDetect lp

/-! ## LNK_CFG (R380) -/

/-- Training started from OFF on the logical ports of the mode (R363): a half still in DRAIN holds the whole port in
OFF (assumption 50). RATE is set here; DESIGN CHOICE (assumption 95): once the port is OFF again it keeps its value. -/
def State.startTraining (s : State) (p : Nat) : State :=
  let ready := [p, p + 8].all fun lp => (s.port lp).state = .off
  if s.pageEn (portPage p 0) && ready then
    (s.linkHalves p).foldl (fun s lp =>
      let s := s.setPort lp { LogicalPort.reset with
        split := decide (s.linkMode p = 2), syncA := (s.port lp).syncA, syncB := (s.port lp).syncB }
      (s.wr (peerReg lp) 0 p).linkTo lp .pll)
      (s.setFld .lnkStat 21 20 (s.fld .lnkCfg 5 4 p) p)
  else s

/-- A FAILED half goes to OFF as MODE is written 0 (R363). -/
def State.leaveFailed (s : State) (lp : Nat) : State := if (s.port lp).state = .failed then s.linkOff lp else s

/-- A write of LNK_CFG. -/
def State.writeLnkCfg (s : State) (p : Nat) (val : Word) : State :=
  let zero := bits val 1 0 = 0 || bits val 1 0 = 3
  if s.linkMode p = 0 then
    let s := if zero then (s.leaveFailed p).leaveFailed (p + 8) else s
    (s.wr .lnkCfg (val &&& (Reg.row .lnkCfg).mask) p).startTraining p
  else if zero then (s.portTakeDown p).setFld .lnkCfg 1 0 0 p
  else s.err (portPage p 0) 0x4004 0x40

/-- LNK_CFG_WRITE. -/
def execLnkCfgWrite (p : Nat) (val : Word) (s : State) : Out :=
  guardUnit (p < 8) (onWrite (portPage p 0) s (
    .next (s.writeLnkCfg p val)))

/-! ## PLL, DETECT, LOCK (R363, R364) -/

/-- LNK_PLL_LOCK: the halves of a port share its PLL. -/
def execLnkPllLock (p : Nat) (s : State) : Out :=
  guardUnit (p < 8) (.next
    ([p, p + 8].foldl (fun s lp => if (s.port lp).state = .pll then s.toDetect lp else s) s))

/-- The condition of DETECT and LOCK on a set of lanes: every data lane, or all but one and lane 8. -/
def State.lanesSuffice (s : State) (lp : Nat) (l : BitVec 9) : Bool :=
  let missing := (s.dataLanes lp).filter fun k => !bit l k
  missing.isEmpty || (missing.length = 1 && bit l 8 && !s.spareTaken lp)

/-- The lanes that a logical port trains on, of those that are locked: its data lanes, and lane 8 where a data
lane is missing, or where it stands with the port and serves no other half. -/
def State.trainLanes (s : State) (lp : Nat) (l : BitVec 9) : BitVec 9 :=
  let mine : BitVec 9 := BitVec.ofNat 9 ((s.dataLanes lp).foldl (fun a k => a + 2 ^ k) 0)
  if s.spareTaken lp || ((l &&& mine) = mine && !s.spareStands lp) then l &&& mine else l &&& (mine ||| 0x100)

/-- A half of a port leaves DETECT when signal is present on its lanes. -/
def State.signalOn (s : State) (lp : Nat) (lanes : BitVec 9) : State :=
  if (s.port lp).state = .detect ∧ s.lanesSuffice lp lanes then s.trainTo lp .lock else s

/-- LNK_SIGNAL_DETECT: the halves of a split port share DETECT, so the signals of the port are seen for both
(R363). -/
def execLnkSignalDetect (lp : Nat) (lanes : BitVec 9) (s : State) : Out :=
  guardUnit (lp < 16) (.next ((s.signalOn lp lanes).signalOn (otherHalf lp) lanes))

/-- The lanes of a port that failed self-test (R496). -/
def State.testFailed (s : State) (p : Nat) : BitVec 9 :=
  BitVec.ofNat 9 (((List.range 9).filter fun k => decide (9 * p + k ∈ s.sup.failLanes)).foldl
    (fun a k => a + 2 ^ k) 0)

/-- The logical port that uses a physical lane of port p: lane 8 goes with the half that it serves, or else with the
first half whose receivers work. -/
def State.laneOwner (s : State) (p lane : Nat) : Nat :=
  let split := (s.port p).split
  if lane = 8 then
    if split ∧ (s.usesSpare (p + 8) ∨ (!s.usesSpare p ∧ !(s.port p).receives)) then p + 8 else p
  else if split ∧ 4 ≤ lane then p + 8 else p

/-- Receive lane k holds phase lock, or comma lock too. Its polarity is known from the first comma on, so `inverted`
counts for a lane without comma lock as well (R364, R381, R384). -/
def State.lockLane (s : State) (lp k : Nat) (comma inverted : Bool) : State :=
  ((s.setLane lp k 31 30 (2 + b2n comma)).setLane lp k 29 29 (b2n inverted)).setFld .lnkStat k k (b2n inverted)
    (lpPort lp)

/-- What the receive lanes hold: phase and comma lock of those in `l`, and phase lock alone of the others in `phase`
(R364, R384). -/
def State.lockLanes (s : State) (lp : Nat) (ks : List Nat) (l phase inverted : BitVec 9) : State :=
  ks.foldl (fun s k =>
    if bit l k || bit phase k then s.lockLane lp k (bit l k) (bit inverted k) else s.setLane lp k 31 30 0) s

/-- Receive lanes that gain lock after LOCK; none loses it here (R364, R384). -/
def State.gainLanes (s : State) (lp : Nat) (ks : List Nat) (l phase inverted : BitVec 9) : State :=
  ks.foldl (fun s k =>
    let had := bits (s.rd .lnkLane (lpPort lp) k) 31 30
    if (bit l k && decide (had < 3)) || (bit phase k && decide (had < 2)) then
      s.lockLane lp k (bit l k) (bit inverted k)
    else s) s

/-- The lanes that a logical port receives on once it has left LOCK: its data lanes, and lane 8 if that falls to it. -/
def State.heldLanes (s : State) (lp : Nat) : List Nat :=
  s.dataLanes lp ++ if s.laneOwner (lpPort lp) 8 = lp then [8] else []

/-- LOCK ends: the lanes locked are equalized, and a missing data lane gives lane 8 to the port. The marks of self-test
on the lanes that trained have had their effect (R496). -/
def State.locked (s : State) (lp : Nat) (l : BitVec 9) : State :=
  let lost := (s.dataLanes lp).find? fun k => !bit l k
  let trained := s.ownLanes lp
  let s := if lost.isSome then s.takeSpare lp else s
  let s := s.modPort lp fun x => { x with lanes := l, lost := lost }
  let others := s.sup.failLanes.filter fun n => n / 9 ≠ lpPort lp || decide (n % 9 ∉ trained)
  let s : State := { s with sup := { s.sup with failLanes := others } }
  let s : State := if s.flash.readonly then s else { s with flash := { s.flash with failLanes := others } }
  s.trainTo lp .eq

/-- Whether the frequency difference of the two ends, in ppm, is beyond what the phase tracking loops of a port in LOCK
follow (R541). It can be only where the transmit PLLs run on the internal oscillator; its value is free. -/
def State.offRate (s : State) (lp : Nat) : Bool × State :=
  if (s.port lp).state = .lock && !s.tim.ref && !s.sup.xtal then (decide (1000 < bits s.free.1 15 0), s.free.2)
  else (false, s)

/-- LNK_LANE_LOCK: the lanes that hold phase, comma and polarity lock, those that hold phase lock and no comma lock yet,
and those that are inverted; in LOCK the lanes of the port, in SWAP lane 8, and after LOCK any lane that gains lock. A
lane that failed self-test holds no lock at
this training. -/
def execLnkLaneLock (lp : Nat) (lanes : LaneLock) (inverted : BitVec 9) (s : State) : Out :=
  guardUnit (lp < 16) (
    let (off, s) := s.offRate lp
    let usable (l : BitVec 9) : BitVec 9 := if off then 0 else l &&& ~~~(s.testFailed (lpPort lp))
    let l := s.trainLanes lp (usable lanes.locked)
    match (s.port lp).state with
    | .lock =>
      let t := s.lockLanes lp (s.ownLanes lp ++ if bit l 8 then [8] else []) l (usable lanes.phase) inverted
      .next (if s.lanesSuffice lp (usable lanes.locked) then t.locked lp l else t)
    | .off | .pll | .detect | .failed => .next s
    | st =>
      let t := if st = .swap then s.lockLanes lp [8] (usable lanes.locked) (usable lanes.phase) inverted else s
      .next (t.gainLanes lp (s.heldLanes lp) (usable lanes.locked) (usable lanes.phase) inverted))

/-- The limit of a training state in ns; none where there is no limit. -/
def State.trainLimit (s : State) (lp : Nat) : Option Nat :=
  match (s.port lp).state with
  | .pll => some 20000
  | .detect =>
    let ms := s.fld .lnkTimers 31 16 (lpPort lp)
    if ms = 0 then none else some (ms * 1000000)
  | .lock => some 1000000
  | .eq => some 5000000
  | .order => some 1000000
  | .init => some 100000
  | _ => none

/-- LNK_TRAIN_TIMEOUT. -/
def execLnkTrainTimeout (lp : Nat) (s : State) : Out :=
  guardUnit (lp < 16) (
    match s.trainLimit lp with
    | none => .next s
    | some n => whenDue (n ≤ (s.port lp).ns) s (s.failAttempt lp))

/-! ## TRAIN cells (R365 to R368) -/

/-- One tap request judged: 1 INC, 2 DEC; the new value and the status. -/
def tapStep (req v lo hi room : Nat) : Nat × Nat :=
  match req with
  | 1 => if v < hi ∧ 0 < room then (v + 1, 1) else (v, 3)
  | 2 => if lo < v then (v - 1, 1) else (v, 2)
  | _ => (v, 0)

/-- The taps and the status after requests PRE, MAIN, POST, judged in that order (R366). -/
def tapSteps (t : Nat × Nat × Nat) (pre main post : Nat) : (Nat × Nat × Nat) × BitVec 6 :=
  let a := tapStep pre t.1 0 15 (63 - (t.1 + t.2.1 + t.2.2))
  let b := tapStep main t.2.1 24 63 (63 - (a.1 + t.2.1 + t.2.2))
  let c := tapStep post t.2.2 0 31 (63 - (a.1 + b.1 + t.2.2))
  ((a.1, b.1, c.1), BitVec.ofNat 6 (a.2 + 4 * b.2 + 16 * c.2))

/-- The status that a preset reports: UPDATED for each tap changed. -/
def presetStatus (o n : Nat × Nat × Nat) : BitVec 6 :=
  BitVec.ofNat 6 (b2n (o.1 ≠ n.1) + 4 * b2n (o.2.1 ≠ n.2.1) + 16 * b2n (o.2.2 ≠ n.2.2))

/-- The transmitter's side of the handshake for the lane that a cell's requests address. -/
def State.answerRequest (s : State) (lp : Nat) (c : QWord) : State :=
  let p := lpPort lp
  let j := bits c 98 95
  let x := s.port lp
  let st := Table.get (fun _ => 0) x.txStatus j
  let setSt (s : State) (v : BitVec 6) : State :=
    s.modPort lp fun x => { x with txStatus := Table.set (fun _ => 0) x.txStatus j v }
  if 9 ≤ j then s
  else if bits c 94 88 = 0 then setSt s 0
  else if st ≠ 0 then s
  else if bit c 88 then
    let n := preset (bits c 87 86)
    setSt (s.setTaps lp j n) (presetStatus (s.taps p j) n)
  else
    let r := tapSteps (s.taps p j) (bits c 94 93) (bits c 92 91) (bits c 90 89)
    setSt (s.setTaps lp j r.1) r.2

/-- A change that the device's own measure of a lane asks for: it is internal to the device, so it is
free (R366); a reserved request is none. -/
def changeOf (w : Word) : BitVec 9 :=
  let one (v : Nat) : Nat := if v = 3 then 0 else v
  BitVec.ofNat 9 (one (bits w 2 1) + 4 * one (bits w 4 3) + 16 * one (bits w 6 5) + 64 * bits w 7 7 +
    128 * bits w 9 8)

/-- The receiver's side of the handshake on lane k. -/
def State.tuneLane (s : State) (lp k : Nat) (c : QWord) : State :=
  let x := s.port lp
  let j := bits c 98 95
  let x := { x with
    farLane := Table.set (fun _ => 0) x.farLane k (bits c 115 112)
    farReady := if bit c 85 then x.farReady ||| BitVec.ofNat 9 (2 ^ j) else x.farReady &&& ~~~BitVec.ofNat 9 (2 ^ j) }
  let st := bits c 84 79
  let r := Table.get (fun _ => 0) x.rxReq k
  if r ≠ 0 then
    if st ≠ 0 then s.setPort lp { x with rxReq := Table.set (fun _ => 0) x.rxReq k 0 } else s.setPort lp x
  else if st = 0 ∧ bit x.ready k = false then
    let f := s.free
    let x := if bit f.1 0 then { x with ready := x.ready ||| BitVec.ofNat 9 (2 ^ k) }
      else { x with rxReq := Table.set (fun _ => 0) x.rxReq k (changeOf f.1) }
    f.2.setPort lp x
  else s.setPort lp x

/-- LNK_LANE.READY: both directions of a lane have reported RX_READY. -/
def State.readyLanes (s : State) (lp : Nat) : State :=
  let x := s.port lp
  ((List.range 9).filter fun k => bit x.lanes k || (x.state = .swap && k = 8)).foldl
    (fun s k => s.setLane lp k 28 28 (b2n (bit x.ready k && bit x.farReady k))) s

/-- A TRAIN cell in EQ, or on lane 8 in SWAP. -/
def State.trainEq (s : State) (lp lane : Nat) (c : QWord) : State :=
  let s := ((s.answerRequest lp c).tuneLane lp lane c).readyLanes lp
  let x := s.port lp
  let held := (List.range 9).all fun k => !bit x.lanes k || bits (s.rd .lnkLane (lpPort lp) k) 31 30 = 3
  if x.state = .eq ∧ held ∧ x.lanes &&& (x.ready &&& x.farReady) = x.lanes then s.trainTo lp .order
  else s.sendTrain lp lane

/-- The far lane that the reversed order puts on data lane k (R367). -/
def State.reversedLane (s : State) (lp k : Nat) : Nat :=
  if (s.port lp).split then (if lpHalf lp = 0 then 3 - k else 11 - k) else 7 - k

/-- A TRAIN cell in ORDER: the far lane that the marker of each receive lane names, and the skew
between the lanes in bit times. -/
def State.trainOrder (s : State) (lp lane : Nat) (order : List Nat) (skew : Nat) : State :=
  let x := s.port lp
  let data := (s.dataLanes lp).filter fun k => bit x.lanes k
  let far (k : Nat) : Nat := order.getD k 15
  let straight := data.all fun k => far k = k
  let mirror := data.all fun k => far k = s.reversedLane lp k
  let spareOk := !bit x.lanes 8 || far 8 = 8
  let bad : Option Nat :=
    if !spareOk then some 8
    else if !(straight || mirror) then
      ((data.find? fun k => far k ≠ k && far k ≠ s.reversedLane lp k).orElse
        fun _ => data.find? fun k => far k ≠ k)
    else if 65536 < skew then some lane
    else none
  match bad with
  | some k => (s.lnkErr lp 0x4002 (far k % 16 * 16 + k)).failAttempt lp
  | none =>
    let rev := !straight
    let s := s.setPort lp { x with reversed := rev, markerDeskew := decide (512 < skew), initSeen := 0 }
    ((s.setReversed lp rev).setDeskew lp).trainTo lp .init

/-- The bits in which two INIT cells must agree: DEVICE, PORT, STATE, MODE, RATE, HALF and REPLACE. -/
def initMask : QWord := 0xFFF0FFF8000000000000000000000000

/-- Logical lane l carried on lane 8 (R368, R374). -/
def State.useSpare (s : State) (lp l : Nat) : State :=
  let p := lpPort lp
  let s := (s.takeSpare lp).wr .lnkSpare (BitVec.ofNat 32 (2 ^ 31 + lpHalf lp * 2 ^ 30 + l)) p
  (s.setLane lp 8 27 24 l).setLane lp (physLane lp l) 27 24 15

/-- A logical port enters ACTIVE: sequence counters zero, full credits, the peer recorded, UP (R368). -/
def State.linkActive (s : State) (lp : Nat) (c : QWord) (spare : Option Nat) : State :=
  let p := lpPort lp
  let s := (s.dataLanes lp).foldl (fun s k => s.setLane lp k 27 24 (logicalLane lp k)) s
  let s := match spare with
    | some l => s.useSpare lp l
    | none => s
  let s := s.modPort lp fun x => { x with
    errs := [], swapNak := none, txSeq := 0, retryBuf := [], ackNs := 0,
    sentExch := 0, sentAns := 0, freedExch := 0, freedAns := 0,
    rxSeq := 0, rxAny := false, sinceAck := 0, sendNs := 0, rxFreedExch := 0, rxFreedAns := 0,
    nakFor := none, nakNs := 0 }
  let peer : Word := BitVec.ofNat 32
    (2 ^ 31 + bits c 119 116 * 2 ^ 16 + bits c 103 103 * 2 ^ 8 + bits c 127 120)
  ((((s.wr (peerReg lp) peer p).linkTo lp .active).idleSpare lp).cause (portPage p 0) 1).dropDelays lp

/-- A TRAIN cell in INIT (R368). A far end that asks for lane 8 while it serves the other half fails the attempt
(assumption 51). -/
def State.trainInit (s : State) (lp : Nat) (c : QWord) : State :=
  let p := lpPort lp
  let x := s.port lp
  let isInit := bits c 111 108 = 6
  let n := if !isInit then 0
    else if 0 < x.initSeen ∧ c &&& initMask = x.lastInit &&& initMask then x.initSeen + 1 else 1
  let s := s.setPort lp { x with initSeen := n, lastInit := c }
  if n < 2 then s
  else if bits c 107 106 ≠ s.linkMode p ∨ bits c 105 104 ≠ s.fld .lnkCfg 5 4 p then
    (s.lnkErr lp 0x4003 (bits c 105 104 * 2 ^ 16 + bits c 107 106 * 2 ^ 12 + bits c 127 120)).failAttempt lp
  else
    let far := if bits c 102 99 = 15 then none else some (bits c 102 99)
    match x.lost.map (s.recvLogical lp), far with
    | some a, some b => if a = b then s.linkActive lp c (some a) else s.failAttempt lp
    | some a, none => s.linkActive lp c (some a)
    | none, some b => if s.spareTaken lp then s.failAttempt lp else s.linkActive lp c (some b)
    | none, none => s.linkActive lp c none

/-- TRAIN_CELL on receive lane `lane`. -/
def execTrainCell (lp : Nat) (lane : Nat) (cell : QWord) (order : List Nat) (skewBits : Nat)
    (s : State) : Out :=
  guardUnit (lp < 16 && lane < 9) (.next (
    if !cellOk cell then s.laneErr lp lane 1
    else
      match (s.port lp).state with
      | .eq => s.trainEq lp lane cell
      | .order => s.trainOrder lp lane order skewBits
      | .init => s.trainInit lp cell
      | .swap => if lane = 8 then (s.modPort lp fun x => { x with swapSkew := skewBits }).trainEq lp 8 cell else s
      | _ => s))

/-! ## The link layer (R371 to R373) -/

/-- Cells of a link packet, its HEAD included. -/
def LinkPacket.cells (k : LinkPacket) : Nat := 1 + k.flits.length

/-- Credit of a logical port for EXCH (ans false) or ANS (R373). -/
def LogicalPort.credit (x : LogicalPort) (ans : Bool) : Nat :=
  if ans then 256 - (x.sentAns + 4096 - x.freedAns % 4096) % 4096
  else 512 - (x.sentExch + 4096 - x.freedExch % 4096) % 4096

/-- Room in the retry buffer for a link packet of c cells (R372). -/
def LogicalPort.hasRoom (x : LogicalPort) (c : Nat) : Bool :=
  decide ((x.retryBuf.map fun u => u.pkt.cells).sum + c ≤ 8192) && decide (x.retryBuf.length < 2048)

/-- The logical port that PAIR gives for logical port i. -/
def State.pairOf (s : State) (i : Nat) : Nat :=
  if i < 8 then s.fld .lnkCfg 23 20 i else s.fld .lnkCfg 27 24 (i - 8)

/-- Whether c cells that arrived through `arrived` may enter logical port lp (R373). -/
def State.mayEnter (s : State) (arrived : Option Nat) (lp c : Nat) (ans : Bool) : Bool :=
  let x := s.port lp
  let continuing := match arrived with
    | some i => decide (s.pairOf i = lp)
    | none => false
  decide ((if continuing then c else c + 4) ≤ x.credit ans) && x.hasRoom c

/-- A new link packet sent through a logical port. -/
def State.sendLink (s : State) (lp : Nat) (ans : Bool) (flits : List QWord) : State :=
  let x := s.port lp
  let k : LinkPacket :=
    { seq := x.txSeq, vn := if ans then 1 else 0, len := BitVec.ofNat 2 flits.length, rsvd := 0, crc := 0,
      flits := flits }
  let k := { k with crc := k.crcNow }
  let s := s.sendLinkCells lp k
  s.setPort lp { x with
    txSeq := x.txSeq + 1
    retryBuf := x.retryBuf ++ [⟨k, 1⟩]
    ackNs := if x.retryBuf.isEmpty then 0 else x.ackNs
    sentExch := if ans then x.sentExch else x.sentExch + k.cells
    sentAns := if ans then x.sentAns + k.cells else x.sentAns }

/-- Cells of a receive buffer freed. -/
def State.freeRx (s : State) (arrived : Option Nat) (ans : Bool) (c : Nat) : State :=
  match arrived with
  | none => s
  | some i => s.modPort i fun x =>
    if ans then { x with rxFreedAns := x.rxFreedAns + c } else { x with rxFreedExch := x.rxFreedExch + c }

/-- LNK_CNT of a logical port. -/
def cntReg (lp : Nat) : Reg := if lpHalf lp = 0 then .lnkCntA else .lnkCntB

/-- REPLAYS or CRC_ERRS grown by n, saturating. -/
def State.countLink (s : State) (lp hi lo n : Nat) : State :=
  s.setFld (cntReg lp) hi lo (satAdd 0xFFFF (s.fld (cntReg lp) hi lo (lpPort lp)) n) (lpPort lp)

/-- The unacknowledged link packets from SEQ `q` on, sent again in order; one that has been sent 32 times
takes the port down instead (R372). -/
def State.replayFrom (s : State) (lp : Nat) (q : BitVec 12) : State :=
  let x := s.port lp
  let start := (x.retryBuf.findIdx? fun u => u.pkt.seq = q).getD x.retryBuf.length
  let again := x.retryBuf.drop start
  match again.find? fun u => 32 ≤ u.sends with
  | some u => (s.lnkErr lp 0x4007 u.pkt.seq.toNat).linkFail lp 2
  | none =>
    let s := again.foldl (fun s u => s.sendLinkCells lp u.pkt) s
    let sent := again.map fun u => { u with sends := u.sends + 1 }
    let s := s.setPort lp { x with ackNs := 0, retryBuf := x.retryBuf.take start ++ sent }
    s.countLink lp 31 16 again.length

/-- LNK_TIMERS.ACK_US in ns: 0 acts as 1. -/
def State.ackLimit (s : State) (lp : Nat) : Nat :=
  max 1 (s.fld .lnkTimers 15 8 (lpPort lp)) * 1000

/-- A port in DRAIN whose retry buffer is empty goes off. -/
def State.drainCheck (s : State) (lp : Nat) : State :=
  let x := s.port lp
  if x.state = .drain ∧ x.retryBuf.isEmpty then s.linkOff lp else s

/-- Whether the link layer of a logical port runs. -/
def LogicalPort.up (x : LogicalPort) : Bool := x.state = .active || x.state = .swap || x.state = .drain

/-- The packet or answer of an accepted link packet at the quadrant. -/
def State.toQuadrant (s : State) (lp : Nat) (k : LinkPacket) : State :=
  match k.flits with
  | r :: q :: rest =>
    if k.vn = 0 then
      { s with net := { s.net with quad := s.net.quad ++
          [⟨some lp, readPacket r q ((rest.headD 0).setWidth 64)⟩] } }
    else if k.vn = 1 then
      { s with net := { s.net with quadAns := s.net.quadAns ++ [⟨some lp, readAnswer r q⟩] } }
    else s
  | _ => s

/-- LINK_PACKET_RECEIVE. -/
def execLinkPacketReceive (lp : Nat) (pkt : LinkPacket) (s : State) : Out :=
  guardUnit (lp < 16) (
    let x := s.port lp
    if !x.up then .next s
    else if pkt.good ∧ pkt.seq = x.rxSeq then
      .next ((s.setPort lp { x with
        rxSeq := x.rxSeq + 1, rxAny := true, sinceAck := x.sinceAck + 1 }).toQuadrant lp pkt)
    else
      let s := if pkt.good then s else s.countLink lp 15 0 1
      let beyond := !pkt.good || ((pkt.seq - x.rxSeq).toNat < 2048)
      let fresh := x.nakFor ≠ some x.rxSeq || s.ackLimit lp ≤ x.nakNs
      if beyond && fresh then
        .next ((s.setPort lp { x with nakFor := some x.rxSeq, nakNs := 0 }).sendAck lp true)
      else .next s)

/-- An ACK cell applied; a NAK that comes in SWAP is answered at its end (R374). -/
def State.takeAck (s : State) (lp : Nat) (c : QWord) : State :=
  let x := s.port lp
  let upto := if bit c 115 then
      ((x.retryBuf.findIdx? fun u => u.pkt.seq.toNat = bits c 127 116).map (· + 1)).getD 0 else 0
  let s := s.setPort lp { x with
    retryBuf := x.retryBuf.drop upto
    ackNs := if 0 < upto then 0 else x.ackNs
    freedExch := bits c 101 90
    freedAns := bits c 89 78 }
  let s :=
    if !bit c 114 then s
    else if x.state = .swap then s.modPort lp fun x => { x with swapNak := some (c.extractLsb' 102 12) }
    else s.replayFrom lp (c.extractLsb' 102 12)
  s.drainCheck lp

/-- ACK_CELL on receive lane `lane`: one whose CRC fails is a lane error and is ignored. -/
def execAckCell (lp lane : Nat) (cell : QWord) (s : State) : Out :=
  guardUnit (lp < 16 && lane < 9) (
    if !cellOk cell then .next (s.laneErr lp lane 1)
    else whenDue (s.port lp).up s (s.takeAck lp cell))

/-- ACK_SEND: 1 µs after the last ACK cell, or at 64 accepted link packets. -/
def execAckSend (lp : Nat) (s : State) : Out :=
  guardUnit (lp < 16) (
    let x := s.port lp
    whenDue (x.up && (decide (1000 ≤ x.sendNs) || decide (64 ≤ x.sinceAck))) s (s.sendAck lp false))

/-- ACK_TIMEOUT: replay from the oldest unacknowledged link packet. -/
def execAckTimeout (lp : Nat) (s : State) : Out :=
  guardUnit (lp < 16) (
    let x := s.port lp
    match x.retryBuf with
    | [] => .next s
    | u :: _ =>
      whenDue ((x.state = .active || x.state = .drain) && s.ackLimit lp ≤ x.ackNs) s
        (s.replayFrom lp u.pkt.seq))

/-! ## Lane sparing (R374, R375) -/

/-- A port enters SWAP for a logical lane: lane 8 trains again from LOCK. -/
def State.enterSwap (s : State) (lp l : Nat) (detected : Bool) : State :=
  let s := ((s.takeSpare lp).dropLanes lp [8]).modPort lp fun x => { x with
    swapLane := l, swapDetected := detected, swapAcked := false, swapNak := none, swapSkew := 0,
    ready := x.ready &&& 0xFF, farReady := x.farReady &&& 0xFF,
    txStatus := Table.set (fun _ => 0) x.txStatus 8 0,
    rxReq := Table.set (fun _ => 0) x.rxReq 8 0 }
  ((s.linkTo lp .swap).sendTrain lp 8).dropDelays lp

/-- A lane of an ACTIVE logical port trips. -/
def State.tripLane (s : State) (lp lane : Nat) : State :=
  if bit (s.rd .lnkSpare (lpPort lp)) 31 || s.spareTaken lp then (s.lnkErr lp 0x4006 lane).linkFail lp 1
  else
    let l := s.recvLogical lp lane
    (s.sendSpare lp true l).enterSwap lp l true

/-- A lane that loses lock in EQ. Lane 8, if it is locked and serves no other half, replaces the first data lane so
lost (R353, R368), and lane 8 itself is given up where no lane needs it. Any other loss leaves EQ without its
condition until the limit of the state ends the attempt (assumption 50). -/
def State.lostInEq (s : State) (lp lane : Nat) : State :=
  let x := s.port lp
  let m : BitVec 9 := BitVec.ofNat 9 (2 ^ lane)
  let spare := !s.spareTaken lp && bits (s.rd .lnkLane (lpPort lp) 8) 31 30 = 3
  let rest := { x with lanes := x.lanes &&& ~~~m, ready := x.ready &&& ~~~m, farReady := x.farReady &&& ~~~m }
  if lane = 8 then (if x.lost.isNone then s.setPort lp rest else s)
  else if x.lost.isNone ∧ bit x.lanes lane ∧ spare then
    (s.takeSpare lp).setPort lp { rest with lanes := rest.lanes ||| 0x100, lost := some lane }
  else s

/-- Whether a receive lane carries a logical lane. -/
def State.carriesLane (s : State) (lp lane : Nat) : Bool :=
  let w := s.rd .lnkSpare (lpPort lp)
  let used := bit w 31 && bits w 30 30 = lpHalf lp
  if lane = 8 then used else !(used && bits w 3 0 = s.recvLogical lp lane)

/-- LANE_TRIP: a receive lane loses phase tracking lock, and comma lock with it, or comma lock alone, or shows lane
errors that no cell carries (stuffing, commas, cells of a reserved type, R361). A lane of an ACTIVE port that carries
a logical lane trips when it has lost either lock, or has shown SPARE_THRESH lane errors within 1 ms (R374). -/
def execLaneTrip (p lane : Nat) (event : LaneEvent) (s : State) : Out :=
  guardUnit (p < 8 && lane < 9) (
    let lost := event.cdrLost || event.lost
    let lp := s.laneOwner p lane
    let thresh := s.fld .lnkTimers 7 0 p
    if !(s.port lp).receives then .next s
    else
      let t := s.laneErr lp lane event.errors
      let t := if event.cdrLost then t.setLane lp lane 31 30 0 else if event.lost then t.setLane lp lane 30 30 0 else t
      let trips := lost || (thresh ≠ 0 && decide (thresh ≤ (t.port lp).laneErrs lane))
      if (s.port lp).state = .active ∧ s.carriesLane lp lane ∧ trips then .next (t.tripLane lp lane)
      else if (s.port lp).state = .eq ∧ lost then .next (t.lostInEq lp lane)
      else .next t)

/-- SPARE_CELL on receive lane `lane`. -/
def execSpareCell (lp lane : Nat) (cell : QWord) (s : State) : Out :=
  guardUnit (lp < 16 && lane < 9) (
    let x := s.port lp
    let l := bits cell 125 122
    if !cellOk cell then .next (s.laneErr lp lane 1)
    else if bit cell 127 then
      if x.state = .active ∧ !bit (s.rd .lnkSpare (lpPort lp)) 31 ∧ !s.spareTaken lp then
        .next ((s.sendSpare lp false l).enterSwap lp l false)
      else if x.state = .swap then .next (s.sendSpare lp false x.swapLane)
      else .next s
    else if x.state = .swap ∧ l = x.swapLane then .next (s.setPort lp { x with swapAcked := true })
    else .next s)

/-- Lane 8 holds phase and comma lock. -/
def State.spareLocked (s : State) (lp : Nat) : Bool := bits (s.rd .lnkLane (lpPort lp) 8) 31 30 = 3

/-- SWAP_DONE: lane 8 is trained in both directions; the lane moves, the lanes are deskewed again, the receiver
asks for a replay, and a replay that the far end has asked for takes place. -/
def execSwapDone (lp : Nat) (s : State) : Out :=
  guardUnit (lp < 16) (
    let x := s.port lp
    let l := x.swapLane
    let t := (s.useSpare lp l).modPort lp fun y => { y with markerDeskew := decide (512 < y.swapSkew) }
    let t := (((t.setDeskew lp).linkTo lp .active).sendAck lp true).modPort lp fun y =>
      { y with nakFor := some y.rxSeq, nakNs := 0, swapNak := none }
    let t := (t.lnkErr lp 0x4005 (s.recvLane lp l * 16 + l)).cause (portPage (lpPort lp) 0) 3
    let t := match x.swapNak with | some q => t.replayFrom lp q | none => t
    whenDue (x.state = .swap && (x.swapAcked || !x.swapDetected) && bit x.ready 8 && bit x.farReady 8 &&
      s.spareLocked lp && decide (x.swapSkew ≤ 65536)) s t)

/-- SWAP_TIMEOUT: SWAP exceeds 2 ms. -/
def execSwapTimeout (lp : Nat) (s : State) : Out :=
  guardUnit (lp < 16) (
    let x := s.port lp
    whenDue (x.state = .swap && decide (2000000 < x.ns)) s
      ((s.lnkErr lp 0x4006 (s.recvLane lp x.swapLane)).linkFail lp 1))

/-- COMMA_LOCK_LOST: the far end is lost and the port returns to DETECT. -/
def execCommaLockLost (lp : Nat) (s : State) : Out :=
  guardUnit (lp < 16)
    (whenDue ((s.port lp).state = .active) s (((s.linkDown lp 3).giveUpAll lp).toDetect lp))

/-! ## Counters (R383, R384) -/

/-- LNK_CNT_READ. -/
def execLnkCntRead (p : Nat) (b : Bool) (via : Via) (s : State) : Out :=
  guardUnit (p < 8) (onRead (portPage p 0) via s (
    .next
      (s.readClear (portPage p 0) via (if b then .lnkCntB else .lnkCntA) 0xFFFFFFFF p)))

/-- LNK_LANE_ERR_READ. -/
def execLnkLaneErrRead (p lane : Nat) (via : Via) (s : State) : Out :=
  guardUnit (p < 8 && lane < 9) (onRead (portPage p 1) via s (
    .next
      (s.readClear (portPage p 1) via .lnkLaneErr 0xFFFFFFFF p lane)))

end Sys2Proof.Machine
end

