-- ==== Sys2Proof/Machine/Network.lean ====
section
/-! DEFINITION. The hub quadrants and the route table (R346 to R351, R377 to R379). -/

namespace Sys2Proof.Machine

/-! ## A remote packet at a quadrant (R349, R351) -/

/-- HOP i of a packet. -/
def Packet.hopAt (p : Packet) (i : Nat) : Nat := (p.hop.extractLsb' (3 * i) 3).toNat

/-- The exit that HOP NEXT and HALF bit NEXT name (R348). -/
def Packet.exit (p : Packet) : Nat := p.hopAt p.next + 8 * b2n (bit p.half p.next)

/-- The return list grown by the port of arrival (R349 item 1). -/
def Packet.arriveBy (p : Packet) (i : Nat) : Packet :=
  let m : BitVec 44 := BitVec.ofNat 44 (15 * 2 ^ (4 * p.rcount))
  { p with ret := (p.ret &&& ~~~m) ||| BitVec.ofNat 44 (i % 16 * 2 ^ (4 * p.rcount)), rcount := p.rcount + 1 }

/-- What a quadrant does with a packet. -/
inductive QuadAct where
  | deliver | misrouted | noPort (lp : Nat) | wait (lp : Nat) | forward (lp : Nat)
  deriving DecidableEq, Repr

/-- Whether an exit can be used now, never, or after a swap or a credit. -/
def State.exitAct (s : State) (arrived : Option Nat) (lp c : Nat) (ans : Bool) : QuadAct :=
  match (s.port lp).state with
  | .active => if s.mayEnter arrived lp c ans then .forward lp else .wait lp
  | .swap => .wait lp
  | _ => .noPort lp

/-- R349 items 2 and 3, with the conditions of R351. -/
def State.quadAct (s : State) (q : QuadItem) : QuadAct :=
  let p := q.pkt
  if 4 ≤ p.hopAt 0 then .misrouted
  else if p.next = p.count then (if p.dstDev = s.devId then .deliver else .misrouted)
  else s.exitAct q.arrived p.exit (1 + p.flits.length) false

/-- The first item that need not wait: behind one that waits, only items of another path move (R345). -/
def State.firstQuad (s : State) : List QuadItem → Nat → List (Option Nat × Nat) → Option (Nat × QuadAct)
  | [], _, _ => none
  | q :: rest, i, waits =>
    match s.quadAct q with
    | .wait lp => s.firstQuad rest (i + 1) (waits ++ [(q.arrived, lp)])
    | .forward lp =>
      if (q.arrived, lp) ∈ waits then s.firstQuad rest (i + 1) waits else some (i, .forward lp)
    | a => some (i, a)

/-- Remote packets and answers that pass through this device (R378). -/
def State.countFwd (s : State) (arrived : Option Nat) : State :=
  if arrived.isSome then s.countReg .nocFwd 0xFFFFFFFF 1 else s

/-- The act of a quadrant on a packet. -/
def State.quadDo (s : State) (q : QuadItem) (a : QuadAct) : State :=
  let p := match q.arrived with | some i => q.pkt.arriveBy i | none => q.pkt
  let s := s.freeRx q.arrived false (1 + q.pkt.flits.length)
  match a with
  | .deliver => { s with net := { s.net with arrivals := s.net.arrivals ++ [p] } }
  | .misrouted => (s.misroute p.dstDev p.srcDev p.next p.count).unreachable p
  | .noPort lp => (s.noPort p.dstDev p.srcDev p.next lp).unreachable p
  | .wait _ => s
  | .forward lp => (s.sendLink lp false ({ p with next := p.next + 1 }.flits)).countFwd q.arrived

/-- QUADRANT_FORWARD: quadrants under test are isolated (R495). -/
def execQuadrantForward (s : State) : Out :=
  match (if s.underTest 162 then none else s.firstQuad s.net.quad 0 []) with
  | none => .next s
  | some (i, a) =>
    match s.net.quad[i]? with
    | none => .next s
    | some q => .next (({ s with net := { s.net with quad := s.net.quad.eraseIdx i } }).quadDo q a)

/-! ## Answers (R350, R351) -/

/-- RET j of an answer. -/
def Answer.retAt (a : Answer) (j : Nat) : Nat := (a.ret.extractLsb' (4 * j) 4).toNat

/-- What a quadrant does with an answer. -/
def State.ansAct (s : State) (q : QuadAnswer) : QuadAct :=
  let a := q.ans
  if a.rcount = 0 then .deliver
  else s.exitAct q.arrived (a.retAt (a.rcount - 1)) 3 true

/-- As `firstQuad`, for answers. -/
def State.firstAns (s : State) : List QuadAnswer → Nat → List (Option Nat × Nat) → Option (Nat × QuadAct)
  | [], _, _ => none
  | q :: rest, i, waits =>
    match s.ansAct q with
    | .wait lp => s.firstAns rest (i + 1) (waits ++ [(q.arrived, lp)])
    | .forward lp =>
      if (q.arrived, lp) ∈ waits then s.firstAns rest (i + 1) waits else some (i, .forward lp)
    | a => some (i, a)

/-- The act of a quadrant on an answer: one that cannot be forwarded is dropped and recorded. -/
def State.ansDo (s : State) (q : QuadAnswer) (act : QuadAct) : State :=
  let a := q.ans
  let s := s.freeRx q.arrived true 3
  match act with
  | .deliver => { s with net := { s.net with answers := s.net.answers ++ [a] } }
  | .misrouted => s.misroute a.dstDev a.srcDev 0 0
  | .noPort lp => s.noPort a.dstDev a.srcDev 0 lp
  | .wait _ => s
  | .forward lp => (s.sendLink lp true ({ a with rcount := a.rcount - 1 }.flits)).countFwd q.arrived

/-- ANSWER_FORWARD. -/
def execAnswerForward (s : State) : Out :=
  match (if s.underTest 162 then none else s.firstAns s.net.quadAns 0 []) with
  | none => .next s
  | some (i, act) =>
    match s.net.quadAns[i]? with
    | none => .next s
    | some q =>
      .next (({ s with net := { s.net with quadAns := s.net.quadAns.eraseIdx i } }).ansDo q act)

/-! ## Registers of the NOC pages (R378, R379) -/

/-- A write of the route table: dropped and recorded while the run state is RUN. -/
def State.writeRoute (s : State) (hi : Bool) (e : Nat) (val : Word) : State :=
  let r : Reg := if hi then .nocRtHi else .nocRtLo
  if s.run.state = .run then s.err nocPage 0x4103 (0x40 + 8 * e + 4 * b2n hi)
  else s.wr r (val &&& r.row.mask) e

/-- NOC_RT_WRITE. -/
def execNocRtWrite (hi : Bool) (entry : Nat) (val : Word) (s : State) : Out :=
  guardUnit (entry < 256) (onWrite (nocPage + 0x1000) s (
    .next (s.writeRoute hi entry val)))

/-- NOC_FWD_READ. -/
def execNocFwdRead (via : Via) (s : State) : Out := onRead nocPage via s (
    .next (s.readClear nocPage via .nocFwd 0xFFFFFFFF))

end Sys2Proof.Machine
end

