-- ==== Sys2Proof/Machine/Power.lean ====
section
/-! DEFINITION. The energy ledger's ticks, the budget's terms, the thermal controller and the idle
step PLL (R247 to R279). -/

namespace Sys2Proof.Machine

/-- LEDGER_TICK: a recomputed B takes effect, B × 40 ns is added, the uncore draw subtracted, and the level stays
within its capacity (R250, R251, R263). DESIGN CHOICE (assumption 89): the draw of the tick, of which R250 gives no
formula, is the operand. -/
def execLedgerTick (uncorePj : Nat) (s : State) : Out :=
  let b := s.led.nextUw
  let s : State := { s with led := { s.led with
    uncore := (uncorePj :: s.led.uncore).take 250
    budgetUw := b
    level := s.led.level + (b * 40 : Nat) - (uncorePj * 1000 : Nat) } }
  .next s.clampLevel

/-! ## The input limit (R260) -/

/-- The points of the efficiency curve: mV and η in 1/10,000. -/
def etaCurve : List (Nat × Nat) :=
  [(4500, 8889), (6000, 9050), (9000, 9200), (10800, 9260), (12000, 9300), (20000, 9150)]

/-- η between two points of the curve, as a numerator over a denominator. -/
def etaBetween (p q : Nat × Nat) (mv : Nat) : Nat × Nat :=
  let d := q.1 - p.1
  (if p.2 ≤ q.2 then p.2 * d + (q.2 - p.2) * (mv - p.1) else p.2 * d - (p.2 - q.2) * (mv - p.1), d)

/-- η(VIN) in 1/10,000 where the curve gives it: a numerator over a denominator. -/
def etaAt (mv : Nat) : List (Nat × Nat) → Option (Nat × Nat)
  | p :: q :: rest => if p.1 ≤ mv ∧ mv ≤ q.1 then some (etaBetween p q mv) else etaAt mv (q :: rest)
  | _ => none

/-- η in 1/10,000: the curve of R260, 0.8889 from 4.10 V to 4.5 V (R525) and 0.9150 from 20.0 V to
21.0 V (R524); none elsewhere. -/
def etaFor (mv : Nat) : Option (Nat × Nat) :=
  if 4100 ≤ mv ∧ mv < 4500 then some (8889, 1)
  else if 20000 < mv ∧ mv ≤ 21000 then some (9150, 1)
  else etaAt mv etaCurve

/-- η at a measured VIN; where the spec gives none it is a free ratio (assumption 1). -/
def State.eta (s : State) (mv : Nat) : (Nat × Nat) × State :=
  match etaFor mv with
  | some e => (e, s)
  | none =>
    let f := s.freeNat
    ((f.1 % 10001, 1), f.2)

/-- VIN_MEASURE: P_IN = min(400 W, VIN × 40 A × η(VIN)); VIN_LOW on entry below 4.5 V. -/
def execVinMeasure (mv : Nat) (s : State) : Out :=
  let e := s.eta mv
  let s := e.2
  let old := s.fld .pwrSupply 15 0
  let p := min 400000000 (4 * mv * e.1.1 / e.1.2)
  let s := s.wr .pwrSupply (BitVec.ofNat 32 (e.1.1 / e.1.2 * 2 ^ 16 + mv % 2 ^ 16))
  let s := { s with led := { s.led with pInUw := p } }
  let s := if mv < 4500 ∧ (old = 0 ∨ 4500 ≤ old) then s.err pwrPage 0xA003 (mv % 2 ^ 16) else s
  .next s.rebudget

/-! ## Junction sensors (R267, R268) -/

/-- The reading of sensor k, none while it is not valid. -/
def State.sensor (s : State) (k : Nat) : Option Int := Table.get (fun _ => none) s.led.sensors k

/-- Tj_max in 0.25 °C and the lowest-numbered sensor that reads it. -/
def State.tjMax (s : State) : Option (Int × Nat) :=
  (List.range 48).foldl (fun m k =>
    match s.sensor k, m with
    | some v, some (b, _) => if b < v then some (v, k) else m
    | some v, none => some (v, k)
    | none, _ => m) none

/-- SENSOR_FAIL for a sensor whose reading fails and that was valid. -/
def State.putSensor (s : State) (k : Nat) (r : Option Int) (first : Bool) : State :=
  let was := (s.sensor k).isSome
  let s := { s with led := { s.led with sensors := Table.set (fun _ => none) s.led.sensors k r } }
  if r.isNone ∧ (was ∨ first) then s.err pwrPage 0xA005 k else s

/-- P_TH in µW: 40 W. -/
def pThLow : Int := 40000000

/-- THERM_OVER entered and left (R268). DEDUCED (assumption 88): OVER and ALERT_N stay between 103 °C and 105 °C, until
the controller resumes. -/
def State.checkOver (s : State) : State :=
  match s.tjMax with
  | none => s
  | some (tj, k) =>
    if !s.led.thermOver && decide (420 ≤ tj) then
      let s := { s with led := { s.led with thermOver := true, pThUw := pThLow } }
      (((s.err pwrPage 0xA002 (((BitVec.ofInt 10 tj).toNat) * 2 ^ 22 + k)).cause pwrPage 2).alert 2 true).rebudget
    else if s.led.thermOver && decide (tj < 412) then
      ({ s with led := { s.led with thermOver := false } }).alert 2 false
    else s

/-- Sensors 0 to 33, those of the tile array, are all invalid (R267). -/
def State.blind (s : State) : Bool := (List.range 34).all fun k => (s.sensor k).isNone

/-- P_TH set, with the budget recomputed. -/
def State.setPTh (s : State) (p : Int) : State :=
  ({ s with led := { s.led with pThUw := p } } : State).rebudget

/-- SENSOR_READ: the 48 readings in 0.25 °C; none where a sensor's internal check fails, or self-test marked it
invalid (R496). With no sensor of the tile array valid, P_TH is held at 40 W from here on. -/
def execSensorRead (readings : List (Option Int)) (s : State) : Out :=
  let first := s.led.sensors.isEmpty
  let s := (List.range 48).foldl (fun s k =>
    s.putSensor k (if k ∈ s.sup.badSensors then none else (readings[k]?).getD none) first) s
  let s := if s.blind then s.setPTh pThLow else s
  .next s.checkOver

/-- SETPOINT in 0.25 °C (R275). -/
def State.setpoint (s : State) : Int :=
  let c := s.fld .pwrThCfg 23 16
  ((if 60 ≤ c ∧ c ≤ 105 then c else 95) : Nat) * 4

/-- P_TH after one period with error e (R261): KP in W/°C, KI in 1/16 W/°C. -/
def State.thermalPi (s : State) (e : Int) : Int :=
  let kp : Int := s.fld .pwrThCfg 15 8
  let ki : Int := s.fld .pwrThCfg 7 0
  let d := e - s.led.ePrev.getD e
  min (max (s.led.pThUw + kp * 250000 * d + ki * 15625 * e) pThLow) 400000000

/-- THERMAL_CONTROL: the PI controller's period; P_TH is held at 40 W while Tj_max is over (R268) or
sensors 0 to 33 are all invalid (R267). DEDUCED (assumption 88): the first reading of R261 is that of the first period,
and `e_prev` follows the reading while P_TH is held. -/
def execThermalControl (s : State) : Out :=
  match s.tjMax with
  | none => .next (s.setPTh pThLow)
  | some (tj, _) =>
    let e := s.setpoint - tj
    let p := if s.led.thermOver || s.blind then pThLow else s.thermalPi e
    let s : State := { s with led := { s.led with ePrev := some e } }
    .next (s.setPTh p)

/-! ## The step PLL (R265) -/

/-- SCLK_IDLE_STOP: halted for PWR_IDLE.SCLK_US, the step PLL stops. -/
def execSclkIdleStop (s : State) : Out :=
  let us := s.fld .pwrIdle 15 0
  whenDue (s.isHalted && decide (us ≠ 0) && decide (us * 1000 ≤ s.run.haltedNs) && s.sup.stepPllOn) s
    { s with sup := { s.sup with stepPllOn := false } }

/-! ## Reads that clear (R274) -/

/-- PWR_PACE_HOLDS_READ. -/
def execPwrPaceHoldsRead (via : Via) (s : State) : Out := onRead pwrPage via s (
    .next (s.readClear pwrPage via .pwrPaceHolds 0xFFFFFFFF))

/-- PWR_PACE_TIME_READ. -/
def execPwrPaceTimeRead (via : Via) (s : State) : Out := onRead pwrPage via s (
    .next (s.readClear pwrPage via .pwrPaceTime 0xFFFFFFFF))

end Sys2Proof.Machine
end

