-- ==== Sys2Proof/Machine/Time.lean ====
section
/-! DEFINITION. The commands of the time keeper: SYNC cells, TSYNC, loss, output, SET, native lines,
VL2 and captures (R388 to R417). -/

namespace Sys2Proof.Machine

/-! ## SYNC cells (R390, R393) -/

/-- The estimate of domain d at a stamp point that lies `ago` (2^-16 ns) back, in 2^-16 ns. -/
def State.estAt (s : State) (d ago : Nat) : Nat := s.est16 d - ago

/-- VALID of a domain in a SYNC cell: TRACK or LOCKED. -/
def Domain.follows (x : Domain) : Bool := x.state = .track || x.state = .locked

/-- The TIME cell of domain d on a logical port, for a stamp point at estimate x1. -/
def State.timeCellOf (s : State) (lp d x1 : Nat) : QWord :=
  let x := s.dom d
  let y := (s.port lp).sync d
  let seqRx := (y.rx.head?.map fun r => r.1).getD 0
  let resid := match y.rx.head? with
    | some r => min 0xFFFFFF ((x1 - r.2.2.2) / 4096)
    | none => 0xFFFFFF
  mkCell (d * 2 ^ 93 + b2n x.follows * 2 ^ 92 + x.hops % 16 * 2 ^ 88 + y.txSeq % 256 * 2 ^ 80 +
    x1 / 2 ^ 16 % 2 ^ 40 * 2 ^ 40 + x1 % 2 ^ 16 / 256 * 2 ^ 32 + seqRx * 2 ^ 24 + resid)

/-- The ANNOUNCE cell of domain d on a logical port. -/
def State.announceCellOf (s : State) (lp d : Nat) : QWord :=
  let x := s.dom d
  let y := (s.port lp).sync d
  let last := y.sent.head?.getD (0, 0)
  mkCell (2 ^ 94 + d * 2 ^ 93 + b2n x.follows * 2 ^ 92 + x.hops % 16 * 2 ^ 88 + x.master.toNat * 2 ^ 80 +
    x.priority.toNat * 2 ^ 72 + last.2 / 2 ^ 56 % 2 ^ 24 * 2 ^ 48 + last.1 * 2 ^ 40)

/-- SYNC_CELL_SEND: an ACTIVE port sends the cell that the frame count names; `stamp` is the time since
the frame's stamp point in 2^-16 ns. -/
def execSyncCellSend (lp frame stamp : Nat) (s : State) : Out :=
  guardUnit (lp < 16) (
    if (s.port lp).state ≠ .active then .next s
    else
      let d := frame % 64 / 32
      let y := (s.port lp).sync d
      match frame % 32 with
      | 0 =>
        let x1 := s.estAt d stamp
        let t := s.sendCell lp 5 (s.timeCellOf lp d x1)
        .next (t.modPort lp fun x => x.setSync d { y with
          txSeq := (y.txSeq + 1) % 256, sent := ((y.txSeq % 256, x1) :: y.sent).take 256 })
      | 16 => .next (s.sendCell lp 5 (s.announceCellOf lp d))
      | _ => .next s)

/-- The receive lane that carries logical lane 0 of a logical port: a SYNC cell is port cell 0. -/
def State.syncLane (s : State) (lp : Nat) : Nat :=
  let w := s.rd .lnkSpare (lpPort lp)
  if bit w 31 && bits w 30 30 = lpHalf lp && bits w 3 0 = 0 then 8 else s.recvLane lp 0

/-- A TX_NS of 40 bits completed with the upper bits that place it nearest to a full value. -/
def nearest40 (full ns : Nat) : Nat :=
  let base := full / 2 ^ 40 * 2 ^ 40 + ns
  if full + 2 ^ 39 < base then base - 2 ^ 40
  else if base + 2 ^ 39 < full then base + 2 ^ 40
  else base

/-- The delay sample of a TIME cell, when it names a cell that this device sent (R391). -/
def State.delaySample (s : State) (lp d : Nat) (c : QWord) (x2 : Nat) : State :=
  let y := (s.port lp).sync d
  if bits c 55 32 = 0xFFFFFF then s
  else
    match y.sent.find? fun e => e.1 = bits c 63 56 with
    | none => s
    | some e => s.addDelay lp (((x2 : Int) - (e.2 : Int) - ((bits c 55 32 * 4096 : Nat) : Int)) / 2)

/-- The update that a TIME cell from the parent gives (R393). -/
def State.timeUpdate (s : State) (lp d : Nat) (c : QWord) (x2 : Nat) : State :=
  match ((s.port lp).sync d).full with
  | none => s
  | some full =>
    if s.domSource d = 1 ∧ (s.dom d).parent = some lp ∧ bit c 124 then
      let t : Nat := nearest40 full (bits c 111 72) * 2 ^ 16 + bits c 71 64 * 256 + s.fld .timPortDelay 30 0 lp
      s.update d ((t : Int) - x2)
    else s

/-- TIME_CELL: `stamp` is the time since the arrival of the frame's stamp point in 2^-16 ns. -/
def execTimeCell (lp : Nat) (cell : QWord) (stamp : Nat) (s : State) : Out :=
  guardUnit (lp < 16) (
    if !cellOk cell then .next (if (s.port lp).up then s.laneErr lp (s.syncLane lp) 1 else s)
    else if (s.port lp).state ≠ .active then .next s
    else if bits cell 127 126 ≠ 0 then .next s
    else
      let d := bits cell 125 125
      let x2 := s.estAt d stamp
      let s := s.modPort lp fun x =>
        let y := x.sync d
        x.setSync d { y with
          rx := ((bits cell 119 112, bits cell 111 72, bits cell 71 64, x2) :: y.rx).take 4 }
      .next ((s.delaySample lp d cell x2).timeUpdate lp d cell x2))

/-- ANNOUNCE_CELL: what the port's neighbour announces, the full value of REF_SEQ, and the choice of the
parent (R392, R393). -/
def execAnnounceCell (lp : Nat) (cell : QWord) (s : State) : Out :=
  guardUnit (lp < 16) (
    if !cellOk cell then .next (if (s.port lp).up then s.laneErr lp (s.syncLane lp) 1 else s)
    else if (s.port lp).state ≠ .active then .next s
    else if bits cell 127 126 ≠ 1 then .next s
    else
      let d := bits cell 125 125
      let s := s.modPort lp fun x =>
        let y := x.sync d
        x.setSync d { y with
          annValid := bit cell 124
          annHops := bits cell 123 120
          annMaster := cell.extractLsb' 112 8
          annPriority := cell.extractLsb' 104 8
          full := match y.rx.find? fun r => r.1 = bits cell 79 72 with
            | some r => some (bits cell 103 80 * 2 ^ 40 + r.2.1)
            | none => y.full }
      .next (s.chooseParent d))

/-! ## TSYNC, loss, output (R394 to R398) -/

/-- TIM_TSYNC.DELAY in 2^-16 ns. -/
def State.tsyncDelay (s : State) : Nat := min 4000 (s.fld .timTsync 31 20) * 32768 / 10

/-- The TSYNC period in 2^-16 ns. -/
def State.tsyncPeriod (s : State) : Nat :=
  let us := s.fld .timTsync 19 0
  (if us = 0 then 1000 else us) * 1000 * 2 ^ 16

/-- An estimate set to TIM_SET at this moment: a step (R396, R399). -/
def State.setEst (s : State) (d : Nat) (n : DomState) : State :=
  (s.setDom d { s.dom d with est := s.timSet - s.interp, sinceNs := 0, setPending := false }).domTo d n

/-- A TSYNC edge at domain d. -/
def State.tsyncDom (s : State) (d : Nat) : State :=
  let x := s.dom d
  if x.setPending then
    s.setEst d (if s.domSource d = 3 then .locked else if x.state = .search ∨ x.state = .lost then .track else x.state)
  else if s.domSource d ≠ 2 ∨ x.state = .search then s
  else
    let p := s.tsyncPeriod
    let v : Int := (s.est16 d : Int) - (s.tsyncDelay : Int)
    let n := (v + p / 2) / p * p
    let e := n - v
    if p < 4 * e.natAbs then s else s.update d e

/-- TSYNC_EDGE. -/
def execTsyncEdge (s : State) : Out :=
  .next (((s.captureAt 10 (s.out16 - s.tsyncDelay)).tsyncDom 0).tsyncDom 1)

/-- LOSS_MS of domain d in ns; 0 acts as 1. -/
def State.lossNs (s : State) (d : Nat) : Nat := max 1 (s.fld .timDomCfg 7 0 d) * 1000000

/-- DOMAIN_LOSS: a MASTER domain has no updates to lose. -/
def execDomainLoss (d : Nat) (s : State) : Out :=
  guardUnit (d < 2)
    (whenDue ((s.dom d).follows && s.domSource d ≠ 3 && s.lossNs d ≤ (s.dom d).sinceNs) s
      (s.domTo d .lost))

/-- SLEW in 2^-40; a SLEW_PPM of 0 acts as 1. -/
def State.slew (s : State) : Int := ppm40 (max 1 (s.fld .timOutCfg 23 16))

/-- OUTPUT_SERVO_TICK (R397). -/
def execOutputServoTick (s : State) : Out :=
  match s.followed with
  | none => .next s
  | some d =>
    let e : Int := (s.est16 d : Int) - s.out16
    let c := clampInt ((e * 2 ^ 24).tdiv 10000 / 2 ^ 7) s.slew
    .next { s with tim := { s.tim with rOut := (s.dom d).rate + c, eOut := e } }

/-- REVERT_MS in ns, 0 for none. -/
def State.revertNs (s : State) : Nat := s.fld .timOutCfg 15 0 * 1000000

/-- OUTPUT_REVERT (R398 item 4). -/
def execOutputRevert (s : State) : Out :=
  let x := s.dom s.pref
  whenDue (s.followed = some (1 - s.pref) && s.revertNs ≠ 0 && x.state = .locked &&
    decide (s.revertNs ≤ x.lockedNs)) s (s.switchOut (followState s.pref) 2)

/-- The time base passed from REFCLK100 to AON: the base ticks of REFCLK100 since the last AON tick go back into what
is interpolated, so that no clock takes a step (R388). -/
def State.toAonBase (s : State) : State :=
  let back : BitVec 104 := BitVec.ofNat 104 (s.tim.sub / 16 * (10 * 2 ^ 40))
  { s with tim := { s.tim with
    ref := false
    refLost := true
    out := s.tim.out - back
    domA := { s.tim.domA with est := s.tim.domA.est - back }
    domB := { s.tim.domB with est := s.tim.domB.est - back } } }

/-- Domain d goes LOST with REFCLK100, which is recorded where it was not LOST before. -/
def State.loseDom (s : State) (d : Nat) : State :=
  let x := s.dom d
  if x.state = .lost then s
  else
    ((s.setDom d { x with state := .lost, good := 0, bad := 0, lockedNs := 0 }).cause timPage 2).timErr 0 0x5002 d

/-- REFCLK_LOST (R388): both domains go LOST, the output enters HOLDOVER, and the native lines stop: no fire that waits
is driven. -/
def execRefclkLost (s : State) : Out :=
  if !s.tim.ref then .next s
  else
    let s := (s.toAonBase).timErr 0 0x5001 0
    let s := ({ s with tim := { s.tim with fires := [] } }.loseDom 0).loseDom 1
    if s.followed.isSome then .next (s.switchOut .holdover 0)
    else .next { s with tim := { s.tim with outState := .holdover } }

/-! ## TIM_CMD and TIM_DOM_CFG (R389, R399) -/

/-- SET of TIM_CMD. -/
def State.timSetCmd (s : State) (val : Word) : State :=
  match bits val 3 2 with
  | 0 =>
    if s.tim.outState = .free ∧ s.run.state ≠ .run then { s with tim := { s.tim with out := s.timSet - s.interp } }
    else s.timBusy 0 0x68
  | 3 => s.timBusy 0 0x68
  | t =>
    let d := t - 1
    if s.domSource d = 2 ∨ (s.domSource d = 3 ∧ bit val 1) then
      s.setDom d { s.dom d with setPending := true }
    else if s.domSource d = 3 then s.setEst d .locked
    else s.timBusy 0 0x68

/-- REACQ of TIM_CMD. -/
def State.timReacq (s : State) : State :=
  if s.run.state = .run then s.timBusy 0 0x68
  else ({ s with tim := { s.tim with outState := .free, valid := false, rOut := 0 } }).outputCheck 0

/-- TIM_CMD_SET: a write of TIM_CMD with SET 1. -/
def execTimCmdSet (val : Word) (s : State) : Out := onWrite timPage s (
    whenDue (bit val 0) s (s.timSetCmd val))

/-- TIM_CMD_REACQ: a write of TIM_CMD with REACQ 1. -/
def execTimCmdReacq (val : Word) (s : State) : Out := onWrite timPage s (
    whenDue (bit val 4) s s.timReacq)

/-- A write of TIM_DOM_CFG: a change of SOURCE sets SEARCH, or OFF for SOURCE 0. A device that had no REFCLK100 at
its cold reset takes no SOURCE but OFF (R33, R388). DESIGN CHOICE (assumption 96): HOPS, MASTER and PRIORITY of a
domain whose SOURCE is OFF or TSYNC keep the values that they had. -/
def State.writeDomCfg (s : State) (d : Nat) (val : Word) : State :=
  let src := bits val 31 30
  if src ≠ 0 ∧ s.refAbsent then s.timBusy 0 (0x80 + 16 * d)
  else
    let old := s.domSource d
    let s := s.wr .timDomCfg (val &&& (Reg.row .timDomCfg).mask) d
    let own (x : Domain) : Domain :=
      if src = 3 then { x with hops := 0, master := s.devId, priority := val.extractLsb' 8 8 } else x
    if old = src then s.setDom d (own (s.dom d))
    else
      let s := s.setDom d (own { s.dom d with parent := none, setPending := false, sinceNs := 0 })
      (s.domTo d (if src = 0 then .off else .search)).chooseParent d

/-- TIM_DOM_CFG_WRITE. -/
def execTimDomCfgWrite (d : Nat) (val : Word) (s : State) : Out :=
  guardUnit (d < 2) (onWrite timPage s (
    .next (s.writeDomCfg d val)))

/-! ## Reads with side effects (R413, R415, R417) -/

/-- TIM_NOW_READ. -/
def execTimNowRead (via : Via) (s : State) : Out := onRead timPage via s (
    let v : Word := BitVec.ofNat 32 s.outNs
    let t := if s.peeks timPage via then s
      else (s.wr .timNowHi (BitVec.ofNat 32 (s.outNs / 2 ^ 32))).wr .timNowFr (BitVec.ofNat 32 (s.out16 % 2 ^ 16))
    .next (t.answer [v]))

/-- TIM_PACE_OVERRUN_READ. -/
def execTimPaceOverrunRead (via : Via) (s : State) : Out := onRead timPage via s (
    .next (s.readClear timPage via .timPaceOverrun 0xFFFFFFFF))

/-- TIM_CAP_POP. -/
def execTimCapPop (via : Via) (s : State) : Out := onRead (timPage + 0x2000) via s (
    match s.tim.captures with
    | [] => .next (s.answer [0])
    | c :: rest =>
      let t := (s.wr .timCapLo (lo32 c.ns)).wr .timCapHi (hi32 c.ns)
      let t := if s.peeks (timPage + 0x2000) via then t else { t with tim := { t.tim with captures := rest } }
      .next (t.answer [BitVec.ofNat 32 (2 ^ 31 + c.source % 16 * 2 ^ 16 + c.frac.toNat)]))

/-- TIM_CAP_STAT as a read gives it. -/
def State.capStat (s : State) : Word := setBits (s.rd .timCapStat) 8 0 s.tim.captures.length

/-- TIM_CAP_STAT_READ. -/
def execTimCapStatRead (via : Via) (s : State) : Out := onRead (timPage + 0x2000) via s (
    let v := s.capStat
    let s := if s.peeks (timPage + 0x2000) via then s else s.setFld .timCapStat 31 16 0
    .next (s.answer [v]))

/-! ## Native lines (R403 to R406) -/

/-- TRG_FIRE: a fire request of TIM_TRG_CMD.FIRE. -/
def execTrgFire (lines : BitVec 8) (s : State) : Out := onWrite (timPage + 0x1000) s (.next (s.fireLines lines))

/-- TRG_SAMPLE: native line `line` is sampled high in slot `slot`, at 10k + D_n + 5 ns. -/
def execTrgSample (line slot : Nat) (s : State) : Out :=
  guardUnit (line < 8)
    (whenDue (s.trgOn && s.native line && s.trgSynced &&
        decide (ns5 (10 * slot + 5) + steps5 (s.trgDelay line) ≤ s.out5) &&
        !decide ((line, slot) ∈ s.tim.events)) s
      (({ s with tim := { s.tim with events := s.tim.events ++ [(line, slot)] } }).cause
        (timPage + 0x1000) 1))

/-- TRG_CAL: TIM_TRG_CMD.CAL for a line; work, which a page with EN 0 does not take. -/
def execTrgCal (line : Nat) (s : State) : Out :=
  guardUnit (line < 8) (onWrite (timPage + 0x1000) s (
      if !s.trgOn then .next s
      else if bit (s.rd .timTrgCfg) (16 + line) then .next (s.timBusy 1 0x48)
      else .next { s with tim := { s.tim with cal := some line } }))

/-- TRG_CAL_DONE: the round trip in ps, none when no edge came within 1 µs. -/
def execTrgCalDone (roundTrip : Option Nat) (s : State) : Out :=
  match s.tim.cal with
  | none => .next s
  | some n =>
    let s := { s with tim := { s.tim with cal := none } }
    let twice := (roundTrip.getD 0) - 50 * s.trgHub
    if roundTrip.isNone || decide (400000 < twice) then .next (s.timErr 1 0x5007 n)
    else .next (s.wr .timTrgDelay (BitVec.ofNat 32 (2 ^ 31 + (twice + 50) / 100)) n)

/-! ## VL2 (R408, R409) -/

/-- The device takes part in the protocol: TIM_TRG_CFG.VL2, while the page takes work. -/
def State.vl2On (s : State) : Bool := bit (s.rd .timTrgCfg) 31 && s.trgOn

/-- The state of the protocol. -/
def State.setVl2 (s : State) (v : Vl2State) : State := { s with tim := { s.tim with vl2 := v } }

/-- Widths of an arm pulse, ns. -/
def armWidth (w : Nat) : Bool := decide (500 ≤ w) && decide (w ≤ 2000)

/-- TIM_VL2_GLITCH for a pulse that is neither an arm nor a fire. -/
def State.vl2Glitch (s : State) (w : Nat) : State :=
  if armWidth w || decide (3000 ≤ w) then s else s.timErr 1 0x500A (min 0xFFFF (w / 10))

/-- The stamp of a pulse whose rising edge lies w ns back, less D_7, in 2^-16 ns. -/
def State.vl2Stamp (s : State) (w : Nat) : Nat :=
  (s.out5 - ns5 w - steps5 (s.trgDelay 7)) / 5

/-- VL2_ARM_PULSE: a pulse of a width has been seen on TRG7. -/
def execVl2ArmPulse (widthNs : Nat) (s : State) : Out :=
  if !s.vl2On then .next s
  else if armWidth widthNs then .next ((s.captureAt 8 (s.vl2Stamp widthNs)).setVl2 .armed)
  else .next (s.vl2Glitch widthNs)

/-- VL2_LINE_FALL: the line falls after a level of a width. -/
def execVl2LineFall (widthNs : Nat) (s : State) : Out :=
  if !s.vl2On then .next s
  else if 3000 ≤ widthNs then
    let s := if s.tim.vl2 = .fired then s.setVl2 .idle else s
    .next { s with tim := { s.tim with vl2FallNs := some 0 } }
  else .next (s.vl2Glitch widthNs)

/-- The RW fields of TIM_VL2. -/
def State.vl2Fields (s : State) (val : Word) : State := s.wr .timVl2 (val &&& 0xC0000000)

/-- ARM of TIM_VL2: an arm pulse, when MASTER is 1. -/
def State.vl2ArmCmd (s : State) : State :=
  if s.vl2On ∧ bit (s.rd .timVl2) 31 then
    { s with tim := { s.tim with vl2Drive := s.tim.vl2Drive ++ [1] } }
  else s

/-- VL2_ARM: a write of TIM_VL2 with ARM 1. -/
def execVl2Arm (val : Word) (s : State) : Out := onWrite (timPage + 0x1000) s (
    whenDue (bit val 0) s ((s.vl2Fields val).vl2ArmCmd))

/-- VL2_FIRE: a write of TIM_VL2 with FIRE 1. -/
def execVl2Fire (val : Word) (s : State) : Out := onWrite (timPage + 0x1000) s (
    whenDue (bit val 2) s ((s.vl2Fields val).vl2FireNow))

/-- VL2_DISARM: a write of TIM_VL2 with DISARM 1. -/
def execVl2Disarm (val : Word) (s : State) : Out := onWrite (timPage + 0x1000) s (
    whenDue (bit val 1) s ((s.vl2Fields val).setVl2 .idle))

/-- VL2_REARM: 10 µs after a fire fell, a master with REARM drives an arm pulse. -/
def execVl2Rearm (s : State) : Out :=
  match s.tim.vl2FallNs with
  | none => .next s
  | some n =>
    if n < 10000 then .next s
    else
      let arms := s.vl2On ∧ bit (s.rd .timVl2) 31 ∧ bit (s.rd .timVl2) 30
      .next { s with tim := { s.tim with
        vl2FallNs := none
        vl2Drive := if arms then s.tim.vl2Drive ++ [1] else s.tim.vl2Drive } }

end Sys2Proof.Machine
end

