-- ==== Sys2Proof/Machine/Trigger.lean ====
section
/-! DEFINITION. The actions of trigger events and of VL2 fires (R405, R407 to R409, R429). -/

namespace Sys2Proof.Machine

/-- The HALT and START actions of TIM_TRG_ACT[n]. -/
def State.trgRun (s : State) (n : Nat) : State :=
  let a := s.rd .timTrgAct n
  let s := if bit a 2 then s.haltRequest 6 else s
  if bit a 3 then s.runCommand 0 else s

/-- The actions of an event of line n in slot k (R407): the capture and the acquisition event carry the
slot's time. -/
def State.trgAct (s : State) (n k : Nat) : State :=
  let a := s.rd .timTrgAct n
  let s := if bit a 0 then s.captureIn ((10 * k + s.trgLat) * 8 / 5) n (10 * k) 0 else s
  let s := if bit a 1 then s.acqExt n (BitVec.ofNat 64 (10 * k)) else s
  s.trgRun n

/-- TRG_ACT: at 10k + LAT_NS the device acts on an event. -/
def execTrgAct (line slot : Nat) (s : State) : Out :=
  guardUnit (line < 8)
    (whenDue (decide ((line, slot) ∈ s.tim.events) && decide (ns5 (10 * slot + s.trgLat) ≤ s.out5)) s
      (({ s with tim := { s.tim with events := s.tim.events.erase (line, slot) } } : State).trgAct
        line slot))

/-- A VL2 fire (R408, R409, R429): captured as source 9, external input 7; a device that is ARMED takes
the actions of TIM_TRG_ACT[7] and becomes FIRED. -/
def State.vl2Seen (s : State) (w : Nat) : State :=
  let t := s.vl2Stamp w
  let s := (s.captureAt 9 t).cause (timPage + 0x1000) 1
  let s := s.acqExt 7 (BitVec.ofNat 64 (t / 2 ^ 16))
  if s.tim.vl2 = .armed then (s.setVl2 .fired).trgRun 7 else s

/-- VL2_FIRE_PULSE: a high level on TRG7 has lasted `widthNs`. -/
def execVl2FirePulse (widthNs : Nat) (s : State) : Out :=
  if !s.vl2On then .next s
  else if 3000 ≤ widthNs then .next (s.vl2Seen widthNs)
  else .next (s.vl2Glitch widthNs)

end Sys2Proof.Machine
end

