-- ==== Sys2Proof/Machine/Selftest.lean ====
section
/-! DEFINITION. Embedded flash: boot settings, wear and the repair map; self-test slices (R494 to R504). -/

namespace Sys2Proof.Machine

/-! ## Boot settings (R498, R504) -/

/-- Copy A is the current one. -/
def Flash.bootIsA (f : Flash) : Bool := f.bootA.good && !(f.bootB.good && f.bootNewerB)

/-- FLS_BOOT_CFG and FLS_BOOT_OFS loaded from the current copy. -/
def State.loadBoot (s : State) : State :=
  let b := s.flash.boot
  (s.wr .flsBootCfg (flagAt b.autoload 31 ||| flagAt b.quad 30 ||| BitVec.ofNat 32 b.sckField)).wr .flsBootOfs
    (b.offset &&& 0xFFFFF000)

/-- The record that a COMMIT stores: the staged fields, the next SEQ and the CRC over them (R498). -/
def State.nextBoot (s : State) : BootCopy :=
  let c : BootCopy :=
    { flags := BitVec.ofNat 8 (b2n (bit (s.rd .flsBootCfg) 31) + 2 * b2n (bit (s.rd .flsBootCfg) 30))
      sck := BitVec.ofNat 8 (s.fld .flsBootCfg 1 0)
      rsvd := 0
      offset := s.rd .flsBootOfs
      seq := s.flash.boot.seq + 1
      crc := 0 }
  { c with crc := crcOf crc32Poly c.body }

/-- A COMMIT begun: the copy that is not current is erased and written (R497). -/
def State.commitBoot (s : State) : State :=
  if s.flash.readonly then s.err flsPage 0x8202 0
  else if !s.flash.writing.isEmpty then s.err flsPage 0x8204 0x068
  else
    let toA := !s.flash.bootIsA
    let c := s.nextBoot
    let f := s.flash
    let s : State := { s with flash :=
      if toA then { f with bootA := BootCopy.erased }
      else { f with bootB := BootCopy.erased } }
    s.askWrite (.boot c toA)

/-- FLS_BOOT_COMMIT. -/
def execFlsBootCommit (val : Word) (s : State) : Out := onWrite flsPage s (
    whenDue (bit val 0 && s.pageEn flsPage) s s.commitBoot)

/-- FLS_BOOT_RELOAD. -/
def execFlsBootReload (val : Word) (s : State) : Out := onWrite flsPage s (
    whenDue (bit val 1) s s.loadBoot)

/-! ## The image taken out of service (R191 items 1 to 4) -/

/-- R191 items 1 to 4: INSERVICE and DONE off, the drivers off, the set-reset asserted, proofs and input
log discarded. The loader is EMPTY, or stays FAILED with no image kept. -/
def State.takeOut (s : State) : State :=
  let s := s.setLdr { s.ldr with
    inService := false, image := none, done := false, setReset := true, kept := false }
  let s := (s.driversOff).discardProofs.dropTileItems
  let s := s.unmap.vdioAlert
  if s.ldr.state = .service then s.ldrTo .empty else s

/-! ## Slices (R494 to R496) -/

/-- The typical duration of slice k in µs. -/
def sliceUs (k : Nat) : Nat :=
  if k < 136 then 46000 else if k < 144 then 38000 else if k < 162 then 12000
  else if k < 166 then 44000 else if k = 166 then 3000 else if k = 167 then 4000
  else if k = 168 then 2000 else if k = 169 then 6000 else 5000

/-- Slices that enable a scan chain: those with a logic scan, and the logic blocks of 162 to 165. -/
def sliceScans (k : Nat) : Bool := decide (k < 136) || (decide (144 ≤ k) && decide (k < 166))

/-- Registers of pages [lo, hi) back to reset. -/
def State.clearRegs (s : State) (lo hi : Nat) : State := { s with regs := Table.clear s.regs lo hi }

/-- The block of slice k in its cold reset state (R495). A tile that a load under way has mapped stays mapped, and a
larder bank leaves the stream of the acquisition (assumption 47). The key store of the encryption engine was cleared
before the slice, ENC_STAT.CLEARED goes on saying so (R318), and ENC_FAIL stays until a cold reset (R338). The
regulators, the lane references and the DDR PHY references hold no state of the model's. -/
def State.reinitBlock (s : State) (k : Nat) : State :=
  if k < 136 then
    let x := s.tile k
    (s.setTile k { Tile.reset with
      power := x.power, retired := x.retired, vtile := x.vtile, xbatch := x.xbatch }).clearRegs
      (tilePage k 0) (tilePage k 16)
  else if k < 144 then
    ((List.range' (8 * (k - 136)) 8).foldl (fun s b =>
      let w := s.rd .memLown b
      let s : State := { s with
        mem := { s.mem with
          larder := Memory.zero s.mem.larder (524288 * b) 524288
          larderIdleNs := Table.set (fun _ => 0) s.mem.larderIdleNs b 0 }
        svc := { s.svc with cache := s.svc.cache.filter fun c => c.bank ≠ b } }
      let v := Reg.init .memLown b 0
      (s.wr .memLown (setBit (setBit v 30 (ownFailed w)) 29 (bits v 11 8 = 0)) b).loseBank b) s).setBanks
  else if k < 162 then
    ({ s with svc := { s.svc with
        engines := s.svc.engines.filter fun e => e.1 ≠ k - 144
        engType := s.svc.engType.filter fun e => e.1 ≠ k - 144 } } : State).clearRegs
      (engPage (k - 144)) (engPage (k - 143))
  else if k = 162 then
    ({ s with net := Network.reset } : State).clearRegs nocPage (nocPage + 0x10000)
  else if k = 163 then
    (({ s with svc := { s.svc with
        store := [], ready := [], engines := [], cplSup := [], cplDbg := [], parkOrder := [], tokens := []
        waitItems := [], flushDue := false } } :
      State).clearRegs svcPage (svcPage + 0x1000)).setBanks
  else if k = 164 then
    let keep := [s.rd .encStat, s.rd .encFailLo, s.rd .encFailHi, s.rd .encFailInfo]
    let s := s.clearRegs encPage (encPage + 0x8000)
    ((((s.wr .encStat (keep.getD 0 0)).wr .encFailLo (keep.getD 1 0)).wr .encFailHi (keep.getD 2 0)).wr
      .encFailInfo (keep.getD 3 0)).setCap
  else if k = 165 then
    (({ s with host := { s.host with porter := [], moving := [] } } : State).clearRegs (porterPage 0) (porterPage 8))
  else if k = 167 then { s with sup := { s.sup with stepPllOn := false } }
  else if k = 168 then { s with led := { s.led with sensors := [] } }
  else s

/-- Slice k begun: before it enables a scan chain, the key store is cleared, with ENC_KEY_DATA (R318, R495); the model
cache and the stream of the acquisition leave the larder banks that it tests (assumption 47). -/
def State.beginSlice (s : State) (k : Nat) : State :=
  let s := if sliceScans k then (s.clearKeys true).zeroKeyData else s
  let s := if 136 ≤ k ∧ k < 144 then (List.range' (8 * (k - 136)) 8).foldl (fun s b =>
    (s.drainBank true b).loseBank b) s
    else s
  { s with bst := { s.bst with slice := some k, ns := 0 } }

/-- BST_STAT.STATE. -/
def State.bstState (s : State) : Nat := s.fld .bstStat 31 30

/-- A START: slices from NEXT, or one slice. -/
def State.bstStart (s : State) (one : Option Nat) (budget : Option Nat) (byShutdown : Bool) : State :=
  let k := one.getD s.sup.nextSlice
  let s := s.wr .bstStat 0
  let fits := match budget with
    | none => true
    | some b => decide (sliceUs k ≤ b)
  let s : State := { s with bst := ⟨none, one.isSome, budget, byShutdown, 0, 0⟩ }
  if fits then (s.setFld .bstStat 31 30 1).beginSlice k
  else (s.setFld .bstStat 31 30 2).cause bstPage 1

/-- BST_CFG.BUDGET_MS in µs; 0 is no budget. -/
def State.bstBudget (s : State) : Option Nat :=
  let ms := s.fld .bstCfg 15 0
  if ms = 0 then none else some (ms * 1000)

/-- BST_START: accepted while the run state is IDLE or HALTED and no slice runs. -/
def execBstStart (val : Word) (s : State) : Out := onWrite bstPage s (
    let k := bits val 7 0
    whenDue (bit val 8 && s.pageEn bstPage && s.isHalted && s.bst.slice.isNone && (k = 0xFF || decide (k ≤ 170))) s (
      let s := if s.ldr.inService then s.takeOut else s
      s.bstStart (if k = 0xFF then none else some k) s.bstBudget false))

/-- The report mode (R496); a shutdown runs slices in service mode (R516). -/
def State.bstReport (s : State) : Bool := bit (s.rd .bstCfg) 31 && !s.bst.byShutdown

/-- A slice's record in flash, unless it is read-only (R496, R499). -/
def State.putRecord4 (s : State) (k result coverage : Nat) (us failures : Word) : State :=
  if s.flash.readonly then s
  else { s with flash := { s.flash with
    records := s.flash.records ++
      [(k, result, coverage, us, failures, BitVec.ofNat 32 s.flash.coldStarts)] } }

/-- A mark that a later start or training reads: in the AON domain, and in flash unless it is read-only (R496,
R499). -/
def State.markSensor (s : State) (k : Nat) : State :=
  let s : State := { s with sup := { s.sup with badSensors := (s.sup.badSensors ++ [k]).eraseDups } }
  if s.flash.readonly then s
  else { s with flash := { s.flash with badSensors := s.sup.badSensors } }
def State.markLane (s : State) (n : Nat) : State :=
  let s : State := { s with sup := { s.sup with failLanes := (s.sup.failLanes ++ [n]).eraseDups } }
  if s.flash.readonly then s
  else { s with flash := { s.flash with failLanes := s.sup.failLanes } }

/-- What a slice of service mode adds: columns, invalid sensors, failing lanes, BST_ANALOG for each other element, or
BST_FAIL (R496). -/
def State.sliceFindings (s : State) (k : Nat) (r : SliceResult) : State :=
  let s := r.columns.foldl State.addColumn s
  if r.result ≠ 2 then s
  else if k = 168 then r.elements.foldl (fun s e => (s.markSensor e).putSensor e none true) s
  else if k = 169 then r.elements.foldl State.markLane s
  else if 166 ≤ k then r.elements.foldl (fun s e => s.err bstPage 0x8102 (e % 256 * 256 + k)) s
  else s.err bstPage 0x8101 (min 255 r.failures.toNat * 256 + k)

/-- BST_LAST, BST_LAST_US and RUN after slice k. -/
def State.sliceRan (s : State) (k coverage fails : Nat) (us : Word) : State :=
  let s := (s.wr .bstLast (BitVec.ofNat 32
    (k * 2 ^ 24 + coverage % 1024 * 2 ^ 14 + min 63 fails * 2 ^ 8))).wr .bstLastUs us
  let n := s.bst.ran + 1
  let s : State := { s with bst := { s.bst with ran := n, slice := none } }
  s.setFld .bstStat 23 16 n

/-- After slice k: the next one, or the end of the START. A budget is spent by what a slice took. NEXT goes to flash
unless it is read-only (R494, R499). -/
def State.sliceNext (s : State) (k us : Nat) : State :=
  let done := s.bst.single || decide (171 ≤ s.bst.ran)
  let next := (k + 1) % 171
  let s : State :=
    if s.bst.single then s
    else
      let s : State := { s with sup := { s.sup with nextSlice := next } }
      if s.flash.readonly then s else { s with flash := { s.flash with nextSlice := next } }
  let left := s.bst.budgetUs.map fun b => b - us
  let s : State := { s with bst := { s.bst with budgetUs := left } }
  let fits := match left with
    | none => true
    | some b => decide (sliceUs next ≤ b)
  if !done && fits then s.beginSlice next
  else (s.setFld .bstStat 31 30 2).cause bstPage 1

/-- A slice that ends: its record, its findings, its block re-initialised, and the next slice. -/
def State.sliceDone (s : State) (k : Nat) (r : SliceResult) : State :=
  let s := s.putRecord4 k r.result r.coverage r.durationUs r.failures
  let s := if s.bstReport then s else s.sliceFindings k r
  ((s.reinitBlock k).sliceRan k r.coverage r.failures.toNat r.durationUs).sliceNext k r.durationUs.toNat

/-- A slice stopped at its 50 ms limit: not covered (R494). -/
def State.sliceOverrun (s : State) (k : Nat) : State :=
  let us : Word := 50000
  let s := (s.putRecord4 k 3 0 us 0).err bstPage 0x8103 k
  ((s.reinitBlock k).sliceRan k 0 0 us).sliceNext k 50000

/-- A slice that a reset stops: recorded as not run, NEXT unchanged (R515). -/
def State.sliceAborted (s : State) : State :=
  match s.bst.slice with
  | none => s
  | some k =>
    let s := (s.putRecord4 k 4 0 0 0).reinitBlock k
    { s with bst := Selftest.reset }

end Sys2Proof.Machine
end

