-- ==== Sys2Proof/Machine/Pages.lean ====
section
/-! DEFINITION. The common page header: enabling, disabling and draining a block, page resets, interrupt
and error registers, and the MSI-X masks (R44, R47 to R49, R60, R493, R508). -/

namespace Sys2Proof.Machine

/-! ## Which pages there are (R44) -/

/-- The pages of the address map that carry the common header, by BAR0 address; a virtual tile's pages are
those of its physical tile. -/
def pageExists (p : Nat) : Bool :=
  p % 0x1000 = 0 &&
    (decide (p ≤ 0x10000) || (decide (0x11000 ≤ p) && decide (p < 0x23000)) ||
      (decide (0x40000 ≤ p) && decide (p < 0xA9000)) ||
      (decide (0x1000000 ≤ p) && decide (p < tilePage numTiles 0)))

/-- GLB pages: Global, ID and fuses, Clocks, Reset, Interrupt routing, Management chain, Spare map. -/
def glbPages : List Nat := [0x0, 0x1000, 0x3000, 0x4000, 0x5000, 0xD000, 0xF000]

/-! ## Disabling a block (R48, R493) -/

/-- The limit of a block's drain in ns; none for a page that holds no work. -/
def drainLimit (p : Nat) : Option Nat :=
  if isPorterPage p then some 10000000
  else if p = svcPage || isEngPage p || isLinkPage p then some 1000000
  else if isChanPage p || p = criPage then some 100000
  else if p = acqPage then some 10000000
  else none

/-- An item that an engine runs. -/
def SvcItem.onEngine (i : SvcItem) : Bool :=
  match i.stage with
  | .running _ => true
  | _ => false

/-- Work in flight that a drain waits for. -/
def State.workLeft (s : State) (p : Nat) : Bool :=
  if isPorterPage p then !(s.inFlight (porterOf p)).isEmpty
  else if p = svcPage then s.svc.store.any SvcItem.onEngine
  else if isEngPage p then (s.running (engOf p)).isSome
  else if isLinkPage p then
    p % 0x2000 = 0 && ((s.port (linkOf p)).state = .drain || (s.port (linkOf p + 8)).state = .drain)
  else if p = acqPage then s.acq.state = .drain
  else if p = criPage then decide (0 < s.criersPending)
  else false

/-- What a clear of EN starts at once: a link port goes down (a FAILED one stays FAILED until MODE 0 is
written, R363), a load ends, acquisition stops. -/
def State.stopBlock (s : State) (p : Nat) : State :=
  if isLinkPage p && p % 0x2000 = 0 then
    [linkOf p, linkOf p + 8].foldl (fun s lp =>
      if (s.port lp).state = .failed then s else s.linkTakeDown lp) s
  else if p = ldrPage then (if s.loading then s.ldrFail 0x700E (ldInfo 2) else s)
  else if p = acqPage then s.acqStop s.isHalted
  else s

/-- EN of a page cleared: no new work, and the drain of the work in flight begins. -/
def State.disablePage (s : State) (p : Nat) : State :=
  let s := (s.setReg (p + 4) (setBit (s.reg (p + 4)) 0 false)).stopBlock p
  if s.workLeft p && !(s.host.drains.any fun d => d.1 = p) then
    { s with host := { s.host with drains := s.host.drains ++ [(p, 0)] } }
  else s

/-- PAGE_DISABLE. -/
def execPageDisable (page : Nat) (s : State) : Out :=
  guardUnit (pageExists page) (onHeader page 4 s (
    whenDue (s.pageEn page) s (s.disablePage page)))

/-- EN of a page set: its drain, if any, is over. A link port in DRAIN stays in it, within its limit, until it is OFF
(R375). -/
def State.enablePage (s : State) (p : Nat) : State :=
  let s := s.setReg (p + 4) (setBit (s.reg (p + 4)) 0 true)
  if isLinkPage p && s.workLeft p then s
  else { s with host := { s.host with drains := s.host.drains.filter fun d => d.1 ≠ p } }

/-- PAGE_ENABLE. -/
def execPageEnable (page : Nat) (s : State) : Out :=
  guardUnit (pageExists page) (onHeader page 4 s (.next (s.enablePage page)))

/-- A fault of engine n (R485). -/
def State.engineFault (s : State) (n : Nat) : State :=
  let type := (Table.get (fun _ => (0 : Byte)) s.svc.engType n).toNat
  let r := (s.err (engPage n) 0x2009 type).replaceEngine n
  r.2.takeFault 0x2009 r.1

/-- An item that runs at the dispatcher's drain limit: a host item ends with STATUS 0x01, a tile's entry
is reported at the next batch end, an item of the device itself ends. -/
def State.drainItem (s : State) (i : SvcItem) : State :=
  if i.fromHost then s.discardItem i
  else if i.fromTile then
    let s : State := { s with svc := { s.svc with
      engines := s.svc.engines.filter fun e => e.2 ≠ some i.id } }
    s.putItem { i with stage := .orphaned }
  else
    let s := s.dropRunning fun j => j.id = i.id
    if i.source = .proofs && s.prf.state = .saving then s.abandonSave 3 else s

/-- Crier items discarded and counted. -/
def State.dropCriers (s : State) : State :=
  let n := s.criersPending
  let s := s.dropRunning fun i => i.source = .crier
  let s : State := { s with run := { s.run with criers := [] } }
  s.setFld .criStat 31 16 (satAdd 0xFFFF (s.fld .criStat 31 16) n)

/-- What remains at a block's drain limit, discarded and reported. -/
def State.drainExpire (s : State) (p : Nat) : State :=
  if isPorterPage p then s.discardPorter (porterOf p)
  else if p = svcPage then (s.svc.store.filter SvcItem.onEngine).foldl State.drainItem s
  else if isEngPage p then s.engineFault (engOf p)
  else if isLinkPage p then
    [linkOf p, linkOf p + 8].foldl (fun s lp =>
      if (s.port lp).state = .drain then (s.giveUpAll lp).linkOff lp else s) s
  else if p = acqPage then s.acqIdle
  else if p = criPage then s.dropCriers
  else s

/-- The drain of page p has reached its limit with work left. -/
def State.drainDue (s : State) (p : Nat) : Bool :=
  s.workLeft p && s.host.drains.any fun d => d.1 = p && decide ((drainLimit p).getD 0 ≤ d.2)

/-- DRAIN_LIMIT_EXPIRY. -/
def execDrainLimitExpiry (page : Nat) (s : State) : Out :=
  guardUnit (pageExists page) (
    let t : State := { s with host := { s.host with drains := s.host.drains.filter fun d => d.1 ≠ page } }
    whenDue (s.drainDue page) s (t.drainExpire page))

/-! ## Page resets (R48, R508) -/

/-- Registers that keep their values at a page reset, by BAR0 address (R205, R318, R387, R507, R508). ENC_FAIL is not
one of them (R318); of ENC_STAT, `resetBlockState` clears CLEARED (assumption 75). -/
def survivesReset (a : Nat) : Bool :=
  let p := a / 0x1000 * 0x1000
  let o := a % 0x1000
  if p = timPage then true
  else if p ∈ glbPages || p = flsPage then decide (0x40 ≤ o)
  else if p = ldrPage then decide (o ∈ [0x18, 0x1C, 0x48, 0x70, 0x74, 0x78, 0x7C])
  else if p = encPage then decide (o ∈ [0x40, 0x44]) || (decide (0x80 ≤ o) && decide (o < 0xC0))
  else if p = encPage + 0x1000 then decide (0x100 ≤ o)
  else if p = encPage + 0x2000 || p = encPage + 0x3000 then decide (0x40 ≤ o)
  else if p = prfPage then decide (0x44 ≤ o) && decide (o < 0x50)
  else if p = nocPage + 0x1000 then decide (0x40 ≤ o)
  else if p = lownPage then decide (0x40 ≤ o) && decide (o < 0x140)
  else if isChanPage p then o = 0x40 || (p = chanPage 0 && (o = 0x60 || o = 0x64))
  else if isTilePage p && p % 0x10000 = 0x5000 then decide (0x40 ≤ o) && decide (o < 0x80)
  else false

/-- The registers of page p at reset, but for those that keep their values. -/
def State.clearPage (s : State) (p : Nat) : State :=
  let keep := s.fld .wdgStat 15 0
  let r := s.regs.filter fun e => e.1 < p || decide (p + 0x1000 ≤ e.1) || survivesReset e.1
  let s : State := { s with regs := r }
  if p = wdgPage then s.setFld .wdgStat 15 0 keep else s

/-- The error counts, the failed devices and the repair queues of a channel forgotten: R508 keeps none of them. -/
def State.resetChannel (s : State) (c : Nat) : State :=
  let s : State := { s with mem := { s.mem with
    ceDevice := s.mem.ceDevice.filter fun e => e.1.1 ≠ c
    ceRow := s.mem.ceRow.filter fun e => e.1.1 ≠ c
    pprQueue := s.mem.pprQueue.filter fun e => e.1 ≠ c
    pprSoft := s.mem.pprSoft.filter fun e => e.1 ≠ c
    pprHard := s.mem.pprHard.filter fun e => e.1 ≠ c
    failedDev := s.mem.failedDev.filter fun e => e.1 ≠ c } }
  if c = 0 then { s with mem := { s.mem with scrubNext := 0 } } else s

/-- The dispatcher's store at a reset: tiles' entries are reported at the next batch end, all others go. DESIGN CHOICE
(assumption 94): the model cache is empty, as at reset, and its dirty lines are not written back. -/
def State.resetStore (s : State) : State :=
  let keep := (s.svc.store.filter SvcItem.fromTile).map fun i => { i with stage := .orphaned }
  ({ s with svc := { s.svc with
      store := keep, ready := [], engines := [], cplSup := [], cplDbg := [], parkOrder := [], cache := [] } } :
    State).setBanks

/-- The ledger at its reset values, but for the sensors and OVER, which belong to the sensor page; P_TH stays at 40 W
while they hold it there (R267, R268). A reset in a run also forgets the estimates and the last measured energy, of
which R258 and R508 do not speak (assumption 76): nothing comes back at the freeze of the batch in progress, and the
next batch is estimated at 0. -/
def State.resetLedger (s : State) : State :=
  let held := s.led.thermOver || (s.blind && !s.led.sensors.isEmpty)
  { s with led := { Ledger.reset with
      sensors := s.led.sensors
      thermOver := s.led.thermOver
      pThUw := if held then pThLow else Ledger.reset.pThUw } }

/-- Self-test at a reset of its page: a slice that runs ends as not run, and a shutdown that ran it goes on with its
later steps (R515, R516). -/
def State.resetSelftest (s : State) : State :=
  let t := (s.sliceAborted).wr .bstStat 0
  if s.bst.byShutdown && s.bst.slice.isSome then { t with sup := { t.sup with shut := some false } } else t

/-- The block state behind page p at reset. The page of the run control keeps the run state, which changes only as R452
gives (assumption 46). -/
def State.resetBlockState (s : State) (p : Nat) : State :=
  if p = pwrPage then s.resetLedger.alert 3 false
  else if p = thermPage then
    ({ s with led := { s.led with sensors := [], thermOver := false } } : State).alert 2 false
  else if p = runPage then { s with run := { s.run with causes := 0 } }
  else if p = encPage then s.setFld .encStat 29 29 0
  else if p = wdgPage then
    ({ s with run := { s.run with wdgNs := 0, wdgStopped := false } } : State).alert 4 false
  else if p = criPage then { s with run := { s.run with criers := [] } }
  else if p = flsPage then { s with flash := { s.flash with writing := [] } }
  else if p = bstPage then s.resetSelftest
  else if p = prfPage then
    let s := if s.prf.state = .saving then s.dropRunning fun i => i.source = .proofs else s
    { s with prf := { s.prf with
        unprot := [], todo := [], saveFail := none, sleepAfter := false
        state := if s.prf.state = .saving then .idle else s.prf.state } }
  else if p = svcPage then s.resetStore
  else if isEngPage p then
    { s with svc := { s.svc with engType := s.svc.engType.filter fun e => e.1 ≠ engOf p } }
  else if isChanPage p then s.resetChannel ((p - 0x40000) / 0x1000)
  else if p = encPage + 0x1000 then s.zeroKeyData
  else if isLinkPage p then (s.linkOff (linkOf p)).linkOff (linkOf p + 8)
  else if p = timPage + 0x1000 then
    { s with tim := { s.tim with
        fires := [], events := [], vl2 := .idle, vl2Drive := [], vl2FallNs := none, cal := none
        captures := [] } }
  else if p = timPage + 0x2000 then { s with tim := { s.tim with captures := [] } }
  else if p = acqPage then { s with acq := { Acq.reset with extPast := s.acq.extPast } }
  else if p = ldrPage then s.setLdr { s.ldr with frames := 0, stagedCount := 0 }
  else if isTilePage p && p % 0x10000 = 0 then
    s.modTile ((p - 0x1000000) / 0x10000) fun x => { x with refused := 0 }
  else if isTilePage p && p % 0x10000 = 0x7000 then
    s.modTile ((p - 0x1000000) / 0x10000) fun x => { x with frozen := Energy.zero, frozenNj := 0 }
  else if isPorterPage p then
    { s with host := { s.host with
        porter := Table.set (fun _ => []) s.host.porter (porterOf p) []
        moving := s.host.moving.filter fun x => x.porter ≠ porterOf p } }
  else s

/-- A page reset completed: registers and block state at reset, SRST 0. TIM page 0 keeps its header too (R387): EN as
SRST has cleared it. -/
def State.resetPage (s : State) (p : Nat) : State :=
  let s := (s.resetBlockState p).clearPage p
  let s := if p = timPage then s.setReg (p + 4) (setBit (s.reg (p + 4)) 1 false) else s
  let s := if p = svcPage then s.setBanks else s
  { s with host := { s.host with
      srsts := s.host.srsts.filter (· ≠ p), drains := s.host.drains.filter fun d => d.1 ≠ p } }

/-- A planned shutdown is in progress. -/
def State.shuttingDown (s : State) : Bool := s.sup.shut.isSome || (s.bst.byShutdown && s.bst.slice.isSome)

/-- SRST of page p set: EN is cleared first. A reset of the loader's page ends a load with no image in service, in
whatever state it is (R205, R515); the run state is not touched (assumption 46). -/
def State.beginReset (s : State) (p : Nat) : State :=
  let ends := p = ldrPage ∧ s.loading
  let s := s.disablePage p
  let s := if ends then s.takeOut else s
  let s := s.setReg (p + 4) (setBit (s.reg (p + 4)) 1 true)
  { s with host := { s.host with srsts := s.host.srsts ++ [p] } }

/-- PAGE_RESET: a tile refuses it while a run is under way, and a GLB page drops it in a shutdown. -/
def execPageReset (page : Nat) (s : State) : Out :=
  guardUnit (pageExists page) (onHeader page 4 s (
    if isTilePage page && !s.isHalted then .next (s.err page 0x1017 0x004)
    else if page ∈ glbPages && s.shuttingDown then .next s
    else .next (s.beginReset page)))

/-- PAGE_RESET_DONE: once the drain is over; a reset of the PRF page waits for the end of a pause. -/
def execPageResetDone (page : Nat) (s : State) : Out :=
  guardUnit (pageExists page)
    (whenDue (decide (page ∈ s.host.srsts) && !s.workLeft page &&
        !(page = prfPage && s.run.state = .recover)) s (s.resetPage page))

/-! ## Interrupt and error registers (R49, R60) -/

/-- The further message after a write to PG_INT_STAT or PG_INT_EN. -/
def State.resend (s : State) (p : Nat) : State :=
  if s.pendingSet p = 0 then s else s.msix (s.pageVec p)

/-- PG_INT_STAT_WRITE: write 1 to clear. -/
def execPgIntStatWrite (page : Nat) (val : Word) (s : State) : Out :=
  guardUnit (pageExists page) (onHeader page 0xC s (
    .next ((s.setReg (page + 0xC) (s.reg (page + 0xC) &&& ~~~val)).resend page)))

/-- PG_INT_EN_WRITE. -/
def execPgIntEnWrite (page : Nat) (val : Word) (s : State) : Out :=
  guardUnit (pageExists page) (onHeader page 0x10 s (
    .next ((s.setReg (page + 0x10) val).resend page)))

/-- CODE and INFO of a page cleared; ALERT_N of the watchdog and of a starved ledger is released with
them (R257, R460). -/
def State.clearErr (s : State) (p : Nat) : State :=
  let s := (s.setReg (p + 0x18) 0).setReg (p + 0x1C) 0
  if p = wdgPage then s.alert 4 false
  else if p = pwrPage then s.alert 3 false
  else s

/-- PG_ERR_CLR: a page with SRST at 1 takes it too (R48). -/
def execPgErrClr (page : Nat) (val : Word) (s : State) : Out :=
  guardUnit (pageExists page) (
    whenDue (s.reachable && bit val 0) s
      (if s.pageLocked page then s.lockedWrite page 0x20 else s.clearErr page))

/-- The message of vector v sent, if its pending bit is set. -/
def State.sendPending (s : State) (v : Nat) : State :=
  if v ∈ s.host.pendingBits then
    { s with host := { s.host with
        pendingBits := s.host.pendingBits.filter (· ≠ v), sent := s.host.sent ++ [v] } }
  else s

/-- Vector v unmasked. -/
def State.unmaskVec (s : State) (v : Nat) : State :=
  let s : State := { s with host := { s.host with masked := s.host.masked.filter (· ≠ v) } }
  if s.host.fnMask then s else s.sendPending v

/-- The function unmasked: every vector that is not masked sends its pending message. -/
def State.unmaskFn (s : State) : State :=
  let s : State := { s with host := { s.host with fnMask := false } }
  (s.host.pendingBits.filter fun v => decide (v ∉ s.host.masked)).foldl State.sendPending s

/-- MSIX_UNMASK: one vector, or the function. -/
def execMsixUnmask (vec : Option Nat) (s : State) : Out :=
  match vec with
  | some v => guardUnit (v < 256) (whenDue s.reachable s (s.unmaskVec v))
  | none => .next s.unmaskFn

end Sys2Proof.Machine
end

