-- ==== Sys2Proof/Machine/Porter.lean ====
section
/-! DEFINITION. BAR2 accesses and the porters (R36 to R38, R43, R62 to R65, R234). -/

namespace Sys2Proof.Machine

/-! ## Error reporting of the PCIe function (R35) -/

/-- An uncorrectable error of AER, bit n, for a request to an address (R35): its status bit is set, and the header log
takes the request while no error that is not masked stands. The requester and the tag of a request are not among the
operands: they are free (assumptions 1, 66). -/
def State.aerError (s : State) (n : Nat) (a : DWord) : State :=
  let c := s.host.cfg
  let f := s.free
  let g := f.2.free
  let first := c.uncStatus &&& ~~~c.uncMask = 0 && !bit c.uncMask n
  { g.2 with host := { g.2.host with cfg := { c with
      uncStatus := setBit c.uncStatus n true
      headerLog := if first then [f.1, g.1, hi32 a, lo32 a] else c.headerLog } } }

/-- An Unsupported Request (R35, R41). -/
def State.unsupported (s : State) (base : DWord) (off : Nat) : State :=
  let s := s.aerError 20 (base + BitVec.ofNat 64 off)
  { s with host := { s.host with ur := true } }

/-! ## BAR2 (R43) -/

/-- Bytes as registers' words, least significant byte first. -/
def wordsOf : Nat → List Byte → List Word
  | 0, _ => []
  | n + 1, d => if d.isEmpty then [] else BitVec.ofNat 32 (leNat (d.take 4)) :: wordsOf n (d.drop 4)

/-- The DDR address of a window offset. -/
def State.bar2Addr (s : State) (off : Nat) : Nat := s.fld .pciBar2Win 10 0 * 2 ^ 30 + off

/-- The requester of BAR2 accesses: HOST_SUP or HOST_USR, on queue 0. -/
def State.bar2Req (s : State) : Requester := ⟨if bit (s.rd .pciBar2Win) 31 then clsSup else clsUsr, 0⟩

/-- BAR2_RANGE and BAR2_REFUSED: window offset bits [35:4]. -/
def State.bar2Err (s : State) (code off : Nat) : State := s.err pciPage code (off / 16 % 2 ^ 32)

/-- A completion with Completer Abort of a request at an offset of the window, which AER logs (R35, assumption 66). -/
def State.completerAbort (s : State) (off : Nat) : State :=
  let s := s.aerError 15 (s.host.cfg.bar2 + BitVec.ofNat 64 off)
  { s with host := { s.host with readData := [], ur := false, ca := true } }

/-- A recovery pause turns BAR2 accesses to model ranges away (R486). -/
def State.bar2Paused (s : State) (a n : Nat) : Bool := s.run.state = .recover && s.inModel a n

/-- BAR2 takes accesses: outside a reset and an integrity halt, while EN of the PCI main page is 1 (R38, R48, R510;
assumption 69). -/
def State.bar2Open (s : State) : Bool := s.reachable && !s.enc.integrityHalt && s.pageEn pciPage

/-- What a read of the window returns; in D3hot it is an Unsupported Request (R35). -/
def State.bar2Read (s : State) (off size : Nat) (ue : Dram) : State :=
  let a := s.bar2Addr off
  let s : State := { s with host := { s.host with cfg := { s.host.cfg with l1 := false } } }
  if s.host.cfg.d3hot then
    let s := s.unsupported s.host.cfg.bar2 off
    { s with host := { s.host with readData := [], ca := false } }
  else if !s.bar2Open then s.completerAbort off
  else if s.ddrCap < a + size then (s.bar2Err 0x9003 off).completerAbort off
  else if s.bar2Paused a size then (s.bar2Err 0x9004 off).completerAbort off
  else
    match s.ddrRead s.bar2Req (s.qkey 0) a size ue with
    | (.ok d, s) => s.answer (wordsOf size d)
    | (.refused _, s) => (s.bar2Err 0x9004 off).completerAbort off
    | (_, s) => s.completerAbort off

/-- BAR2_READ: offsets lie within the 64 GiB of the window. While the link is down no request arrives (R513). -/
def execBar2Read (off size : Nat) (ue : Dram) (s : State) : Out :=
  guardUnit (off + size ≤ 2 ^ 36) (whenDue s.sup.pcieUp s (s.bar2Read off size ue))

/-- A BAR2 write: dropped out of range, refused, or stored through the engine. -/
def State.bar2Write (s : State) (off : Nat) (d : List Byte) (ue : Dram) : State :=
  let a := s.bar2Addr off
  let s : State := { s with host := { s.host with cfg := { s.host.cfg with l1 := false } } }
  if s.host.cfg.d3hot then s.unsupported s.host.cfg.bar2 off
  else if !s.bar2Open then s
  else if s.ddrCap < a + d.length then s.bar2Err 0x9003 off
  else if s.bar2Paused a d.length then s.bar2Err 0x9004 off
  else
    match s.ddrWrite s.bar2Req (s.qkey 0) a d ue with
    | (.ok _, s) => s
    | (.refused _, s) => s.bar2Err 0x9004 off
    | (_, s) => s

/-- BAR2_WRITE. -/
def execBar2Write (place : Bar2Place) (bytes : List Byte) (s : State) : Out :=
  guardUnit (place.off + bytes.length ≤ 2 ^ 36) (whenDue s.sup.pcieUp s (s.bar2Write place.off bytes place.dram))

/-! ## Rings (R62) -/

/-- The number of descriptors of porter p's ring. -/
def State.ringSize (s : State) (p : Nat) : Nat :=
  let l := s.fld .pciPorterRingSize 4 0 p
  2 ^ (if 4 ≤ l ∧ l ≤ 16 then l else 4)

/-- The index of the descriptor that porter p takes next. -/
def State.nextIndex (s : State) (p : Nat) : Nat :=
  (s.fld .pciPorterHead 15 0 p + (s.inFlight p).length) % s.ringSize p

/-- Porter p owns a descriptor that it has not taken. -/
def State.ringReady (s : State) (p : Nat) : Bool :=
  decide (s.nextIndex p ≠ s.fld .pciPorterTail 15 0 p % s.ringSize p) &&
    decide ((s.inFlight p).length + 1 < s.ringSize p)

/-- PCI_PORTER_TAIL_WRITE. -/
def execPciPorterTailWrite (p : Nat) (val : Word) (s : State) : Out :=
  guardUnit (p < 8) (onWrite (porterPage p) s (.next (s.wr .pciPorterTail (val &&& 0xFFFF) p)))

/-- A write of a ring register: dropped while EN is 1 (PORTER_CFG_BUSY); a LOG2 outside 4 to 16 is 4. -/
def State.writeRing (s : State) (r : Reg) (p : Nat) (val : Word) : State :=
  if s.pageEn (porterPage p) then s.err pciPage 0x9007 p
  else
    match r with
    | .pciPorterRingSize =>
      let l := bits val 4 0
      s.wr r (BitVec.ofNat 32 (if 4 ≤ l ∧ l ≤ 16 then l else 4)) p
    | .pciPorterRingLo => s.wr r (val &&& 0xFFFFF000) p
    | _ => s.wr r val p

/-! ## Descriptors (R63, R64) -/

/-- The range of a descriptor at its target: none when it lies beyond the target. -/
def State.descRange (s : State) (d : Descriptor) : Bool :=
  let n := d.length.toNat
  decide (0 < n) && decide (n ≤ 16777216) &&
    (match d.tgt.toNat with
    | 0 => decide (d.devAddr.toNat + n ≤ s.ddrCap)
    | 1 => decide (bits d.devAddr 24 0 + n ≤ 2 ^ 25)
    | 2 => decide (bits d.devAddr 19 0 + n ≤ 2 ^ 20) && (s.ptile (bits d.devAddr 27 20)).isSome
    | _ => true)

/-- The banks of `size` bytes that n bytes from offset a touch. -/
def banksOf (size a n : Nat) : List Nat := List.range' (a / size) ((a + n - 1) / size + 1 - a / size)

/-- A descriptor touches a block under test, which is isolated (R495). -/
def State.targetTested (s : State) (d : Descriptor) : Bool :=
  match d.tgt.toNat with
  | 0 => s.underTest 164
  | 1 => (banksOf 524288 (bits d.devAddr 24 0) d.length.toNat).any fun b => s.underTest (136 + b / 8)
  | 2 => match s.ptile (bits d.devAddr 27 20) with
    | some t => s.underTest t
    | none => false
  | _ => false

/-- A bank that porter p owns and that is not being handed over. -/
def State.porterOwns (s : State) (larder : Bool) (t p b : Nat) : Bool :=
  let w := s.own larder t b
  ownKind w = 3 && ownIndex w = p && !bit w 31 && !(larder && ownFailed w)

/-- Every bank that a descriptor touches is the porter's. -/
def State.descOwned (s : State) (p : Nat) (d : Descriptor) : Bool :=
  match d.tgt.toNat with
  | 1 => (banksOf 524288 (bits d.devAddr 24 0) d.length.toNat).all (s.porterOwns true 0 p)
  | 2 =>
    match s.ptile (bits d.devAddr 27 20) with
    | some t => (banksOf 65536 (bits d.devAddr 19 0) d.length.toNat).all (s.porterOwns false t p)
    | none => false
  | _ => true

/-- The CODE of a descriptor that moves nothing: BAD_DESC, RANGE or OWNER. -/
def State.descRefused (s : State) (p : Nat) (d : Descriptor) : Option Nat :=
  if 4 ≤ d.tgt.toNat || (d.tgt = 3 && d.dir) || d.rsvd ≠ 0 then some 7
  else if !s.descRange d then some 5
  else if !s.descOwned p d then some 6
  else none

/-- A failure noted: the first one gives CODE, a channel its FAILED_PARTS bit. -/
def Moved.fail (m : Moved) (code : Nat) (chan : Option Nat) : Moved :=
  { m with
    code := if m.code = 0 then code else m.code
    failed := match chan with
      | some c => if m.failed / 2 ^ c % 2 = 1 then m.failed else m.failed + 2 ^ c
      | none => m.failed }

/-- The CODE of an engine's answer. -/
def Moved.note (m : Moved) (e : EncRes) : Moved :=
  match e with
  | .ok _ => m
  | .refused c => m.fail (if c = 0x3101 then 5 else if c = 0x3103 then 4 else 3) none
  | .ue c => m.fail 8 (some c)
  | .integrity => m.fail 1 none

/-- What the DRAM of channel c has in store for the next line: an error that it can correct is met once, one that
it cannot correct stays. -/
def Moved.takeDram (m : Moved) (c : Nat) : Dram × Moved :=
  match m.drams.find? fun e => e.1 = c with
  | none => (.clean, m)
  | some e => (e.2, if e.2 = .failed then m else { m with drams := m.drams.erase e })

/-- The parts of a DDR transfer moved line by line; every part on a failed channel fails, the others move (R64,
R301), each failed line is DDR_UE, and a write to a model range ends protection (R484). A line meets its channel
only once the engine has let it pass (R20, R327). `d` holds the bytes of a write, none for a read; `start` is the
first address. -/
def State.moveParts (s : State) (r : Requester) (slot start : Nat) (d : Option (List Byte)) :
    List (Nat × Nat) → Moved → Moved × State
  | [], m => (m, s)
  | (a, k) :: rest, m =>
    let c := s.ddrChannel a
    let taken := !s.enc.integrityHalt && (s.encRefuse r slot a d.isNone d.isSome).isNone
    let u := if taken then m.takeDram c else (.clean, m)
    let m := u.2
    if s.dramFails c u.1 then
      State.moveParts ((s.meetChannel a).ddrUe a) r slot start d rest (m.fail 8 (some c))
    else
      match d with
      | some w =>
        let x := (s.snoop a).lineWrite r slot a ((w.drop (a - start)).take k) u.1
        let s := if x.1.isOk then x.2.hostTouches a k else x.2
        State.moveParts s r slot start d rest (m.note x.1)
      | none =>
        let x := s.lineRead r slot a true false u.1
        let m := match x.1 with
          | .ok l => { m with got := m.got ++ [(a - start, (l.drop (a % 64)).take k)] }
          | e => m.note e
        State.moveParts x.2 r slot start d rest m

/-- Data written to host memory at a descriptor's address. -/
def State.toHost (s : State) (a : DWord) (l : List (Nat × List Byte)) : State :=
  { s with host := { s.host with
      wrote := s.host.wrote ++ l.map fun e => (a + BitVec.ofNat 64 e.1, e.2) } }

/-! ### DDR transfers, block by block (R234) -/

/-- The next address of a transfer, and the bytes of its next block: up to the next multiple of 4 KiB. -/
def Transfer.addr (x : Transfer) : Nat := x.desc.devAddr.toNat + x.off
def Transfer.block (x : Transfer) : Nat := min (x.desc.length.toNat - x.off) (4096 - x.addr % 4096)

/-- The lines of the next block. -/
def Transfer.lines (x : Transfer) : Nat × Nat :=
  (x.addr / 64, (x.addr + x.block + 63) / 64 - x.addr / 64)

/-- The block that comes next moved. -/
def State.moveBlock (s : State) (x : Transfer) : Transfer × State :=
  let r : Requester := ⟨clsPorter, 1 + x.porter⟩
  let n := x.block
  let m := s.moveParts r (s.qkey (1 + x.porter)) x.desc.devAddr.toNat
    (if x.desc.dir then none else some x.data) (lineParts (n / 64 + 2) x.addr n) x.met
  ({ x with met := m.1, off := x.off + n, item := none }, m.2)

/-- A transfer over: its data is in host memory, and its descriptor has its CODE. -/
def State.endTransfer (s : State) (x : Transfer) : State :=
  let s := if x.desc.dir then s.toHost x.desc.hostAddr x.met.got else s
  let l := (s.inFlight x.porter).map fun d =>
    if d.1 = x.index then (d.1, x.met.code, x.met.failed, d.2.2.2) else d
  { s with host := { s.host with porter := Table.set (fun _ => []) s.host.porter x.porter l } }

/-- Entries that porters use: at most 64 together (R222). -/
def State.porterItems (s : State) : Nat :=
  (s.svc.store.filter fun i => match i.source with | .porter _ => true | _ => false).length

/-- The CEVICT item of a transfer's next block: it invalidates for DIR 0, and writes back for DIR 1. With no
free entry the transfer pauses. -/
def State.askEvict (s : State) (x : Transfer) : State :=
  let keep (x : Transfer) (s : State) : State :=
    { s with host := { s.host with moving := s.host.moving ++ [x] } }
  if s.porterItems < 64 ∧ s.poolUsed < 3520 then
    let i := { blankItem (.porter x.porter) 0x21 0 (BitVec.ofNat 64 (64 * x.lines.1)) with
      t0 := some (BitVec.ofNat 64 x.lines.2), t1 := some (if x.desc.dir then 0 else 1) }
    let a := s.addItem i
    keep { x with item := some a.1.id } (a.2.enlist a.1)
  else keep { x with item := none } s

/-- Whether the cache may hold a line of the next block. -/
def State.blockCached (s : State) (x : Transfer) : Bool :=
  s.svc.cache.any fun c => decide (x.lines.1 ≤ c.line) && decide (c.line < x.lines.1 + x.lines.2)

/-- A transfer carried on until it ends or waits; `fuel` bounds its blocks. -/
def State.transfer : Nat → State → Transfer → State
  | 0, s, _ => s
  | fuel + 1, s, x =>
    if s.enc.integrityHalt then s
    else if x.desc.length.toNat ≤ x.off then s.endTransfer x
    else if s.blockCached x then s.askEvict x
    else
      let m := s.moveBlock x
      State.transfer fuel m.2 m.1

/-- The block whose lines have left the cache, or are clean, moved, and the transfer carried on. -/
def State.resumeTransfer (s : State) (x : Transfer) : State :=
  let s : State := { s with host := { s.host with moving := s.host.moving.erase x } }
  let m := s.moveBlock x
  State.transfer 4098 m.2 m.1

/-- Transfers that wait for an entry try again. -/
def State.retryTransfers (s : State) : State :=
  (s.host.moving.filter fun x => x.item.isNone).foldl (fun s x =>
    State.transfer 4098 { s with host := { s.host with moving := s.host.moving.erase x } } x) s

/-- CEVICT: writes back, or with INVALIDATE invalidates, the lines of its range; a porter's transfer that waits
for it goes on, and an entry is free for one that waits for an entry. -/
def execCevict (eng : Nat) (s : State) : Out :=
  onEngine eng 0x21 s fun i =>
    s.ifOwn eng i true fun s =>
      let r := s.evictAll (bit i.tok1 0) i.lines (.ok [])
      let s := r.2.endLines eng i r.1
      let s := match s.host.moving.find? fun x => x.item = some i.id with
        | some x => if s.enc.integrityHalt then s else s.resumeTransfer x
        | none => s
      s.retryTransfers

/-- A larder descriptor moved. -/
def State.moveLarder (s : State) (d : Descriptor) (data : List Byte) : State :=
  let a := bits d.devAddr 24 0
  let n := d.length.toNat
  let s := (banksOf 524288 a n).foldl State.touchLarder s
  if d.dir then s.toHost d.hostAddr [(0, s.mem.larder.readBytes a n)]
  else { s with mem := { s.mem with larder := s.mem.larder.writeBytes a data } }

/-- A pantry descriptor moved; a write to a bank of a mapped tile ends protection (R484). -/
def State.movePantry (s : State) (t : Nat) (d : Descriptor) (data : List Byte) : State :=
  let a := bits d.devAddr 19 0
  if d.dir then s.toHost d.hostAddr [(0, (s.tile t).pantry.readBytes a d.length.toNat)]
  else
    let s := s.modTile t fun x => x.putPantry a data
    if s.prf.cur.isSome then s.unprotect 0 else s

/-- A descriptor taken, with what became of it. -/
def State.takeDesc (s : State) (p : Nat) (irq : Bool) (code failed : Nat) : State :=
  let l := s.inFlight p ++ [(s.nextIndex p, code, failed, irq)]
  { s with host := { s.host with porter := Table.set (fun _ => []) s.host.porter p l } }

/-- A checked descriptor moved; one of DDR goes block by block. -/
def State.moveDesc (s : State) (p : Nat) (d : Descriptor) (data : List Byte) (drams : List (Nat × Dram)) : State :=
  let x : Transfer := ⟨p, s.nextIndex p, d, if d.dir then [] else data, 0, ⟨0, 0, [], drams⟩, none⟩
  let s := s.takeDesc p d.irq 0 0
  match d.tgt.toNat with
  | 0 => State.transfer 4098 s x
  | 1 => s.moveLarder d data
  | 2 =>
    match s.ptile (bits d.devAddr 27 20) with
    | some t => s.movePantry t d data
    | none => s
  | _ => s.offer 0 data

/-- Porter p runs a descriptor: `host` is what host memory returns for DIR 0, none for an error; `drams` is what
the DRAM of the channels has in store. -/
def State.runDesc (s : State) (p : Nat) (d : Descriptor) (host : Option (List Byte))
    (drams : List (Nat × Dram)) : State :=
  match s.descRefused p d with
  | some c => s.takeDesc p d.irq c 0
  | none =>
    let data := ((host.getD []) ++ List.replicate d.length.toNat 0).take d.length.toNat
    if !d.dir && host.isNone then s.takeDesc p d.irq 2 0
    else s.moveDesc p d data drams

/-- PORTER_DESCRIPTOR: taken while EN is 1, the link is up and no recovery pause runs; FENCE waits for every earlier
descriptor (R63, R486). Porters under test, and a target that is under test, take none (R495). -/
def execPorterDescriptor (p : Nat) (d : Descriptor) (hostBytes : Option (List Byte)) (drams : List (Nat × Dram))
    (s : State) : Out :=
  guardUnit (p < 8)
    (whenDue (s.reachable && s.sup.pcieUp && s.pageEn (porterPage p) && s.ringReady p && !s.underTest 165 &&
        !(s.run.state = .recover) && !s.enc.integrityHalt && !s.targetTested d &&
          (!d.fence || (s.inFlight p).isEmpty)) s
      (s.runDesc p d hostBytes drams))

/-- The status word of a descriptor (R63). -/
def descStatus (code failed : Nat) : Word := BitVec.ofNat 32 (failed % 256 * 2 ^ 16 + code % 256 * 2 ^ 8 + 1)

/-- PORTER_DESCRIPTOR_DONE: once the oldest descriptor has ended, its status goes to host memory, HEAD advances,
a failure is recorded with its ring index, and DONE is set when IRQ asks for it (R52, R65). -/
def execPorterDescriptorDone (p : Nat) (s : State) : Out :=
  guardUnit (p < 8) (
    match s.inFlight p with
    | [] => .next s
    | (i, code, failed, irq) :: rest =>
      if s.host.moving.any fun x => x.porter = p && x.index = i then .next s.retryTransfers
      else
        let head := (s.fld .pciPorterHead 15 0 p + 1) % s.ringSize p
        let s : State := { s with host := { s.host with
          porter := Table.set (fun _ => []) s.host.porter p rest
          statuses := s.host.statuses ++ [(p, i, descStatus code failed)] } }
        let s := s.wr .pciPorterHead (BitVec.ofNat 32 head) p
        let s := if code = 0 then s else s.err (porterPage p) (0x9010 + code) i
        .next (if irq then s.cause (porterPage p) 1 else s))

/-! ## Reads that clear (R111, R246) -/

/-- TIL_DP_STALL_READ. -/
def execTilDpStallRead (t : Nat) (via : Via) (s : State) : Out :=
  onTile t (onRead (tilePage t 4) via s (
    if (s.tile t).power = .on then .next (s.readClear (tilePage t 4) via .tilDpStall 0xFFFFFFFF t)
    else .next (s.answer [0])))

/-- SVC_ENG_ITEMS_READ. -/
def execSvcEngItemsRead (e : Nat) (via : Via) (s : State) : Out :=
  guardUnit (e < 18) (onRead (engPage e) via s (.next (s.readClear (engPage e) via .svcEngItems 0xFFFFFFFF e)))

end Sys2Proof.Machine
end

