-- ==== Sys2Proof/Machine/System.lean ====
section
/-! DEFINITION. Supplies, resets, start-up and shutdown (R37, R269, R296, R505 to R522, R525 to R528,
R536). -/

namespace Sys2Proof.Machine

/-! ## Cold reset (R505, R507, R511) -/

/-- What the flash tells of an operation that a cold reset ends (R519). -/
def State.coldInterrupted (s : State) : Nat :=
  b2n s.shuttingDown * 2 ^ 13 + b2n (!s.flash.writing.isEmpty) * 2 ^ 15

/-- The device in a cold reset: fuses, flash, the levels that the board sets, and the PCIe configuration
are kept; everything else is at its reset value. A write of the flash that is cut short leaves the other
copy in force (R497). `source` is what SOURCE of GLB_RST_CAUSE will tell (R519). -/
def State.coldState (s : State) (power : Power) (source : Nat) : State :=
  let r := State.reset
  let cut := s.coldInterrupted
  let s := s.sliceAborted
  { r with
    pending := s.pending
    freeCtr := s.freeCtr
    fuses := s.fuses
    flash := { s.flash with writing := [], interrupted := s.flash.interrupted ||| cut }
    regs := s.regs.filter fun e => decide (0xAC000 ≤ e.1) && decide (e.1 < 0xAE000)
    mem := { r.mem with pprHard := s.mem.pprHard }
    sup := { r.sup with
      power := power, vinMv := s.sup.vinMv, vioOn := s.sup.vioOn, vdioMv := s.sup.vdioMv
      vdioOn := s.sup.vdioOn, resetSource := source }
    pins := { r.pins with
      dioHeld := s.pins.dioHeld, dioIn := s.pins.dioIn, idbase := s.pins.idbase, perstLow := s.pins.perstLow
      wrstLow := s.pins.wrstLow, thermtripN := power ≠ .trip }
    chain := { r.chain with sent := s.chain.sent }
    con := { s.con with lines := [], lost := 0 }
    host := { r.host with
      cfg := s.host.cfg, masked := s.host.masked, fnMask := s.host.fnMask, pendingBits := s.host.pendingBits
      sent := s.host.sent, statuses := s.host.statuses, wrote := s.host.wrote } }

/-- BROWN_OUT: VIN below 4.10 V; the device is unpowered (R525, R528). -/
def execBrownOut (s : State) : Out :=
  whenDue (s.sup.power ≠ .unpowered) s (s.coldState .unpowered 2)

/-- INPUT_CURRENT_LIMIT: the regulators cut the input current: a cold reset, recorded as brown-out (R527). -/
def execInputCurrentLimit (s : State) : Out :=
  whenDue (s.sup.power ≠ .unpowered && s.sup.power ≠ .trip) s (s.coldState .coldReset 2)

/-- Tj_max is below 100 °C: the trip may be left (R269). -/
def State.cooled (s : State) : Bool :=
  match s.tjMax with
  | some (v, _) => decide (v < 400)
  | none => false

/-- RST_N low, or VIO off, which the device takes as RST_N low. A trip that is left through RST_N is still what SOURCE
tells (assumption 59). -/
def State.rstLow (s : State) : State :=
  match s.sup.power with
  | .unpowered => s
  | .coldReset => s
  | .trip => if s.cooled then s.coldState .coldReset 3 else s
  | _ => s.coldState .coldReset 1

/-- RST_N_ASSERTED. -/
def execRstNAsserted (s : State) : Out := .next s.rstLow

/-- VIO_CHANGE: off below 1.60 V, on above 1.65 V (R528). -/
def execVioChange (mv : Nat) (s : State) : Out :=
  let on := if mv < 1600 then false else if 1650 < mv then true else s.sup.vioOn
  let s : State := { s with sup := { s.sup with vioOn := on } }
  .next (if on then s else s.rstLow)

/-- THERMAL_TRIP: every rail but AON goes off; the trip record goes to flash unless it is read-only
(R269, R499). It works whenever VIN is there, with VIO off and in a cold reset too (R528, R532). -/
def execThermalTrip (sensor : Nat) (milliC : Int) (s : State) : Out :=
  guardUnit (sensor < 48)
    (whenDue (decide (115000 ≤ milliC) && !(s.sup.power = .unpowered) && !(s.sup.power = .trip)) s (
      let t := s.coldState .trip 3
      let sensors := Table.set (fun _ => none) s.led.sensors sensor (some (milliC / 250))
      let t : State := { t with led := { t.led with sensors := sensors } }
      if t.flash.readonly then t
      else { t with flash := { t.flash with trips := t.flash.trips ++ [sensor], tripReport := true } }))

/-! ## Supplies of the design pins (R528, R536, R538) -/

/-- PWR_VDIO_STAT.ON bit k changed: cause 5, and the pins of a bank that goes off (R536, R537). -/
def State.vdioSwitched (s : State) (k mv : Nat) (on : Bool) : State :=
  let s := s.cause pwrPage 5
  if on then s
  else
    let m : BitVec 128 := BitVec.ofNat 128 ((2 ^ 32 - 1) * 2 ^ (32 * k))
    let s : State := { s with pins := { s.pins with
      dioDrive := s.pins.dioDrive &&& ~~~m, dioLevel := s.pins.dioLevel &&& ~~~m } }
    if s.ldr.inService then s.err pwrPage 0xA007 (k * 2 ^ 16 + mv % 2 ^ 16) else s

/-- VDIO_BANK_CHANGE: off below 1.00 V, on above 1.05 V. The AON domain, which reports it, runs after a shutdown and
in a trip too (R517, R537). -/
def execVdioBankChange (bank mv : Nat) (s : State) : Out :=
  guardUnit (bank < 4) (
    let was := bit s.sup.vdioOn bank
    let on := if mv < 1000 then false else if 1050 < mv then true else was
    let mask : BitVec 4 := BitVec.ofNat 4 (2 ^ bank)
    let s : State := { s with sup := { s.sup with
      vdioMv := Table.set (fun _ => 0) s.sup.vdioMv bank mv
      vdioOn := if on then s.sup.vdioOn ||| mask else s.sup.vdioOn &&& ~~~mask } }
    let live := s.sup.power ≠ .unpowered && s.sup.power ≠ .coldReset
    .next (if live && on != was then (s.vdioSwitched bank mv on).vdioAlert else s))

/-! ## Start-up (R512 to R514) -/

/-- Banks that the fuses and the repair map leave without a redundant column: those of which a sub-array has more
than 4 faulty columns (R294, R295). -/
def State.failedBanks (s : State) : List (Nat × Nat × Nat) :=
  let key (w : Word) : Nat := bits w 31 12
  let cols := (s.fuses.columns ++ s.flash.repairMap).eraseDups
  let subs := (cols.map key).eraseDups
  let bad := subs.filter fun k => decide (4 < (cols.filter fun w => key w = k).length)
  (bad.map fun k => (k / 2 ^ 17, k / 2 ^ 9 % 2 ^ 8, k / 2 ^ 3 % 2 ^ 6)).eraseDups

/-- Larder banks that nobody owns go into retention at once (R291). -/
def State.retainFree (s : State) : State :=
  (List.range 64).foldl (fun s b =>
    if bits (s.rd .memLown b) 11 8 = 0 then s.wr .memLown (setBit (s.rd .memLown b) 29 true) b else s) s

/-- A failed bank out of service at start-up: a larder bank reads FAILED, any other retires its tile. -/
def State.startFailed (s : State) (e : Nat × Nat × Nat) : State :=
  if e.1 = 3 then
    (s.wr .memLown (setBit (s.rd .memLown e.2.2) 30 true) e.2.2).err lownPage 0x3014 (e.2.2 * 2 ^ 15)
  else if numTiles ≤ e.2.1 || (s.tile e.2.1).retired then s
  else (s.replaceTile e.2.1).2

/-- Spare map, retired tiles and engines as the flash holds them: VALID is 0 at and above ACTIVE (R160, R163, R512
phase 2); NEXT and the marks of self-test with them (R494, R496). -/
def State.loadMaps (s : State) : State :=
  let m := s.flash.spare
  let s := (List.range (min 128 s.fuses.active)).foldl (fun s v =>
    match Table.get (fun _ => none) m.tiles v with
    | some t => s.wr .glbVmap (BitVec.ofNat 32 (2 ^ 31 + t)) v
    | none => s) s
  let s := m.retiredTiles.foldl (fun s t => s.modTile t fun x => { x with power := .off, retired := true }) s
  { s with
    svc := { s.svc with retired := m.retiredEngines, serving := m.servingEngines }
    sup := { s.sup with
      failLanes := s.flash.failLanes, badSensors := s.flash.badSensors, nextSlice := s.flash.nextSlice } }

/-- Spare tiles that no virtual tile is mapped to are OFF (R30). -/
def State.spareOff (s : State) : State :=
  (s.spareTiles).foldl (fun s t => s.modTile t fun x => { x with power := .off }) s

/-- Phase 6: failed banks and retired tiles out of service, SRAM_READY. -/
def State.sramReady (s : State) : State :=
  let s := (s.failedBanks.foldl State.startFailed s).retainFree
  let s : State := { s with prf := { s.prf with newTiles := [] } }
  let s := (s.spareOff).countSpares
  (s.setBanks).setFld .glbBootStat 30 30 1

/-- REFCLK100 is taken as present: three counts of 980 to 1,020 edges that differ by at most 2 (R539). -/
def refPresent (edges : List Nat) : Bool :=
  edges.length = 3 && (edges.all fun n => decide (980 ≤ n) && decide (n ≤ 1020)) &&
    edges.all fun n => edges.all fun m => decide (n ≤ m + 2)

/-- SOURCE of a cold start: the AON domain keeps the record of the reset while VIN stays above 2.5 V; when it is
lost, the start is one of VIN rising (R519). -/
def State.startSource (s : State) (vin : VinRise) : Nat := if vin.low < 2500 then 0 else s.sup.resetSource

/-- Phases 1 to 6 of a cold start. -/
def State.coldStart (s : State) (source : Nat) (refclk xtal : Bool) (idbase : BitVec 4) : State :=
  let n := s.flash.coldStarts + 1
  let cut := s.flash.interrupted
  let s : State := { s with
    flash := { s.flash with coldStarts := n, interrupted := 0 }
    sup := { s.sup with power := .starting, ns := 0, xtal := xtal, pcieRetry := !s.pins.perstLow, pcieNs := 0 }
    pins := { s.pins with idbase := idbase, thermtripN := true }
    tim := { s.tim with ref := refclk }
    mem := { s.mem with pprSoft := [] } }
  let s := s.wr .glbRstCause (BitVec.ofNat 32 (2 ^ 28 + source % 16 * 2 ^ 24 + cut % 2 ^ 16))
  let s := s.wr .glbRstCount (BitVec.ofNat 32 (n % 2 ^ 16 * 2 ^ 16))
  let s := (s.loadBoot).loadMaps
  let auto := s.flash.boot.autoload
  let s := (s.setFld .glbBootStat 26 26 (b2n s.flash.clean)).setFld .glbBootStat 28 28 (b2n (!auto))
  let s : State := { s with sup := { s.sup with autoload := auto } }
  let s := if s.flash.tripReport then
      ({ s with flash := { s.flash with tripReport := false } }).err pwrPage 0xA006
        (s.flash.trips.getLastD 0)
    else s
  s.sramReady

/-- VIN is up: above 4.40 V where the device was unpowered, else at 4.10 V at least (R525). -/
def State.vinUp (s : State) (vin : VinRise) : Bool :=
  if s.sup.power = .unpowered then decide (4400 < vin.mv) else decide (4100 ≤ vin.mv)

/-- COLD_START: VIN is up, VIO is on and RST_N is released; a trip is left only by RST_N or at a power
cycle. `edges` are the counts of REFCLK100 in phase 1. With VIO off, which counts as RST_N low, a device whose VIN comes
up stands in cold reset, where the trip works (R528, R532). -/
def execColdStart (vin : VinRise) (edges : List Nat) (xtal : Bool) (idbase : BitVec 4) (s : State) : Out :=
  whenDue ((s.sup.power = .unpowered || s.sup.power = .coldReset) && s.vinUp vin) s (
    let source := s.startSource vin
    let t := s.coldState .coldReset source
    let t : State := { t with sup := { t.sup with vinMv := vin.mv } }
    if s.sup.vioOn then t.coldStart source (refPresent edges) xtal idbase
    else if s.sup.power = .unpowered then t
    else s)

/-! ## DDR (R296, R297, R512 phase 7) -/

/-- The rows of the population table that a probe of channels A to H breaks. -/
def brokenRows (l : List ChannelProbe) : List Nat :=
  let pop := l.filter fun c => decide (c.dimms ≠ 0)
  let first := pop.head?
  let same (f : ChannelProbe → Nat) : Bool := pop.all fun c => (first.map f) = some (f c)
  let count := (l.takeWhile fun c => decide (c.dimms ≠ 0)).length
  pop.filterMap (·.brokenRow) ++
    (if count = pop.length ∧ (count = 8 ∨ count = 4) then [] else [2]) ++
    (if same (·.dimms) ∧ (pop.all fun c => decide (c.dimms ≤ 2)) then [] else [3]) ++
    (if same (·.gib) ∧ same (·.rankLog2) ∧ same (·.rate) then [] else [4]) ++
    (if pop.all fun c => decide (c.gib / max 1 c.dimms ∈ [16, 32, 48, 64, 96, 128]) then [] else [5]) ++
    (if pop.all fun c => decide (4800 ≤ c.rate) then [] else [6])

/-- The lowest row that is broken, if one is. -/
def brokenRow (l : List ChannelProbe) : Option Nat :=
  (brokenRows l).foldl (fun m r => match m with
    | some x => some (min x r)
    | none => some r) none

/-- The rate of a population: the slowest DIMM, and at most DDR5-6400, or DDR5-5600 with two DIMMs. -/
def popRate (l : List ChannelProbe) : Nat :=
  l.foldl (fun m c => if c.dimms = 0 then m else min (min m c.rate) (if c.dimms = 2 then 5600 else 6400)) 6400

/-- MEM_CH_CFG of a populated channel. -/
def chanCfg (c : ChannelProbe) (trained failed : Bool) (rate : Nat) : Word :=
  BitVec.ofNat 32 (b2n trained * 2 ^ 31 + b2n failed * 2 ^ 30 + c.dimms % 4 * 2 ^ 26 +
    c.rankLog2 % 8 * 2 ^ 23 + c.gib % 1024 * 2 ^ 13 + rate % 2 ^ 13)

/-- One channel's training recorded: DDR_TRAIN with slot and step unless its limit was already recorded. -/
def State.trainChannel (s : State) (k : Nat) (c : ChannelProbe) (rate : Nat) : State :=
  let late := bit (s.rd .memChCfg k) 30
  let bad := late || c.fail.isSome
  let s := s.wr .memChCfg (chanCfg c (!bad) bad rate) k
  match c.fail with
  | some (step, slot) => if late then s else s.err (chanPage k) 0x3003 (slot % 256 * 256 + step % 256)
  | none => s

/-- The probes of channels A to H, padded with channels that hold no DIMM. -/
def eightProbes (l : List ChannelProbe) : List ChannelProbe :=
  (l ++ List.replicate 8 (⟨0, 0, 0, 0, none, none⟩ : ChannelProbe)).take 8

/-- MEM_CAP_INST of `n` usable channels, and of the capacity installed in all channels (R309). -/
def State.setInstalled (s : State) (n : Nat) (l : List ChannelProbe) : State :=
  (s.wr .memCapInst (BitVec.ofNat 32 (n % 16 * 2 ^ 12 + (l.map fun c => c.gib).sum % 2 ^ 12))).setCap

/-- Phase 7 ended: population, training, capacity. With no usable DDR, CHANNELS and the usable capacity are 0, and GIB
shows what is installed (R296, R309, assumption 79). -/
def State.ddrTrained (s : State) (probes : List ChannelProbe) : State :=
  let l := eightProbes probes
  let ks := (List.range 8).zip l
  match brokenRow l with
  | some r =>
    let s := ks.foldl (fun s e => if e.2.dimms = 0 then s else s.wr .memChCfg (chanCfg e.2 false true 0) e.1) s
    (s.setInstalled 0 l).err (chanPage 0) 0x3004 r
  | none =>
    let rate := popRate l
    let pop := ks.filter fun e => decide (e.2.dimms ≠ 0)
    let s := pop.foldl (fun s e => s.trainChannel e.1 e.2 rate) s
    s.setInstalled (if pop.any fun e => bit (s.rd .memChCfg e.1) 30 then 0 else pop.length) l

/-- Phase 7 is quick: the last shutdown was clean, and every DIMM is the one recorded then (R514). -/
def State.quickStart (s : State) (dimms : List (List DWord)) : Bool :=
  s.flash.clean && (s.flash.ddr.map DdrRecord.dimms) = some dimms

/-- DDR_DONE: `dimms` are the SPD identities read from the DIMMs of channels A to H. -/
def execDdrDone (probes : List ChannelProbe) (dimms : List (List DWord)) (s : State) : Out :=
  whenDue (s.sup.power = .starting && !bit (s.rd .glbBootStat) 29) s (
    let q := s.quickStart dimms
    let s : State := { s with mem := { s.mem with dimms := dimms, dimmReset := false } }
    let s := (s.ddrTrained probes).setFld .glbBootStat 27 27 (b2n q)
    (s.setFld .glbBootStat 29 29 1).checkReady)

/-- DDR_TRAIN_LIMIT: a channel reaches 1 s in a training step (R512, R550). -/
def execDdrTrainLimit (ch stp slot : Nat) (s : State) : Out :=
  guardUnit (ch < 8)
    (whenDue (s.sup.power = .starting && !bit (s.rd .glbBootStat) 29 && decide (1000000000 ≤ s.sup.ns) &&
        !bit (s.rd .memChCfg ch) 30) s
      ((s.setFld .memChCfg 30 30 1 ch).err (chanPage ch) 0x3003 (slot % 256 * 256 + stp % 256)))

/-- AUTOLOAD: in a start, once SRAM_READY and STABLE hold, or 10 ms after A, one image is read from the boot flash,
whatever SRC holds (R186, R512 phase 8). -/
def execAutoload (bytes : List Byte) (s : State) : Out :=
  let b := s.rd .glbBootStat
  whenDue (s.sup.power = .starting && s.sup.autoload && bit b 30 && !bit b 28 && s.ldr.state = .empty &&
      (s.chain.stable || decide (10000000 ≤ s.sup.ns))) s 
    ((s.spiStart (imageLength bytes)).offer s.ldrSrc (imageBytes bytes))

/-! ## Warm reset (R509 to R511) -/

/-- Registers of the always-on domain and those that a warm reset keeps (R507); MEM_CH_ECC, WDG_STAT.EXPIRIES
and ENC_FAIL tell of the time since a cold reset (R308, R338, R472). -/
def keepsWarm (a : Nat) : Bool :=
  let p := a / 0x1000 * 0x1000
  decide (p ∈ glbPages) || p = pwrPage || p = thermPage || p = flsPage ||
    (decide (timPage ≤ p) && decide (p < acqPage)) || (decide (0xAC000 ≤ a) && decide (a < 0xAE000)) ||
    (isChanPage p && a % 0x1000 = 0x44) || (p = wdgPage && a % 0x1000 = 0x4C) ||
    (decide (encPage + 0xC0 ≤ a) && decide (a < encPage + 0xCC)) ||
    (decide (p ≠ ldrPage) && decide (p ≠ nocPage + 0x1000) && survivesReset a)

/-- INTERRUPTED of a warm reset (R519). -/
def State.interruptedNow (s : State) : Nat :=
  b2n s.loading * 2 ^ 8 + b2n (s.prf.state = .saving) * 2 ^ 9 + b2n (s.run.state = .recover) * 2 ^ 10 +
    b2n (s.enc.bg = .rekey || s.enc.bg = .seal) * 2 ^ 11 + b2n s.bst.slice.isSome * 2 ^ 12 +
    b2n s.shuttingDown * 2 ^ 13 + b2n s.inRun * 2 ^ 14 + b2n (!s.flash.writing.isEmpty) * 2 ^ 15

/-- A tile after the reset of its domain: the pantry is kept in retention. -/
def Tile.warm (x : Tile) : Tile :=
  { Tile.reset with
    power := x.power, retired := x.retired, pantry := x.pantry, dirty0 := x.dirty0, dirty1 := x.dirty1 }

/-- Every domain but AON and PCIE reset: no image, no run, no work; DDR, larder, pantries, the key store
and the proofs stay. A page reset of a page that is kept goes on to its end. -/
def State.dropDomains (s : State) : State :=
  let s := (s.driversOff).setRun .idle
  let regs := s.regs.filter fun e => keepsWarm e.1
  let s : State := { s with
    regs := regs
    ldr := { Loader.reset with state := s.ldr.state }
    run := RunCtl.reset
    svc := { Service.reset with nextId := s.svc.nextId, retired := s.svc.retired, serving := s.svc.serving }
    led := { s.led with holdNs := none, est := 0, estCurrent := 0 }
    enc := { s.enc with integrityHalt := false, keyData := 0 }
    mem := { s.mem with
      handovers := [], waiting := [], scrubNext := 0, ceDevice := [], ceRow := [], pprQueue := []
      larderIdleNs := [], chIdleNs := [] }
    net := Network.reset
    ports := []
    acq := Acq.reset
    prf := { Proofs.reset with
      cur := s.prf.cur, prev := s.prf.prev, recoveries := s.prf.recoveries, undo := s.prf.undo
      undoNext := s.prf.undoNext, undoLow := s.prf.undoLow, input := s.prf.input
      undoFull := s.prf.undoFull, inputFull := s.prf.inputFull }
    host := { s.host with
      porter := [], moving := [], drains := [], srsts := s.host.srsts.filter fun p => keepsWarm (p + 4) }
    bst := Selftest.reset }
  let s := (s.mapTiles Tile.warm).setFld .wdgStat 31 16 0
  s.setBanks

/-- DDR brought back to the proof batch of CUR when a run was in progress (R509 step 4). -/
def State.warmUndo (s : State) (run : Bool) : State :=
  match s.prf.cur with
  | some p => if run then (s.undoBack p.mark s.prf.undo).2 else s
  | none => s

/-- Larder banks with an owner in retention, and every trained channel in self-refresh (step 5). -/
def State.retain (s : State) : State :=
  let s := (List.range 64).foldl (fun s b =>
    if bits (s.rd .memLown b) 11 8 = 0 then s else s.wr .memLown (setBit (s.rd .memLown b) 29 true) b) s
  { s with mem := { s.mem with selfRefresh := (List.range 8).filter fun c => bit (s.rd .memChCfg c) 31 } }

/-- The loader after a warm reset: FAILED with LD_INTERRUPTED when a load was in progress, else EMPTY
(R205). -/
def State.warmLoader (s : State) (was : LdrState) (loading : Bool) : State :=
  if loading then (s.err ldrPage 0x7010 (ldInfo was.code)).ldrTo .failed else s.ldrTo .empty

/-- READY at 0, with its line (R59). -/
def State.notReady (s : State) : State :=
  if bit (s.rd .glbBootStat) 31 then (s.setFld .glbBootStat 31 31 0).event 0x42 [decText 0] else s

/-- A warm reset up to the end of its step 5. ALERT_N stays as it is until the reset is left (R511). -/
def State.warmReset (s : State) (source : Nat) : State :=
  let cut := s.interruptedNow
  let was := s.ldr.state
  let loading := s.loading
  let run := s.inRun
  let s := s.sliceAborted
  let s : State := { s with
    svc := { s.svc with cache := [] }
    enc := { s.enc with integrityHalt := false }
    flash := { s.flash with writing := [] }
    sup := { s.sup with power := .warmReset, phaseNs := 0, shut := none } }
  let s := (s.endAllHandovers s.handoverCount).warmUndo run
  let s := s.dropDomains
  let s := (s.setFld .encStat 31 31 0).retain.notReady
  let s := s.wr .glbRstCause (BitVec.ofNat 32 (2 ^ 29 + source % 16 * 2 ^ 24 + cut % 2 ^ 16))
  let s := s.setFld .glbRstCount 15 0 (satAdd 0xFFFF (s.fld .glbRstCount 15 0) 1)
  s.warmLoader was loading

/-- KEY of GLB_RST_CMD is right (R520). -/
def rstKey (val : Word) : Bool := bits val 31 16 = 0xA55A

/-- WARM_RESET: WRST_N is taken as low, or GLB_RST_CMD is written with WARM. -/
def execWarmReset (pin : Bool) (value : Word) (s : State) : Out :=
  if pin then
    let t : State := { s with pins := { s.pins with wrstLow := true } }
    whenDue s.reachable t (t.warmReset 4)
  else onWrite rstPage s (
    if !rstKey value then .next (s.err rstPage 0x0121 (bits value 31 16))
    else whenDue (bit value 0) s (s.warmReset 5))

/-- The alert pins as the device leaves a warm reset: CFGERR_N is asserted when a load was interrupted (R205, R511);
the halt of an integrity failure has ended, and no image is in service (R328, R536). -/
def State.warmPins (s : State) : State :=
  let s := if s.ldr.state = .failed then s.setLdr { s.ldr with cfgerr := true } else s
  (s.alert 1 false).vdioAlert

/-- WARM_RESET_EXIT: 2 ms after it began, WRST_N high; READY is set again under R514. -/
def execWarmResetExit (s : State) : Out :=
  let t : State := { s with
    sup := { s.sup with power := .starting }, pins := { s.pins with wrstLow := false } }
  whenDue (s.sup.power = .warmReset && decide (2000000 ≤ s.sup.phaseNs)) s (t.warmPins).checkReady

/-! ## PCIe (R37, R513) -/

/-- The configuration space, the PCI main page and the porter pages, and the MSI-X table, at reset, with the
drains and the page resets of those pages over; descriptors in flight are recorded and get no status (R37). -/
def State.pcieReset (s : State) : State :=
  let cut := (List.range 8).flatMap fun p => (s.inFlight p).map fun d => (p, d.1)
  let s : State := { s with
    host := { s.host with
      cfg := PciCfg.reset, masked := List.range 256, fnMask := false, pendingBits := [], porter := [], moving := []
      drains := s.host.drains.filter fun d => d.1 < pciPage || decide (0xAE000 ≤ d.1)
      srsts := s.host.srsts.filter fun p => p < pciPage || decide (0xAE000 ≤ p) }
    sup := { s.sup with pcieUp := false, pcieRetry := false, pcieNs := 0 } }
  let s := (s.clearRegs pciPage (porterPage 8)).clearRegs 0xAC000 0xAE000
  cut.foldl (fun s e => s.err (porterPage e.1) 0x9011 e.2) s

/-- PERST_N_ASSERTED. -/
def execPerstNAsserted (s : State) : Out :=
  .next (({ s with pins := { s.pins with perstLow := true } } : State).pcieReset)

/-- PERST_N_RELEASED: link training begins, at the end of phase 5 at the earliest. -/
def execPerstNReleased (s : State) : Out :=
  let t : State := { s with pins := { s.pins with perstLow := false } }
  .next (if s.pins.perstLow && (s.reachable || s.sup.power = .warmReset) then
    { t with sup := { t.sup with pcieRetry := true, pcieNs := 0 } } else t)

/-- Speed and width to which the link has trained: what the far end and the lanes allow, the board decides, so they are
free (R35, assumption 1). -/
def State.pcieTrained (s : State) : State :=
  let f := s.freeNat
  let g := f.2.freeNat
  { g.2 with host := { g.2.host with cfg := { g.2.host.cfg with speed := 1 + f.1 % 5, width := 2 ^ (g.1 % 5) } } }

/-- PCIE_RETRY_WINDOW_END: 20 ms after training began, configuration requests complete. -/
def execPcieRetryWindowEnd (s : State) : Out :=
  whenDue (s.sup.pcieRetry && decide (20000000 ≤ s.sup.pcieNs)) s (
    let s := s.pcieTrained
    { s with sup := { s.sup with pcieUp := true, pcieRetry := false } })

/-! ## Shutdown (R516, R517) -/

/-- Hard repair of the rows that R303 has queued, and of those under soft repair: whether a row's bank group still has
a spare row, the DRAM alone knows (assumption 1). A row without one is PPR_EXHAUSTED. -/
def State.hardRepair (s : State) : State :=
  let rows := s.mem.pprQueue ++ s.mem.pprSoft
  let s : State := { s with mem := { s.mem with pprHard := [], pprQueue := [], pprSoft := [] } }
  rows.foldl (fun s q =>
    let f := s.freeNat
    if f.1 % 2 = 0 then { f.2 with mem := { f.2.mem with pprHard := f.2.mem.pprHard ++ [q] } }
    else f.2.err (chanPage q.1) 0x3005 (q.2.1 * 2 ^ 28 + q.2.2 % 2 ^ 28)) s

/-- Step 4 of a shutdown: the repair map and the spare map are written where the flash and the writes under way do
not hold them as they stand, the writes of the maps end, the training results go to flash with the identities of the
DIMMs, and last the clean mark; nothing to a read-only flash. -/
def State.recordDdr (s : State) : State :=
  let s := s.saveColumns
  let s := (if s.flash.spareNow = s.liveSpare then s else s.saveSpareMap).endFlashWrites
  if s.flash.readonly then { s with flash := { s.flash with clean := false } }
  else { s with flash := { s.flash with
    ddr := some ⟨s.mem.dimms, (List.range 8).map fun c => s.rd .memChCfg c⟩, clean := true } }

/-- Steps 3 to 7 of a shutdown. -/
def State.finishShutdown (s : State) : State :=
  let s := (s.hardRepair).recordDdr
  let s := s.clearKeys false
  let s := (List.range 8).foldl State.portTakeDown s
  let s := (List.range 16).foldl State.linkOff s
  let s := (s.dropDomains).retain
  let s := s.ldrTo .empty
  let s : State := { s with
    bst := Selftest.reset
    sup := { s.sup with
      power := .shutdown, pcieUp := false, pcieRetry := false, stepPllOn := false, shut := none } }
  s.setFld .glbBootStat 25 25 1

/-- The porters and the dispatcher have drained (R493). -/
def State.drained (s : State) : Bool :=
  !((List.range 8).any fun p => s.workLeft (porterPage p)) && !s.workLeft svcPage

/-- Steps 1 and 2 of a shutdown once the drains have ended: the cache is written back, and self-test runs when TEST
asks for it. -/
def State.shutOn (s : State) : State :=
  match s.sup.shut with
  | none => s
  | some test =>
    if !s.drained then s
    else
      let s := s.flushCache
      let s : State := { s with sup := { s.sup with shut := none } }
      if test then
        let s := s.bstStart none s.bstBudget true
        if s.bst.slice.isSome then s else s.finishShutdown
      else s.finishShutdown

/-- A planned shutdown accepted: the image goes out of service, acquisition stops, and the porters and the dispatcher
begin to drain; with nothing to drain it goes on at once. -/
def State.shutdown (s : State) (test : Bool) : State :=
  let s := if s.ldr.inService then s.takeOut else s
  let s := s.acqStop true
  let s := (List.range 8).foldl (fun s p => s.disablePage (porterPage p)) s
  let s := s.disablePage svcPage
  State.shutOn { s with sup := { s.sup with shut := some test } }

/-- SHUTDOWN: refused outside IDLE and HALTED and while a load is in progress; WARM of the same write
goes before it. -/
def execShutdown (value : Word) (s : State) : Out := onWrite rstPage s (
    if !rstKey value then .next (s.err rstPage 0x0121 (bits value 31 16))
    else if bit value 0 || !bit value 1 || s.shuttingDown then .next s
    else if !s.isHalted then .next (s.err rstPage 0x0120 0)
    else if s.loading then .next (s.err rstPage 0x0120 1)
    else .next (s.shutdown (bit value 2)))

/-! ## Self-test slices that end (R494, R496) -/

/-- After a slice: a shutdown goes on once the last one has ended. -/
def State.afterSlice (s : State) : State :=
  if s.bst.byShutdown && s.bst.slice.isNone then s.finishShutdown else s

/-- BST_SLICE_DONE. -/
def execBstSliceDone (result : SliceResult) (s : State) : Out :=
  match s.bst.slice with
  | none => .next s
  | some k => .next ((s.sliceDone k result).afterSlice)

/-- BST_OVERRUN: 50 ms. -/
def execBstOverrun (s : State) : Out :=
  match s.bst.slice with
  | none => .next s
  | some k => whenDue (decide (50000000 ≤ s.bst.ns)) s ((s.sliceOverrun k).afterSlice)

end Sys2Proof.Machine
end

