-- ==== Sys2Proof/Machine/RegRead.lean ====
section
/-! DEFINITION. What a read of a register returns: identity and status of each page, and the value of every
register, stored or computed from the state (R11, R40 to R47, R53 to R61, the register tables). -/

namespace Sys2Proof.Machine

/-! ## The page header (R44, R47) -/

/-- The place of x in a list. -/
def placeOf (x : Nat) (l : List Nat) : Nat := l.findIdx (· = x)

/-- BLOCK_TYPE, INSTANCE and PAGE of a page. PAGE counts the pages of one instance from 0 (assumption 12). -/
def pageIdent (p : Nat) : Nat × Nat × Nat :=
  let k := p / 0x1000
  if isTilePage p then (0x10, (p - 0x1000000) / 0x10000, k % 16)
  else if p ∈ glbPages then (0x01, 0, placeOf p glbPages)
  else if p = pwrPage then (0xA0, 0, 0)
  else if p = thermPage then (0xA0, 0, 1)
  else if p = ldrPage then (0x70, 0, 0)
  else if p = runPage || p = wdgPage || p = criPage then (0x60, 0, placeOf p [runPage, wdgPage, criPage])
  else if p = flsPage then (0x82, 0, 0)
  else if p = bstPage then (0x81, 0, 0)
  else if p = prfPage then (0x80, 0, 0)
  else if p = svcPage then (0x20, 0, 0)
  else if isEngPage p then (0x20, engOf p, 0)
  else if isChanPage p then (0x30, k % 8, 0)
  else if isEncPage p then (0x31, 0, k % 8)
  else if isLinkPage p then (0x40, linkOf p, k % 2)
  else if p < timPage then (0x41, 0, k % 16)
  else if p < acqPage then (0x50, 0, k % 16)
  else if p < lownPage then (0x51, 0, k % 16)
  else if p < pciPage then (0x30, 0, k % 16)
  else if p = pciPage then (0x90, 0, 0)
  else (0x90, porterOf p, 0)

/-- PG_ID: LAYOUT is 1, the first layout revision, on every page (assumption 12). -/
def pageId (p : Nat) : Word :=
  let x := pageIdent p
  BitVec.ofNat 32 (x.1 * 2 ^ 24 + x.2.1 * 2 ^ 16 + x.2.2 * 2 ^ 8 + 1)

/-- PG_STAT.BUSY: work in flight. -/
def State.pageBusy (s : State) (p : Nat) : Bool :=
  if isTilePage p then
    s.run.inBatch && (s.tile ((p - 0x1000000) / 0x10000)).vtile.isSome
  else if p = runPage then s.run.inBatch
  else if p = ldrPage then s.loading
  else if p = prfPage then s.prf.state ≠ .idle
  else if p = bstPage then s.bst.slice.isSome
  else if p = flsPage then !s.flash.writing.isEmpty
  else if p = svcPage then !s.svc.store.isEmpty
  else if p = acqPage then s.acqArmed
  else if p = encPage + 0x3000 then (s.enc.bg = .rekey || s.enc.bg = .seal) && !s.bgPaused
  else if isLinkPage p then
    !(s.port (linkOf p)).retryBuf.isEmpty || !(s.port (linkOf p + 8)).retryBuf.isEmpty
  else s.workLeft p

/-- PG_STAT.HALTED (R457). The dispatcher page shows it once the engines have completed their items and the cache
has written back (R228). -/
def State.pageHalted (s : State) (p : Nat) : Bool :=
  s.run.state = .halted &&
    (p = runPage || isTilePage p || (p = svcPage && !s.svc.flushDue) || isEngPage p ||
      ((p = wdgPage || p = encPage + 0x3000 || isAcqPage p) && s.haltFreeze p))

/-- PG_STAT.ASLEEP: a tile in SLEEP or OFF, a link port off, a channel not trained or in self-refresh. -/
def State.pageAsleep (s : State) (p : Nat) : Bool :=
  if isTilePage p then (s.tile ((p - 0x1000000) / 0x10000)).power ≠ .on
  else if isLinkPage p then
    (s.port (linkOf p)).state = .off && (s.port (linkOf p + 8)).state = .off
  else if isChanPage p then
    let c := p / 0x1000 % 8
    !bit (s.rd .memChCfg c) 31 || decide (c ∈ s.mem.selfRefresh)
  else false

/-- PG_STAT. -/
def State.pageStat (s : State) (p : Nat) : Word :=
  let busy := s.pageBusy p
  flagAt (s.pageAsleep p) 4 ||| flagAt (s.pageHalted p) 3 |||
    flagAt (bits (s.reg (p + 0x18)) 31 16 ≠ 0) 2 ||| flagAt (!busy) 1 ||| flagAt busy 0

/-- A register of the header. -/
def State.headRead (s : State) (p o : Nat) : Word :=
  match o with
  | 0x00 => pageId p
  | 0x08 => s.pageStat p
  | 0x20 => 0
  | _ => if o < 0x20 then s.reg (p + o) else 0

/-! ## Registers of the GLB and PWR pages -/

/-- The pages with a header, in rising order of address. -/
def allPages : List Nat :=
  List.range' 0 35 0x1000 ++ List.range' 0x40000 105 0x1000 ++ List.range' 0x1000000 2176 0x1000

/-- GLB_VEC_SRC (R61). -/
def State.vecSrc (s : State) (v : Nat) : Word :=
  match allPages.find? fun p => decide (s.pageVec p = v) && decide (s.pendingSet p ≠ 0) with
  | some p => BitVec.ofNat 32 (p / 0x1000)
  | none => 0x80000000

/-- A logical port's transmit PLL is locked. -/
def State.txLocked (s : State) (p : Nat) : Bool :=
  [p, p + 8].any fun lp =>
    match (s.port lp).state with
    | .off => false
    | .pll => false
    | _ => true

/-- GLB_CLK_STAT (R55). -/
def State.clkStat (s : State) : Word :=
  let up (c : Nat) : Bool := bit (s.rd .memChCfg c) 31 && !decide (c ∈ s.mem.selfRefresh)
  let mclk := ((List.range 4).map fun i => b2n (up (2 * i) || up (2 * i + 1)) * 2 ^ (26 + i)).sum
  let lclk := ((List.range 8).map fun p => b2n (s.txLocked p) * 2 ^ (18 + p)).sum
  flagAt s.sup.stepPllOn 31 ||| flagAt (s.reachable || s.sup.power = .warmReset) 30 |||
    BitVec.ofNat 32 (mclk + lclk) ||| flagAt (s.sup.pcieUp ||
      s.sup.pcieRetry) 17 ||| flagAt s.tim.ref 16 ||| flagAt s.sup.xtal 15

/-- GLB_CHAIN_ID (R72). -/
def State.chainId (s : State) : Word :=
  flagAt s.chain.stable 31 ||| flagAt s.chain.head 30 ||| flagAt s.chain.valid 29 |||
    BitVec.ofNat 32 (s.pins.idbase.toNat * 2 ^ 8 + s.chain.id.toNat)

/-- PWR_LIMITS (R272). -/
def State.pwrLimitsNow (s : State) : Word :=
  BitVec.ofNat 32 (s.led.limiter * 2 ^ 30 + s.led.pThUw.toNat / 1000000 % 1024 * 2 ^ 20 +
    s.led.pInUw / 1000000 % 1024 * 2 ^ 10 + s.led.budgetUw / 2000000 % 512 * 2 + b2n s.deficit)

/-- PWR_TH_STAT (R278). -/
def State.thStat (s : State) : Word :=
  let hot := match s.tjMax with
    | some (v, k) => (BitVec.ofInt 10 v).toNat * 2 ^ 22 + k * 2 ^ 16
    | none => 0
  BitVec.ofNat 32 (hot + min 255 s.flash.trips.length * 2 ^ 8 + b2n s.led.thermOver * 2 +
    b2n (decide (s.led.pThUw < 400000000)))

/-- PWR_TH_SENSOR[k]. -/
def State.thSensor (s : State) (k : Nat) : Word :=
  match s.sensor k with
  | some v => BitVec.ofNat 32 (2 ^ 31 + (BitVec.ofInt 10 v).toNat)
  | none => 0

/-- PWR_VDIO: 20 mV per unit (R538). -/
def State.vdioNow (s : State) : Word :=
  BitVec.ofNat 32 (((List.range 4).map fun k =>
    min 255 (Table.get (fun _ => 0) s.sup.vdioMv k / 20) * 2 ^ (8 * k)).sum)

/-! ## Registers of the tile pages -/

/-- TIL_DP_STEP (R109). -/
def Tile.dpStep (x : Tile) : Word :=
  let held := match x.hold with
    | some h => x.phase = .exec && (h.kind = .wait || h.kind = .rest)
    | none => false
  let n := match x.phase with
    | .exec => x.step
    | .resting => 1024
    | .fault => x.step
    | _ => 0
  flagAt (x.phase = .exec) 31 ||| flagAt held 30 ||| flagAt (x.phase = .resting) 29 ||| BitVec.ofNat 32 n

/-- The code of a phase (R145). -/
def Phase.code : Phase → Nat
  | .idle => 0 | .start => 1 | .exec => 2 | .resting => 3 | .batchEnd => 4 | .fault => 5

/-- TIL_PHASE (R145). -/
def Tile.phaseWord (x : Tile) : Word :=
  flagAt x.vtile.isSome 31 ||| BitVec.ofNat 32 (x.vtile.getD 0 * 2 ^ 16 + x.phase.code)

/-- The code of a hold (R148). -/
def HoldKind.code : HoldKind → Nat
  | .wait => 0 | .rest => 1 | .retry => 2 | .svc => 3

/-- TIL_SEQ_WAIT (R148). -/
def Tile.seqWait (x : Tile) : Word :=
  match x.hold with
  | none => 0
  | some h =>
    let named := h.kind = .wait || h.kind = .rest
    BitVec.ofNat 32 (2 ^ 31 + h.kind.code * 2 ^ 26 + (if named then h.flag % 1024 * 2 ^ 16 + h.count % 16 * 2 ^ 12
      else 0) + min 0xFFF (h.ns / 1000))

/-- TIL_FLAG[i] (R150). -/
def Tile.flagWord (x : Tile) (i : Nat) : Word :=
  BitVec.ofNat 32 (((List.range 8).map fun j =>
    (Table.get (fun _ => (0 : BitVec 4)) x.flags (8 * i + j)).toNat * 2 ^ (4 * j)).sum)

/-- TIL_Q_STAT[q] (R153). -/
def Tile.qStat (x : Tile) (q : Nat) : Word :=
  BitVec.ofNat 32 (Table.get (fun _ => 0) x.qHead q % 16 * 2 ^ 8 + Table.get (fun _ => 0) x.qCount q)

/-- A register of a tile that its state gives; none for a stored one. -/
def Tile.view (x : Tile) (r : Reg) (j : Nat) : Option Word :=
  match r with
  | .tilDpStep => some x.dpStep
  | .tilPhase => some x.phaseWord
  | .tilXbatchLo => some (lo32 x.xbatch)
  | .tilXbatchHi => some (hi32 x.xbatch)
  | .tilRetry => some (BitVec.ofNat 32 (x.retry.length * 2 ^ 16 + min 0xFFFF x.refused))
  | .tilSeqWait => some x.seqWait
  | .tilFlag => some (x.flagWord j)
  | .tilDestLo => some (lo32 (Table.get (fun _ => 0) x.dest j))
  | .tilDestHi => some (hi32 (Table.get (fun _ => 0) x.dest j))
  | .tilMbxValid0 => some (lo32 x.mbxValid)
  | .tilMbxValid1 => some (hi32 x.mbxValid)
  | .tilMbxLo => some (lo32 (Table.get (fun _ => 0) x.mbx j))
  | .tilMbxHi => some (hi32 (Table.get (fun _ => 0) x.mbx j))
  | .tilQStat => some (x.qStat j)
  | .tilPrbStat => some (BitVec.ofNat 32 (x.histDepth % 2 ^ 16 * 2 ^ 16 + x.probes))
  | .tilEnSteps => some (BitVec.ofNat 32 (min 0xFFFF x.frozen.pkts * 2 ^ 16 + min 0xFFFF x.frozen.steps))
  | .tilEnToggles => some (BitVec.ofNat 32 (x.frozen.toggles % 2 ^ 20))
  | .tilEnWuA => some (BitVec.ofNat 32 (x.frozen.mul % 2 ^ 16 * 2 ^ 16 + x.frozen.alu % 2 ^ 16))
  | .tilEnWuB => some (BitVec.ofNat 32 (x.frozen.pan % 2 ^ 16))
  | .tilEnIdle => some (BitVec.ofNat 32 (min 0xFFFFFFFF x.frozen.idle))
  | .tilEnLast => some (BitVec.ofNat 32 x.frozenNj)
  | _ => none

/-! ## Registers of the loader, service, memory, encryption, time, acquisition and proof pages -/

/-- DEPTH of the recipe of tile t: 0 while no image is in service, since a recipe that is being written is not loaded
yet (R110). -/
def State.depthNow (s : State) (t : Nat) : Nat := if s.ldr.inService then (s.tile t).depth % 2 ^ 11 else 0

/-- LDR_STAT (R208). -/
def State.ldrStatNow (s : State) : Word :=
  let l := s.ldr
  flagAt l.done 31 ||| flagAt l.cfgerr 30 ||| flagAt l.setReset 29 ||| flagAt l.inService 28 |||
    flagAt l.partialLoad 27 ||| flagAt l.shadowOk 26 ||| BitVec.ofNat 32 l.state.code

/-- LDR_STAGE (R212). -/
def State.ldrStage (s : State) : Word :=
  BitVec.ofNat 32 (s.ldr.stagedCount % 2 ^ 16 * 2 ^ 16 + 128 * (s.larderOf 2).length)

/-- Items of level l listed, and its deferrable items held under R227. -/
def State.svcLevelNow (s : State) (l : Nat) : Word :=
  let all := s.svc.store.filter fun i => i.stage = .ready && i.level = l
  let held := if s.deficit then (all.filter fun i => i.deferrable && !i.forced).length else 0
  BitVec.ofNat 32 (min 1024 all.length * 2 ^ 16 + held)

/-- SVC_ENG_MAP and SVC_ENG_STAT (R242, R246). -/
def State.engMap (s : State) : Word :=
  BitVec.ofNat 32 ((s.svc.serving.map fun n => 2 ^ n).sum)
def State.engStat (s : State) (n : Nat) : Word :=
  flagAt (n ∈ s.svc.retired) 31 ||| flagAt (n ∈ s.svc.serving) 30 |||
    flagAt (s.running n).isSome 29 ||| (Table.get (fun _ => (0 : Byte)) s.svc.engType n).setWidth 32

/-- Items parked on channel c, of both rings. -/
def State.parkedOn (s : State) (c : Nat) : Nat := (s.svc.store.filter fun i => i.stage = .parked c).length

/-- MEM_LSTAT (R306). -/
def State.lstat (s : State) : Word :=
  let n (f : Word → Bool) : Nat := ((List.range 64).filter fun b => f (s.rd .memLown b)).length
  BitVec.ofNat 32 (n ownFailed * 2 ^ 24 + n (fun w => bit w 29) * 2 ^ 16 + n (fun w => bit w 31) * 2 ^ 8 +
    n (fun w => bits w 11 8 = 0))

/-- MEM_CH_PPR of channel c (R308). -/
def State.chPpr (s : State) (c : Nat) : Word :=
  let n (l : List (Nat × Nat × Nat)) : Nat := min 255 (l.filter fun e => e.1 = c).length
  BitVec.ofNat 32 (n s.mem.pprQueue * 2 ^ 24 + n s.mem.pprSoft * 2 ^ 16 + n s.mem.pprHard * 2 ^ 8 +
    s.fld .memChPpr 7 0 c)

/-- ENC_SLOT_STAT of slot n (R315, R339). -/
def State.slotStat (s : State) (n : Nat) : Word :=
  let key := if n = 0 then s.enc.kt else (s.slotKey n).map (·.k1)
  flagAt (s.slotValid n) 31 ||| flagAt (s.slotLocked n) 30 |||
    BitVec.ofNat 32 ((key.map kcv).getD 0)

/-- ENC_BG_STAT (R341). DESIGN CHOICE (assumption 93): PAUSED reads 1 also while an integrity failure or self-test holds
the engine with a job under way. -/
def State.bgStat (s : State) : Word :=
  let code := match s.enc.bg with
    | .idle => 0 | .rekey => 1 | .done => 2 | .seal => 3
  let active := s.enc.bg = .rekey || s.enc.bg = .seal
  BitVec.ofNat 32 (code * 2 ^ 29 + b2n (active && s.bgPaused) * 2 ^ 28 +
    (if s.enc.bg = .seal then s.enc.bgRegion else 0))

/-- TIM_OUT_STAT (R412). -/
def State.outStat (s : State) : Word :=
  let code := match s.tim.outState with
    | .free => 0 | .followA => 1 | .followB => 2 | .holdover => 3
  BitVec.ofNat 32 (code * 2 ^ 30 + b2n s.tim.valid * 2 ^ 29 + b2n s.tim.ref * 2 ^ 28 +
    min 0xFFFF s.tim.switches)

/-- TIM_DOM_STAT of domain d (R414). -/
def State.domStat (s : State) (d : Nat) : Word :=
  let x := s.dom d
  let code := match x.state with
    | .off => 0 | .search => 1 | .track => 2 | .locked => 3 | .lost => 4
  BitVec.ofNat 32 (code * 2 ^ 29 + x.parent.getD 0 % 16 * 2 ^ 20 + x.hops % 16 * 2 ^ 16 +
    x.master.toNat * 2 ^ 8 + x.priority.toNat)

/-- TIM_VL2 with STATE (R416). -/
def State.vl2Now (s : State) : Word :=
  let code := match s.tim.vl2 with
    | .idle => 0 | .armed => 1 | .fired => 2
  s.rd .timVl2 ||| BitVec.ofNat 32 (code * 2 ^ 24)

/-- ACQ_STAT (R445). -/
def State.acqStatNow (s : State) : Word :=
  let code := match s.acq.state with
    | .idle => 0 | .live => 1 | .window => 2 | .rearm => 3 | .drain => 4
  BitVec.ofNat 32 (code * 2 ^ 29 + s.acq.seq % 8 * 2 ^ 26 + s.acq.segment % 2 ^ 16)

/-- ACQ_LARDER (R445). -/
def State.acqLarderNow (s : State) : Word :=
  BitVec.ofNat 32 (s.acq.blocks.length * 2 ^ 16 + s.acq.blocks.headD 0 % 2 ^ 13)

/-- RUN_STAT (R453, R469): CAUSE is the highest-numbered cause that is set. -/
def State.runStatNow (s : State) : Word :=
  let first := ((List.range 13).reverse.find? fun c => bit s.run.causes c).getD 0
  BitVec.ofNat 32 (s.run.state.code * 2 ^ 29 + b2n (s.run.state = .halted && s.run.resumable) * 2 ^ 28 +
    first * 2 ^ 24 + s.run.causes.toNat)

/-- PRF_STAT (R501). -/
def State.prfStatNow (s : State) : Word :=
  let code := match s.prf.state with
    | .idle => 0 | .saving => 1 | .restoring => 2 | .replaying => 3
  BitVec.ofNat 32 (code * 2 ^ 30 + b2n s.prf.cur.isSome * 2 ^ 29 + b2n s.prf.prev.isSome * 2 ^ 28 +
    b2n s.whyUnprot.isSome * 2 ^ 27 + s.whyUnprot.getD 0 % 8 * 2 ^ 24 + min 0xFFFF s.prf.recoveries)

/-- PRF_LOG in MiB, rounded up (R501). -/
def State.prfLogNow (s : State) : Word :=
  BitVec.ofNat 32 (min 0xFFFF (ceilDiv (128 * s.prf.undo.length) (2 ^ 20)) * 2 ^ 16 +
    min 0xFFFF (ceilDiv (32 * s.prf.input.length) (2 ^ 20)))

/-- FLS_STAT and FLS_WEAR[n] (R503). -/
def State.flsStatNow (s : State) : Word :=
  let f := s.flash
  BitVec.ofNat 32 (b2n f.readonly * 2 ^ 31 + b2n (8192 ≤ f.repairMap.length) * 2 ^ 30 +
    f.spares.length % 8 * 2 ^ 27 + f.retiredSectors.length % 128 * 2 ^ 20 + f.repairMap.length % 2 ^ 14)
def State.flsWearNow (s : State) (n : Nat) : Word :=
  let f := s.flash
  let l := f.logical n
  BitVec.ofNat 32 (b2n (n ∈ f.retiredSectors) * 2 ^ 31 + b2n l.isSome * 2 ^ 30 + l.getD 0 * 2 ^ 24 +
    Table.get (fun _ => 0) f.erases n)

/-- Registers of the GLB and PWR pages that the state gives. -/
def State.viewGlb (s : State) (r : Reg) (i : Nat) : Option Word :=
  match r with
  | .glbIdent => some (BitVec.ofNat 32 (0x91280000 + s.fuses.tgc % 256 * 2 ^ 8 + s.fuses.stepping.toNat))
  | .glbGrade => some (BitVec.ofNat 32 (s.fuses.deviceId.toNat * 2 ^ 16 + s.fuses.active % 256 * 2 ^ 8 +
      s.fuses.sclk % 256))
  | .glbUidLo => some (lo32 s.fuses.uid)
  | .glbUidHi => some (hi32 s.fuses.uid)
  | .glbClkStat => some s.clkStat
  | .glbAonPeriod => some (if s.tim.ref then Config.aonPeriod s.sup.ns else 0)
  | .glbSpareStat => some (setBits (s.rd .glbSpareStat) 23 16 s.fuses.active)
  | .glbVecSrc => some (s.vecSrc i)
  | .glbChainId => some s.chainId
  | .pwrLimits => some s.pwrLimitsNow
  | .pwrLevel => some (BitVec.ofInt 32 (s.led.level / 1000000))
  | .pwrEst => some (BitVec.ofNat 32 s.pwrEstNow)
  | .pwrLast => some (BitVec.ofNat 32 s.led.last)
  | .pwrUncore => some (BitVec.ofNat 32 (min 0x3FFF (s.pU * 16 / 1000000)))
  | .pwrCoef => some (Table.get (fun _ => (0 : Word)) s.fuses.coef i)
  | .pwrThStat => some s.thStat
  | .pwrThSensor => some (s.thSensor i)
  | .pwrVdio => some s.vdioNow
  | .pwrVdioStat => some (s.sup.vdioOn.setWidth 32)
  | .flsStat => some s.flsStatNow
  | .flsWear => some (s.flsWearNow i)
  | .bstStat => some (setBits (s.rd .bstStat) 7 0 s.sup.nextSlice)
  | _ => none

/-- Registers of the remaining pages that the state gives. -/
def State.viewRest (s : State) (r : Reg) (i : Nat) : Option Word :=
  match r with
  | .tilDpDepth => some (BitVec.ofNat 32 (s.depthNow i))
  | .ldrStat => some s.ldrStatNow
  | .ldrFrames => some (BitVec.ofNat 32 (s.ldr.frames % 2 ^ 18))
  | .ldrStage => some s.ldrStage
  | .svcStoreOrd => some (BitVec.ofNat 32 s.poolUsed)
  | .svcStoreRsv => some (BitVec.ofNat 32 (s.internalUsed * 2 ^ 16 + s.queueUsed 1 * 2 ^ 8 + s.queueUsed 0))
  | .svcLevel => some (s.svcLevelNow i)
  | .svcEngMap => some s.engMap
  | .svcEngStat => some (s.engStat i)
  | .svcCacheStat => some (BitVec.ofNat 32 (s.svc.cache.filter fun c => c.dirty).length)
  | .svcHqStat => some (setBits (s.rd .svcHqStat i) 22 16 (s.queueUsed i))
  | .svcXchStat => some (BitVec.ofNat 32 (s.parkedOn i * 2 ^ 16))
  | .memLstat => some s.lstat
  | .memChPpr => some (s.chPpr i)
  | .encSlotStat => some (s.slotStat i)
  | .encBgStat => some s.bgStat
  | .encBgBoundLo => some (lo32 s.enc.bound &&& 0xFFFFFFC0)
  | .encBgBoundHi => some (hi32 s.enc.bound)
  | .encKeyData => some 0
  | .timOutStat => some s.outStat
  | .timOutOffset => some (satInt 32 s.tim.eOut)
  | .timDomStat => some (s.domStat i)
  | .timDomOffset => some (satInt 32 (s.dom i).lastE)
  | .timDomRate => some (satInt 32 (s.dom i).rate)
  | .timVl2 => some s.vl2Now
  | .acqStat => some s.acqStatNow
  | .acqLarder => some s.acqLarderNow
  | .runStat => some s.runStatNow
  | .wdgStat => some (setBit (s.rd .wdgStat) 30 s.wdgFrozen)
  | .wdgRemain => some (BitVec.ofNat 32 (min 0xFFFFFFFF (s.run.wdgNs / 1000)))
  | .prfStat => some s.prfStatNow
  | .prfCurLo => some (lo32 ((s.prf.cur.map (·.batch)).getD 0))
  | .prfCurHi => some (hi32 ((s.prf.cur.map (·.batch)).getD 0))
  | .prfPrevLo => some (lo32 ((s.prf.prev.map (·.batch)).getD 0))
  | .prfPrevHi => some (hi32 ((s.prf.prev.map (·.batch)).getD 0))
  | .prfLog => some s.prfLogNow
  | _ => none

/-- The value of register r at indices i, j, k, without a side effect. -/
def State.view (s : State) (r : Reg) (i j k : Nat) : Word :=
  match s.viewGlb r i with
  | some w => w
  | none =>
    match s.viewRest r i with
    | some w => w
    | none => ((s.tile i).view r j).getD (s.rd r i j k)

/-! ## Reads (R42, R45, R46, R462) -/

/-- A register with an RS field read through its own row: the row's outcome. -/
def State.rsRead (s : State) (r : Reg) (i j k : Nat) (via : Via) : Option Out :=
  match r with
  | .tilDpStall => some (execTilDpStallRead i via s)
  | .tilPrbMarks => some (execTilPrbMarksRead i via s)
  | .tilWinData => some (execTilWinRead i (8 + j) k s)
  | .svcHqCpl => some (execSvcHqCplRead i via s)
  | .svcEngItems => some (execSvcEngItemsRead i via s)
  | .pwrPaceHolds => some (execPwrPaceHoldsRead via s)
  | .pwrPaceTime => some (execPwrPaceTimeRead via s)
  | .memChCe => some (execMemChCeRead i via s)
  | .nocFwd => some (execNocFwdRead via s)
  | .lnkCntA => some (execLnkCntRead i false via s)
  | .lnkCntB => some (execLnkCntRead i true via s)
  | .lnkLaneErr => some (execLnkLaneErrRead i j via s)
  | .timNowLo => some (execTimNowRead via s)
  | .timPaceOverrun => some (execTimPaceOverrunRead via s)
  | .timCapPop => some (execTimCapPop via s)
  | .timCapStat => some (execTimCapStatRead via s)
  | .acqDropped => some (execAcqDroppedRead via s)
  | .acqExtLost => some (execAcqExtLostRead via s)
  | .runBatchLo => some (execRunBatchRead via s)
  | .runAcmpCount => some (execRunAcmpCountRead i via s)
  | .criStat => some (execCriStatRead via s)
  | .prfDiscard => some (execPrfDiscardRead via s)
  | _ => none

/-- The MSI-X table and pending-bit array: mask bit and pending bits as they stand. -/
def State.msixRead (s : State) (a : Nat) : Word :=
  if a < 0xAD000 then
    if a % 16 = 12 then setBit (s.reg a) 0 (decide ((a - 0xAC000) / 16 ∈ s.host.masked)) else s.reg a
  else if 0xAD020 ≤ a then 0
  else
    let w := (a - 0xAD000) / 4
    BitVec.ofNat 32 (((List.range 32).map fun b => b2n (decide (32 * w + b ∈ s.host.pendingBits)) * 2 ^ b).sum)

/-- What BAR0 offset a names: a register page's address with virtual tiles resolved, the MSI-X structures,
a virtual tile that none serves, or nothing (R41, R45). -/
inductive Target where
  | reg (a : Nat)
  | msix (a : Nat)
  | unserved
  | unmapped
  deriving DecidableEq, Repr

/-- The target of a BAR0 offset. -/
def State.target (s : State) (a : Nat) : Target :=
  if 0x2000000 ≤ a ∧ a < 0x2800000 then
    match s.ptile ((a - 0x2000000) / 0x10000) with
    | some t => .reg (tilePage t 0 + a % 0x10000)
    | none => .unserved
  else if 0xAC000 ≤ a ∧ a < 0xAD000 then .msix a
  else if 0xAD000 ≤ a ∧ a < 0xAE000 then .msix a
  else if pageExists (a / 0x1000 * 0x1000) then .reg a
  else .unmapped

/-- One 32-bit register read at a BAR0 offset: the value and the state after its side effects. The data
that a PCIe read returned before stay as they are. -/
def State.readReg (s : State) (a : Nat) (via : Via) : Word × State :=
  match s.target a with
  | .msix a => (s.msixRead a, s)
  | .reg a =>
    let p := a / 0x1000 * 0x1000
    let o := a % 0x1000
    if o < 0x40 then (s.headRead p o, s)
    else if isTilePage p && (s.tile ((p - 0x1000000) / 0x10000)).power ≠ .on then (0, s)
    else
      match regAt a with
      | none => (0, s)
      | some (r, i, j, k) =>
        match s.rsRead r i j k via with
        | some (.next t) =>
          (t.host.readData.headD 0, { t with host := { t.host with
            readData := s.host.readData, ur := s.host.ur, ca := s.host.ca } })
        | some _ => (0, s)
        | none => (s.view r i j k, s)
  | _ => (0, s)

/-! ## Reads through the two views (R38 to R41, R44, R45) -/

/-- An access to a virtual tile's alias that was resolved to a tile before the device replaced it: the tile is
retired (R45). -/
def State.aliasRetired (s : State) (off : Nat) (early : Option Nat) : Bool :=
  decide (0x2000000 ≤ off) && decide (off < 0x2800000) &&
    early.any fun t => decide (t < numTiles) && (s.tile t).retired

/-- What a 32-bit read at an offset of BAR0 or BAR4 returns. -/
def State.readBar (s : State) (bar4 : Bool) (off : Nat) (early : Option Nat) : Word × State :=
  if s.aliasRetired off early then (0, s.err pciPage 0x9005 off)
  else
    match s.target off with
    | .reg a => if bar4 && !userPage off then (0, s) else s.readReg a (if bar4 then .bar4 else .bar0)
    | .msix a => if bar4 then (0, s) else (s.msixRead a, s)
    | _ => (0, s)

/-- The PCIe link carries memory requests: training has ended, and PERST_N is released (R513). -/
def State.linkUp (s : State) : Bool := s.sup.pcieUp

/-- The base address of BAR0 or BAR4. -/
def State.barBase (s : State) (bar4 : Bool) : DWord := if bar4 then s.host.cfg.bar4 else s.host.cfg.bar0

/-- A read that the device answers with Unsupported Request. -/
def State.readUnsupported (s : State) (bar4 : Bool) (off : Nat) : State :=
  let s := s.unsupported (s.barBase bar4) off
  { s with host := { s.host with readData := [], ca := false } }

/-- A read through a BAR: 32 or 64 bits, naturally aligned, two registers from the lower address on; any other
size or alignment, a 64-bit read of LDR_DATA, and every read in D3hot is an Unsupported Request. While the link is
down no request arrives. -/
def State.barRead (s : State) (bar4 : Bool) (off size : Nat) (early : Option Nat) : State :=
  if !s.linkUp then s
  else
  let s : State := { s with host := { s.host with cfg := { s.host.cfg with l1 := false } } }
  if s.host.cfg.d3hot || (off = 0x606C && size = 8) then s.readUnsupported bar4 off
  else if !s.reachable then s.answer (List.replicate (size / 4) 0)
  else if size = 4 && off % 4 = 0 then
    let r := s.readBar bar4 off early
    r.2.answer [r.1]
  else if size = 8 && off % 8 = 0 then
    let lo := s.readBar bar4 off early
    let hi := lo.2.readBar bar4 (off + 4) early
    hi.2.answer [lo.1, hi.1]
  else s.readUnsupported bar4 off

/-- A base address register: bits of a 64-bit memory BAR below its size read as the type, 4, and the
prefetchable bit (R39). -/
def barWord (base : DWord) (log2 : Nat) (pref : Bool) (hi : Bool) : Word :=
  let w : DWord := base >>> log2 <<< log2 ||| BitVec.ofNat 64 (4 + 8 * b2n pref)
  if hi then hi32 w else lo32 w

/-- log2 of a size over 128 bytes, as Device Control codes payloads and read requests. -/
def sizeCode (n : Nat) : Nat := ((List.range 6).find? fun k => n ≤ 128 * 2 ^ k).getD 5

/-- A word of the configuration space: vendor and device ID, class code and revision, the three BARs (R35, R39), and
the capabilities that R35 lists: power management with D3hot, MSI-X with 256 vectors, PCI Express with payloads of up
to 512 bytes, 10-bit tags, ASPM L1 and five speeds on x16, and AER. Their places are those of PCI Express 5.0
(assumption 66). -/
def State.configWord (s : State) (off : Nat) : Word :=
  let c := s.host.cfg
  let log (k : Nat) : Word := c.headerLog.getD k 0
  match off with
  | 0x00 => BitVec.ofNat 32 (s.fuses.deviceId.toNat * 2 ^ 16 + Config.vendorId.toNat)
  | 0x04 => 0x00100000
  | 0x08 => BitVec.ofNat 32 (0x120000 * 2 ^ 8 + s.fuses.stepping.toNat)
  | 0x10 => barWord c.bar0 26 false false
  | 0x14 => barWord c.bar0 26 false true
  | 0x18 => barWord c.bar2 36 true false
  | 0x1C => barWord c.bar2 36 true true
  | 0x20 => barWord c.bar4 26 false false
  | 0x24 => barWord c.bar4 26 false true
  | 0x34 => 0x40
  | 0x40 => 0x00035001
  | 0x44 => BitVec.ofNat 32 (8 + 3 * b2n c.d3hot)
  | 0x50 => BitVec.ofNat 32 (0x80FF0000 + b2n s.host.fnMask * 2 ^ 30 + 0x7011)
  | 0x54 => 0x000AC000
  | 0x58 => 0x000AD000
  | 0x70 => 0x00020010
  | 0x74 => 0x00008022
  | 0x78 => BitVec.ofNat 32 (sizeCode c.maxRead * 2 ^ 12 + 0x0810 + sizeCode c.maxPayload * 2 ^ 5)
  | 0x7C => 0x00000905
  | 0x80 => BitVec.ofNat 32 (c.width % 64 * 2 ^ 20 + c.speed % 16 * 2 ^ 16 + 2 * b2n c.aspm)
  | 0x94 => 0x00030000
  | 0x9C => 0x0000003E
  | 0x100 => 0x00020001
  | 0x104 => c.uncStatus
  | 0x108 => c.uncMask
  | 0x110 => c.corStatus
  | 0x114 => c.corMask
  | 0x11C => log 0
  | 0x120 => log 1
  | 0x124 => log 2
  | 0x128 => log 3
  | _ => 0

/-- How a configuration request ends: with a word, with Request Retry Status, or not at all while the link is
down. -/
inductive CfgAnswer where
  | data (w : Word) | retry | silent
  deriving DecidableEq, Repr

/-- A configuration read (R38, R510, R513): it answers in an integrity halt and in a warm reset too, with Request
Retry Status until 20 ms after training began. -/
def State.configRead (s : State) (off : Nat) : CfgAnswer :=
  if s.sup.pcieUp then .data (s.configWord off) else if s.sup.pcieRetry then .retry else .silent

end Sys2Proof.Machine
end

