-- ==== Sys2Proof/Machine/RegWrite.lean ====
section
/-! DEFINITION. Writes of registers through the two views of the map (R40 to R46, R142, R425): each register's
own row where it has one, else its writable bits. -/

namespace Sys2Proof.Machine

/-- The state after a command, or the same state when it stops. -/
def Out.orStay (s : State) : Out → State
  | .next t => t
  | _ => s

/-- A command carried out on a state. -/
def State.andThen (s : State) (f : State → Out) : State := (f s).orStay s

/-- A register's writable bits stored. -/
def State.store (s : State) (a : Nat) (mask v : Word) : State :=
  s.setReg a ((s.reg a &&& ~~~mask) ||| (v &&& mask))

/-- Stored as the map's row says. -/
def State.storeRow (s : State) (r : Reg) (a : Nat) (v : Word) : State := s.store a r.row.mask v

/-! ## Registers with a write of their own -/

/-- GLB_RST_CMD: WARM goes before SHUTDOWN (R520). -/
def State.writeRstCmd (s : State) (v : Word) : State :=
  if rstKey v && !bit v 0 && bit v 1 then s.andThen (execShutdown v) else s.andThen (execWarmReset false v)

/-- RUN_CMD: several bits are one refused write (R455). -/
def State.writeRunCmd (s : State) (v : Word) : State :=
  if bit v 0 then s.andThen (execRunCmdRun v)
  else if bit v 1 then s.andThen (execRunCmdHalt v)
  else s.andThen (execRunCmdStep v)

/-- Registers of the GLB, FLS, BST, RUN, WDG, CRI and PRF pages. -/
def State.writeCtl (s : State) (r : Reg) (i a : Nat) (v : Word) : Option State :=
  match r with
  | .glbRstCmd => some (s.writeRstCmd v)
  | .flsBootCmd => some ((s.andThen (execFlsBootCommit v)).andThen (execFlsBootReload v))
  | .bstCmd => some (s.andThen (execBstStart v))
  | .runCmd => some (s.writeRunCmd v)
  | .runBcmpCtrl => some (s.andThen (execRunBcmpCtrlWrite i v))
  | .runAcmpCtrl => some (s.andThen (execRunAcmpCtrlWrite i v))
  | .wdgCfg => some (s.andThen (execWdgCfgWrite v))
  | .wdgKick => some (s.andThen (execWdgKick v))
  | .criVal => some (s.andThen (execCriValWrite i v))
  | .prfCtrl => some (s.andThen (execPrfCtrlWrite v))
  | .prfCmd =>
    some (((s.andThen (execPrfCmdSave v)).andThen (execPrfCmdRestore v)).andThen (execPrfCmdRestorePrev v))
  | .prfBaseLo => some (s.writePrfArea r 0x44 v r.row.mask)
  | .prfBaseHi => some (s.writePrfArea r 0x48 v r.row.mask)
  | .prfSize => some (s.writePrfArea r 0x4C v r.row.mask)
  | .pwrLedgerCfg => some (s.storeRow r a v).rebudget
  | .pwrHostCap => some (s.storeRow r a v).rebudget
  | _ => none

/-- A register latched by a load: LD_CFG_BUSY while one is in progress (R180, R190). -/
def State.writeLatched (s : State) (r : Reg) (a : Nat) (v : Word) : State :=
  if s.loading then s.cfgBusy (a % 0x1000) else s.storeRow r a v

/-- GLB_VMAP[v]: from HEADER to COMMIT the entries below REQ_TILES take no write; in HEADER, before REQ_TILES has come,
every entry may be one of them (R190; assumption 15). -/
def State.writeVmap (s : State) (v a : Nat) (w : Word) : State :=
  if s.loading && (s.ldr.state = .header || decide (v < s.hdr.reqTiles)) then s.cfgBusy (a % 0x1000)
  else s.storeRow .glbVmap a w

/-- SVC_XCH_SIZE: a LOG2 outside 4 to 16 is 4, and the field of a ring with EN 1 stands (R245). -/
def State.writeXchSize (s : State) (c : Nat) (v : Word) : State :=
  let log (hi lo : Nat) : Nat := let l := bits v hi lo; if 4 ≤ l ∧ l ≤ 16 then l else 4
  let s := if bit (s.rd .svcXoutBaseLo c) 0 then s else s.setFld .svcXchSize 4 0 (log 4 0) c
  if bit (s.rd .svcXinBaseLo c) 0 then s else s.setFld .svcXchSize 20 16 (log 20 16) c

/-- SVC_CACHE_CTRL: its RW fields, and FLUSH. -/
def State.writeCacheCtrl (s : State) (a : Nat) (v : Word) : State :=
  if bit v 31 then s.andThen (execSvcCacheFlush v) else s.storeRow .svcCacheCtrl a v

/-- Registers of the LDR, SVC, PCI and ownership pages. -/
def State.writeData (s : State) (r : Reg) (i j a : Nat) (v : Word) : Option State :=
  match r with
  | .ldrDevmap => some (s.writeLatched r a v)
  | .ldrMbaseLo => some (s.writeLatched r a v)
  | .ldrMbaseHi => some (s.writeLatched r a v)
  | .ldrFirstLo => some (s.writeLatched r a v)
  | .ldrFirstHi => some (s.writeLatched r a v)
  | .ldrShadowLo => some (s.writeLatched r a v)
  | .ldrShadowHi => some (s.writeLatched r a v)
  | .ldrStage => some (s.writeLatched r a v)
  | .glbVmap => some (s.writeVmap i a v)
  | .ldrCtrl => some (s.writeLdrCtrl v)
  | .ldrCmd => some ((s.andThen (execLdrCmdAbort v)).andThen (execLdrCmdClear v))
  | .ldrData => some (s.andThen (execLdrDataWrite 4 (v.setWidth 64)))
  | .svcHqSubmit => some (s.andThen (execSvcHqSubmit i v))
  | .svcXoutPtr => some (s.andThen (execSvcXoutPtrWrite i v))
  | .svcXinPtr => some (s.andThen (execSvcXinPtrWrite i v))
  | .svcXoutBaseLo => some (s.writeRingLo r .svcXoutPtr i v)
  | .svcXinBaseLo => some (s.writeRingLo r .svcXinPtr i v)
  | .svcXoutBaseHi => some (if bit (s.rd .svcXoutBaseLo i) 0 then s else s.storeRow r a v)
  | .svcXinBaseHi => some (if bit (s.rd .svcXinBaseLo i) 0 then s else s.storeRow r a v)
  | .svcXchSize => some (s.writeXchSize i v)
  | .svcCacheCtrl => some (s.writeCacheCtrl a v)
  | .pciPorterRingLo => some (s.writeRing r i v)
  | .pciPorterRingHi => some (s.writeRing r i v)
  | .pciPorterRingSize => some (s.writeRing r i v)
  | .pciPorterTail => some (s.andThen (execPciPorterTailWrite i v))
  | .memLown => some (s.andThen (execOwnHandover true 0 i v))
  | .tilPanOwn => some (s.andThen (execOwnHandover false i j v))
  | _ => none

/-- ENC_BG_FIRST, LAST or SLOTS: dropped with ENC_BUSY unless STATE is IDLE (R341). -/
def State.writeBgSetup (s : State) (r : Reg) (a : Nat) (v : Word) : State :=
  if s.enc.bg = .idle then s.storeRow r a v else s.encBusy 3 (a % 0x1000)

/-- Registers of the ENC, NOC and LNK pages. -/
def State.writeFabric (s : State) (r : Reg) (i a : Nat) (v : Word) : Option State :=
  match r with
  | .encCarve => some (s.andThen (execEncCarveWrite v))
  | .encKeyData => some (s.putKeyData i v)
  | .encKeyCmd =>
    some (((s.andThen (execEncKeyLoad v)).andThen (execEncKeyInvalidate v)).andThen (execEncKeyNoOp v))
  | .encRgnBase => some (s.writeRgnBound r 0x40 i v)
  | .encRgnLimit => some (s.writeRgnBound r 0x44 i v)
  | .encRgnCtrl => some (s.andThen (execEncRgnCtrlWrite i v))
  | .encBgFirst => some (s.writeBgSetup r a v)
  | .encBgLast => some (s.writeBgSetup r a v)
  | .encBgSlots => some (s.writeBgSetup r a v)
  | .encBgCmd => some ((s.andThen (execEncBgStart v)).andThen (execEncBgRelease v))
  | .nocRtLo => some (s.andThen (execNocRtWrite false i v))
  | .nocRtHi => some (s.andThen (execNocRtWrite true i v))
  | .lnkCfg => some (s.andThen (execLnkCfgWrite i v))
  | _ => none

/-- The schedule's registers: dropped with TIM_BUSY while the run state is RUN (R402). -/
def State.writeSched (s : State) (r : Reg) (a : Nat) (v : Word) : State :=
  if s.run.state = .run then s.timBusy 0 (a % 0x1000) else s.storeRow r a v

/-- TIM_TSYNC: dropped with TIM_BUSY while a domain follows TSYNC (R413). -/
def State.writeTsync (s : State) (a : Nat) (v : Word) : State :=
  if s.domSource 0 = 2 || s.domSource 1 = 2 then s.timBusy 0 0x6C else s.storeRow .timTsync a v

/-- TIM_DOM_RATE: dropped with TIM_BUSY unless SOURCE is MASTER (R414). -/
def State.writeDomRate (s : State) (d : Nat) (v : Word) : State :=
  if s.domSource d = 3 then s.setDom d { s.dom d with rate := v.toInt }
  else s.timBusy 0 (0x8C + 16 * d)

/-- TIM_TRG_CFG: a write of VL2, which each write of the register is, needs TIM_VL2.STATE IDLE (R416). -/
def State.writeTrgCfg (s : State) (a : Nat) (v : Word) : State :=
  if s.tim.vl2 ≠ .idle then s.timBusy 1 0x40
  else s.storeRow .timTrgCfg a v

/-- TIM_TRG_CMD: CAL, then FIRE. -/
def State.writeTrgCmd (s : State) (v : Word) : State :=
  let s := if bit v 11 then s.andThen (execTrgCal (bits v 10 8)) else s
  s.andThen (execTrgFire (v.extractLsb' 16 8))

/-- TIM_VL2: the RW fields, then ARM, DISARM and FIRE. -/
def State.writeVl2 (s : State) (v : Word) : State :=
  (((s.vl2Fields v).andThen (execVl2Arm v)).andThen (execVl2Disarm v)).andThen (execVl2Fire v)

/-- Registers of the TIM pages. -/
def State.writeTim (s : State) (r : Reg) (i a : Nat) (v : Word) : Option State :=
  match r with
  | .timCmd => some ((s.andThen (execTimCmdSet v)).andThen (execTimCmdReacq v))
  | .timTsync => some (s.writeTsync a v)
  | .timDomCfg => some (s.andThen (execTimDomCfgWrite i v))
  | .timDomRate => some (s.writeDomRate i v)
  | .timSchedLo => some (s.writeSched r a v)
  | .timSchedHi => some (s.writeSched r a v)
  | .timSchedCtrl => some (s.writeSched r a v)
  | .timPacePerNs => some (s.writeSched r a v)
  | .timPacePerFr => some (s.writeSched r a v)
  | .timTrgCfg => some (s.writeTrgCfg a v)
  | .timTrgCmd => some (s.writeTrgCmd v)
  | .timTrgDelay => some (s.setReg a (v &&& 0xFFF))
  | .timVl2 => some (s.writeVl2 v)
  | _ => none

/-- Whether a register of acquisition page 0 is settled while the engine is armed (R425). -/
def acqSetting (r : Reg) : Bool :=
  match r with
  | .acqCtrl => true
  | .acqSegCfg => true
  | .acqSegMax => true
  | .acqSpillBaseLo => true
  | .acqSpillBaseHi => true
  | .acqSpillSize => true
  | .acqDirBaseLo => true
  | .acqDirBaseHi => true
  | _ => false

/-- ACQ_CMD: ARM, then STOP. -/
def State.writeAcqCmd (s : State) (v : Word) : State := (s.andThen (execAcqArm v)).andThen (execAcqStop v)

/-- A tile register that the host writes only while the device is halted (R142). -/
def State.writeHaltedOnly (s : State) (r : Reg) (t a : Nat) (v : Word) : State :=
  if s.isHalted then s.storeRow r a v else s.tileErr t 1 0x1017 (a % 0x1000)

/-- Entry e of a tile's destination table: one half of it written, while the device is halted (R151). -/
def State.writeDest (s : State) (hi : Bool) (t e a : Nat) (v : Word) : State :=
  if s.isHalted then
    s.modTile t fun x =>
      let old := x.destEntry e
      let d : DWord := if hi then join32 (v &&& 0xC0000000) (lo32 old) else join32 (hi32 old) (v &&& 0xFFFFFFFE)
      { x with dest := Table.set (fun _ => 0) x.dest e d }
  else s.tileErr t 1 0x1017 (a % 0x1000)

/-- Registers of the ACQ and tile pages. -/
def State.writeRest (s : State) (r : Reg) (i j k a : Nat) (v : Word) : Option State :=
  match r with
  | .acqCmd => some (s.writeAcqCmd v)
  | .acqSpillHost => some (s.andThen (execAcqSpillHostWrite v))
  | .tilWaitLimit => some (s.writeHaltedOnly r i a v)
  | .tilRestLimit => some (s.writeHaltedOnly r i a v)
  | .tilDestLo => some (s.writeDest false i j a v)
  | .tilDestHi => some (s.writeDest true i j a v)
  | .tilWinData => some (s.andThen (execTilWinWrite i (8 + j) k v))
  | _ => if s.acqArmed && acqSetting r then some (s.err acqPage 0x5101 (a % 0x10000)) else none

/-- A write of register r at address a: through its own row where it has one, else its writable bits. -/
def State.writeReg (s : State) (r : Reg) (i j k a : Nat) (v : Word) : State :=
  match s.writeCtl r i a v with
  | some t => t
  | none =>
    match s.writeData r i j a v with
    | some t => t
    | none =>
      match s.writeFabric r i a v with
      | some t => t
      | none =>
        match s.writeTim r i a v with
        | some t => t
        | none =>
          match s.writeRest r i j k a v with
          | some t => t
          | none => s.storeRow r a v

/-! ## The common header (R47, R48) -/

/-- PG_CTRL written: SRST alone when it is 1; else PEEK and HALT_FREEZE are stored and EN acts. -/
def State.writePgCtrl (s : State) (p : Nat) (v : Word) : State :=
  if bit v 1 then s.andThen (execPageReset p)
  else
    let s := s.store (p + 4) 0xC v
    if bit v 0 = s.pageEn p then s
    else if bit v 0 then s.enablePage p
    else s.disablePage p

/-- A header register written; reserved offsets and RO registers take nothing. -/
def State.writeHeader (s : State) (p o : Nat) (v : Word) : State :=
  match o with
  | 0x04 => s.writePgCtrl p v
  | 0x0C => s.andThen (execPgIntStatWrite p v)
  | 0x10 => s.andThen (execPgIntEnWrite p v)
  | 0x14 => s.setReg (p + 0x14) (v &&& 0xFF)
  | 0x20 => s.andThen (execPgErrClr p v)
  | _ => s

/-- A write at an address of a page: dropped while SRST is 1, but for PG_ERR_CLR, on a page that is locked (R425),
and on a tile that sleeps, but for the header. -/
def State.writeAt (s : State) (a : Nat) (v : Word) : State :=
  let p := a / 0x1000 * 0x1000
  let o := a % 0x1000
  let t := (p - 0x1000000) / 0x10000
  if s.srst p && o ≠ 0x20 then s
  else if s.pageLocked p then s.lockedWrite p o
  else if o < 0x40 then s.writeHeader p o v
  else if isTilePage p && (s.tile t).power ≠ .on then s.asleepErr t (p % 0x10000 / 0x1000) o
  else
    match regAt a with
    | none => s
    | some (r, i, j, k) => s.writeReg r i j k a v

/-! ## The views (R40, R41, R44, R45) -/

/-- A write of the MSI-X table: the mask bit, or the message's address and data; the pending-bit array takes
none. -/
def State.writeMsix (s : State) (a : Nat) (v : Word) : State :=
  if 0xAD000 ≤ a then s
  else if a % 16 = 12 then
    let n := (a - 0xAC000) / 16
    if bit v 0 then
      if n ∈ s.host.masked then s
      else { s with host := { s.host with masked := s.host.masked ++ [n] } }
    else s.unmaskVec n
  else s.setReg a v

/-- A 32-bit write at an offset of BAR0 or BAR4. -/
def State.writeBar (s : State) (bar4 : Bool) (a : Nat) (early : Option Nat) (v : Word) : State :=
  if s.aliasRetired a early then s.err pciPage 0x9005 a
  else
    match s.target a with
    | .unmapped => s.err pciPage 0x9002 (a + (if bar4 then 2 ^ 31 else 0))
    | .unserved => s.err pciPage 0x9006 a
    | .msix a => if bar4 then s.err pciPage 0x9001 a else s.writeMsix a v
    | .reg b => if bar4 && !userPage a then s.err pciPage 0x9001 a else s.writeAt b v

/-- A write of one or two registers, or of LDR_DATA; any other size or alignment, and every write in D3hot, is
an Unsupported Request. -/
def State.writeAccess (s : State) (bar4 : Bool) (off size : Nat) (early : Option Nat) (data : DWord) : State :=
  let s : State := { s with host := { s.host with cfg := { s.host.cfg with l1 := false } } }
  let ok : State := { s with host := { s.host with ur := false, ca := false } }
  let bad := s.unsupported (s.barBase bar4) off
  if s.host.cfg.d3hot then bad
  else if !bar4 && off = 0x606C && size = 8 then ok.andThen (execLdrDataWrite 8 data)
  else if size = 4 && off % 4 = 0 then ok.writeBar bar4 off early (lo32 data)
  else if size = 8 && off % 8 = 0 then
    (ok.writeBar bar4 off early (lo32 data)).writeBar bar4 (off + 4) early (hi32 data)
  else bad

/-! ## The configuration space (R35, R39; assumption 66) -/

/-- The low or the high word of a base address replaced; the bits below the size stay 0. -/
def setBase (base : DWord) (log2 : Nat) (hi : Bool) (w : Word) : DWord :=
  let b : DWord := if hi then w.setWidth 64 <<< 32 ||| (lo32 base).setWidth 64
    else (hi32 base).setWidth 64 <<< 32 ||| w.setWidth 64
  b >>> log2 <<< log2

/-- A power state written to the function: D0 or D3hot; any other is not supported and changes nothing. -/
def PciCfg.setPower (c : PciCfg) (n : Nat) : PciCfg :=
  if n = 0 then { c with d3hot := false } else if n = 3 then { c with d3hot := true } else c

/-- Payload and read request sizes from their codes; a code that the table of R35 does not allow changes nothing. -/
def PciCfg.setSizes (c : PciCfg) (mps mrrs : Nat) : PciCfg :=
  { c with
    maxPayload := if mps ≤ 2 then 128 * 2 ^ mps else c.maxPayload
    maxRead := if mrrs ≤ 5 then 128 * 2 ^ mrrs else c.maxRead }

/-- A word of the configuration space as a write leaves it: `v` is its new value, of which the bits in `m` were
written. -/
def PciCfg.write (c : PciCfg) (off : Nat) (m v : Word) : PciCfg :=
  match off with
  | 0x10 => { c with bar0 := setBase c.bar0 26 false v }
  | 0x14 => { c with bar0 := setBase c.bar0 26 true v }
  | 0x18 => { c with bar2 := setBase c.bar2 36 false v }
  | 0x1C => { c with bar2 := setBase c.bar2 36 true v }
  | 0x20 => { c with bar4 := setBase c.bar4 26 false v }
  | 0x24 => { c with bar4 := setBase c.bar4 26 true v }
  | 0x44 => c.setPower (bits v 1 0)
  | 0x78 => c.setSizes (bits v 7 5) (bits v 14 12)
  | 0x80 => { c with aspm := bit v 1 }
  | 0x104 => { c with uncStatus := c.uncStatus &&& ~~~(v &&& m) }
  | 0x108 => { c with uncMask := v &&& 0x07FFF030 }
  | 0x110 => { c with corStatus := c.corStatus &&& ~~~(v &&& m) }
  | 0x114 => { c with corMask := v &&& 0xF1C1 }
  | _ => c

/-- A write of `size` bytes at an offset of the configuration space: the function mask of MSI-X, or a field that `cfg`
holds. It works in an integrity halt, in D3hot and in a warm reset too (R38, R510). -/
def State.configWrite (s : State) (off size : Nat) (data : DWord) : State :=
  let o := off / 4 * 4
  let m : Word := BitVec.ofNat 32 ((2 ^ (8 * size) - 1) * 2 ^ (8 * (off % 4)))
  let v := (s.configWord o &&& ~~~m) ||| (BitVec.ofNat 32 (data.toNat * 2 ^ (8 * (off % 4))) &&& m)
  if o = 0x50 then
    if bit v 30 then { s with host := { s.host with fnMask := true } } else s.unmaskFn
  else { s with host := { s.host with cfg := s.host.cfg.write o m v } }

/-- REGISTER_WRITE, of a page or of the configuration space. While the link is down no request arrives (R513). -/
def execRegisterWrite (path : WritePath) (place : RegPlace) (size : Nat) (data : DWord) (s : State) : Out :=
  guardUnit (path.fits place size) (.next (
    match path with
    | .mem bar4 => if s.linkUp && s.reachable then s.writeAccess bar4 place.off size place.early data else s
    | .config => if s.linkUp then s.configWrite place.off size data else s))

end Sys2Proof.Machine
end

