-- ==== Sys2Proof/Machine/Board.lean ====
section
/-! DEFINITION. The board's slow ports: the management chain (R68 to R73), the I²C target (R56, R57) and the
UART console (R58, R59). -/

namespace Sys2Proof.Machine

/-- The AON domain runs: VIN is in range and RST_N is high. -/
def State.aon (s : State) : Bool := s.sup.power ≠ .unpowered && s.sup.power ≠ .coldReset

/-! ## The management chain -/

/-- The number of 1 bits of a byte. -/
def ones (b : Byte) : Nat := ((List.range 8).map fun i => b2n (b.getLsbD i)).sum

/-- The frame that carries an ID: start bit 0, the ID, even parity, stop bit 1 (R69). -/
def chainFrame (id : Byte) : BitVec 11 :=
  BitVec.ofNat 11 (id.toNat * 2 + ones id % 2 * 2 ^ 9 + 2 ^ 10)

/-- An ID taken: VALID, and the first frame 1 µs later when the ID is new. -/
def Chain.take (c : Chain) (id : Byte) : Chain :=
  if c.valid && c.id = id then c else { c with id := id, valid := true, timerNs := 1000 }

/-- CHAIN_HEAD: MCH_IN low for 200 µs since AON start (R70 item 1). -/
def execChainHead (s : State) : Out :=
  whenDue (s.aon && decide (200000 ≤ s.sup.ns) && !s.chain.stable) s
    { s with chain := { s.chain.take (BitVec.ofNat 8 (s.pins.idbase.toNat * 16)) with
        head := true, stable := true, run := 0 } }

/-- A frame is valid: high idle before it, even parity and a stop bit at 1 (R69). -/
def frameValid (f : BitVec 11) (afterIdle : Bool) : Bool :=
  afterIdle && f.getLsbD 10 && decide (b2n (f.getLsbD 9) = ones (f.extractLsb' 1 8) % 2)

/-- Frames in a row that carry an ID, this one included. -/
def Chain.count (c : Chain) (id : Byte) : Nat := if c.run ≠ 0 ∧ c.last = id then c.run + 1 else 1

/-- A valid frame at a device that is not STABLE (R70 items 2 and 4). -/
def State.chainUnstable (s : State) (id : Byte) : State :=
  let n := s.chain.count id
  let c : Chain := { s.chain with run := n, last := id }
  if id = 255 then
    let s : State := { s with chain := { c with valid := false } }
    s.err glbPage 0x0111 255
  else { s with chain := { c.take (id + 1) with stable := decide (8 ≤ n) } }

/-- A valid frame at a STABLE device: only the eighth in a row that carries another ID changes it (R70 items 3
and 4). -/
def State.chainStable (s : State) (id : Byte) : State :=
  if id ≠ 255 ∧ id + 1 = s.chain.id then { s with chain := { s.chain with run := 0 } }
  else
    let n := s.chain.count id
    let c : Chain := { s.chain with run := n, last := id }
    if n < 8 then { s with chain := c }
    else if id = 255 then
      let s : State := { s with chain := { c with run := 0 } }
      s.err glbPage 0x0111 255
    else
      let s : State := { s with chain := { c.take (id + 1) with head := false, run := 0 } }
      s.err glbPage 0x0110 id.toNat

/-- CHAIN_FRAME: 11 bits on MCH_IN, the start bit in bit 0. -/
def execChainFrame (bits : BitVec 11) (afterIdle : Bool) (s : State) : Out :=
  let id : Byte := bits.extractLsb' 1 8
  whenDue (s.aon && !bits.getLsbD 0) s (
    if !frameValid bits afterIdle then
      ({ s with chain := { s.chain with run := 0 } } : State).err glbPage 0x0112 id.toNat
    else if s.chain.stable then s.chainStable id
    else s.chainUnstable id)

/-- CHAIN_FRAME_SEND: the frame timer is at 0 and VALID is 1 (R70 item 5). After the stop bit the line stands
high. -/
def execChainFrameSend (s : State) : Out :=
  whenDue (s.aon && s.chain.valid && s.chain.timerNs = 0) s
    { s with
      pins := { s.pins with mchOut := true }
      chain := { s.chain with sent := s.chain.sent ++ [chainFrame s.chain.id], timerNs := 100000 } }

/-! ## I²C -/

/-- The target answers at an address (R56). -/
def State.i2cAnswers (s : State) (addr : BitVec 7) : Bool :=
  s.aon && s.sup.vioOn && s.chain.valid && decide (addr.toNat = 0x60 + s.chain.id.toNat % 16)

/-- A register access of the I²C target, which no PCIe state holds up (R56, R57). -/
def State.asReachable (s : State) (f : State → Word × State) : Word × State :=
  let r := f { s with sup := { s.sup with power := .running } }
  (r.1, { r.2 with sup := { r.2.sup with power := s.sup.power } })

/-- A transaction that the target does not take. -/
def State.i2cRefuse (s : State) : State := { s with host := { s.host with i2cNack := true } }

/-- The offset bytes taken. -/
def State.i2cSeek (s : State) (off : Nat) : State :=
  { s with host := { s.host with i2cNack := false, i2cOff := off } }

/-- An I²C write: without data it only sets the offset. -/
def State.i2cPut (s : State) (off : Nat) (val : Option Word) : State :=
  let s := s.i2cSeek off
  match val with
  | none => s
  | some v =>
    if off / 0x1000 = 2 then (s.asReachable fun s => (v, s.writeAt off v)).2 else s.i2cRefuse

/-- I2C_WRITE. -/
def execI2cWrite (addr : BitVec 7) (off : BitVec 16) (val : Option Word) (s : State) : Out :=
  .next (if !s.i2cAnswers addr || off.toNat % 4 ≠ 0 then s.i2cRefuse else s.i2cPut off.toNat val)

/-- n registers read from an offset on; offsets are 16 bits wide. -/
def State.i2cGet : Nat → Nat → State → List Word × State
  | 0, _, s => ([], s)
  | n + 1, off, s =>
    let r := s.readReg (off % 0x10000) .i2c
    let q := State.i2cGet n (off + 4) r.2
    (r.1 :: q.1, q.2)

/-- I2C_READ: from the offset given, or from the one set before. -/
def execI2cRead (addr : BitVec 7) (off : Option (BitVec 16)) (n : Nat) (s : State) : Out :=
  let o := (off.map fun o => o.toNat).getD s.host.i2cOff
  if !s.i2cAnswers addr || o % 4 ≠ 0 then .next s.i2cRefuse
  else
    let r := State.i2cGet n o (s.i2cSeek o)
    .next { r.2 with host := { r.2.host with i2cData := r.1 } }

/-! ## UART -/

/-- A status line: S, the offset and the value. -/
def State.statusLine (s : State) (off : Nat) : State :=
  s.sayLine (lineText 0x53 [asciiHex 8 off, asciiHex 8 (s.readReg off .bar0).1.toNat])

/-- UART_QUERY: a byte arrives on RXD. -/
def execUartQuery (b : Byte) (s : State) : Out :=
  whenDue (s.aon && b = 0x3F) s
    ([0x404C, 0x7044, 0x6048, 0x2048].foldl State.statusLine s)

/-- UART_LINE_SENT: the last bit of the line in front has been sent. -/
def execUartLineSent (s : State) : Out :=
  match s.con.lines with
  | [] => .next s
  | l :: rest =>
    whenDue (s.aon && bit (s.rd .glbUartCfg) 31) s
      { s with con := { s.con with lines := rest, txd := s.con.txd ++ l } }

end Sys2Proof.Machine
end

