-- ==== Sys2Proof/Machine/Jtag.lean ====
section
/-! DEFINITION. The JTAG port: TAP instructions, and the register and memory access paths (R462, R465 to R467). -/

namespace Sys2Proof.Machine

/-! ## TAP instructions (R465) -/

/-- The TAP works while the device has power. -/
def State.onTap (s : State) (t : State) : Out := whenDue (s.sup.power ≠ .unpowered) s t

/-- A code in the instruction register; the boundary register lets go of the pins, and TDO is high-impedance once
the code is shifted in (R530). -/
def State.tapCode (s : State) (c : Nat) : State :=
  { s with jtag := { s.jtag with ir := c }, pins := { s.pins with extest := false, tdoOff := true } }

/-- The key store cleared, then an immediate stop of cause JTAG; only a cold reset returns the device to
service. -/
def State.tapStop (s : State) : State :=
  let s := (s.clearKeys true).immediateStop 12
  { s with jtag := { s.jtag with stopped := true } }

/-- An instruction that gives the pins to the boundary register. -/
def State.tapPins (s : State) (c : Nat) : State :=
  let s := (s.tapCode c).tapStop
  { s with pins := { s.pins with extest := true } }

/-- The identification code: stepping, device ID, manufacturer, 1. -/
def State.idcodeNow (s : State) : Word :=
  BitVec.ofNat 32 (s.fuses.stepping.toNat % 16 * 2 ^ 28 + s.fuses.deviceId.toNat * 2 ^ 12 +
    Config.jedecId.toNat * 2 + 1)

/-- TAP_RESET: IDCODE selected, DBG_CFG.PEEK 1. -/
def execTapReset (s : State) : Out :=
  let t := s.tapCode 0x01
  s.onTap { t with jtag := { t.jtag with peek := true } }

/-- BYPASS. -/
def execBypass (s : State) : Out := s.onTap (s.tapCode 0xFF)

/-- IDCODE. -/
def execIdcode (s : State) : Out :=
  let t := s.tapCode 0x01
  s.onTap { t with jtag := { t.jtag with idcode := s.idcodeNow } }

/-- SAMPLE/PRELOAD: the key store is cleared, the run continues. -/
def execSamplePreload (s : State) : Out := s.onTap ((s.tapCode 0x02).clearKeys true)

/-- EXTEST. -/
def execExtest (s : State) : Out := s.onTap (s.tapPins 0x00)

/-- CLAMP. -/
def execClamp (s : State) : Out := s.onTap (s.tapPins 0x03)

/-- HIGHZ. -/
def execHighz (s : State) : Out := s.onTap (s.tapPins 0x04)

/-- SCAN: one of the vendor scan chains. -/
def execScan (s : State) : Out := s.onTap ((s.tapCode 0x20).tapStop)

/-- DBG_CFG. -/
def execDbgCfg (peek : Bool) (s : State) : Out :=
  let t := s.tapCode 0x12
  s.onTap { t with jtag := { t.jtag with peek := peek } }

/-! ## DBG_REG (R466) -/

/-- UNCORE has no power: before the start, after a shutdown, after a trip. -/
def State.uncoreOff (s : State) : Bool :=
  match s.sup.power with
  | .starting => false
  | .running => false
  | .warmReset => false
  | _ => true

/-- The offset and the reason of the last access. -/
def State.dbgEnd (s : State) (addr : BitVec 26) (why : Nat) : State :=
  { s with jtag := { s.jtag with regAddr := addr, regReason := why } }

/-- One 32-bit access through BAR0. -/
def State.dbgAccess (s : State) (write : Bool) (a : Nat) (data : Word) : State :=
  if !s.reachable then (if write then s else { s with jtag := { s.jtag with reg := 0 } })
  else if write then s.writeBar false a none data
  else
    let r := s.readReg a .jtag
    { r.2 with jtag := { r.2.jtag with reg := r.1 } }

/-- DBG_REG: an access at Update-DR with GO. -/
def execDbgReg (go write : Bool) (addr : BitVec 26) (data : Word) (s : State) : Out :=
  let t := s.tapCode 0x10
  s.onTap (
    if !go then t
    else if addr.toNat % 4 ≠ 0 then t.dbgEnd addr 1
    else if t.uncoreOff then t.dbgEnd addr 2
    else (t.dbgAccess write addr.toNat data).dbgEnd addr 0)

/-! ## DBG_MEM (R467) -/

/-- The requester of the JTAG memory path. -/
def reqJtag : Requester := ⟨clsDebug, 14⟩

/-- The status of an access. -/
def State.dbgStatus (s : State) (addr : DWord) (st : Nat) (d : List Byte) : State :=
  { s with jtag := { s.jtag with
      memAddr := addr, memStatus := st, mem := BitVec.ofNat 64 (leNat d) } }

/-- What an access of the encryption engine leaves in the data register; the data of a write stay, and an
integrity failure has no status of its own (assumption 1). -/
def State.dbgResult (s : State) (addr : DWord) (write : Bool) (r : EncRes) : State :=
  let old := leBytes 8 s.jtag.mem.toNat
  match r with
  | .ok d => s.dbgStatus addr 0 (if write then old else d)
  | .refused c => s.dbgStatus addr (c % 16) old
  | .ue _ => s.dbgStatus addr 4 old
  | .integrity =>
    let f := s.free
    f.2.dbgStatus addr (f.1.toNat % 64) old

/-- One 8-byte access through encryption queue 14. -/
def State.dbgMem (s : State) (write : Bool) (ue : Dram) (addr data : DWord) : State :=
  let a := addr.toNat / 8 * 8
  if write then
    let r := s.ddrWrite reqJtag (s.qkey 14) a (leBytes 8 data.toNat) ue
    r.2.dbgResult addr true r.1
  else
    let r := s.ddrRead reqJtag (s.qkey 14) a 8 ue
    r.2.dbgResult addr false r.1

/-- DBG_MEM: an access at Update-DR with GO. With UNCORE off, no engine takes it. -/
def execDbgMem (go write : Bool) (ue : Dram) (addr : DWord) (data : DWord) (s : State) : Out :=
  let t := s.tapCode 0x11
  s.onTap (
    if !go then t
    else if !t.reachable then t.dbgStatus addr 5 (leBytes 8 t.jtag.mem.toNat)
    else t.dbgMem write ue addr data)

end Sys2Proof.Machine
end

