-- ==== Sys2Proof/Machine/Dispatch.lean ====
section
/-! DEFINITION. One arm per command: each is one direct call of its meaning. -/

namespace Sys2Proof.Machine

def exec (i : Instr) (s : State) : Host.Outcome State Fault Refusal :=
  match i with
  | .coldStart vin edges xtal idbase => Sys2Proof.Machine.execColdStart vin edges xtal idbase s
  | .brownOut => Sys2Proof.Machine.execBrownOut s
  | .rstNAsserted => Sys2Proof.Machine.execRstNAsserted s
  | .inputCurrentLimit => Sys2Proof.Machine.execInputCurrentLimit s
  | .vioChange mv => Sys2Proof.Machine.execVioChange mv s
  | .vdioBankChange bank mv => Sys2Proof.Machine.execVdioBankChange bank mv s
  | .warmReset pin value => Sys2Proof.Machine.execWarmReset pin value s
  | .warmResetExit => Sys2Proof.Machine.execWarmResetExit s
  | .perstNAsserted => Sys2Proof.Machine.execPerstNAsserted s
  | .perstNReleased => Sys2Proof.Machine.execPerstNReleased s
  | .pcieRetryWindowEnd => Sys2Proof.Machine.execPcieRetryWindowEnd s
  | .refclkLost => Sys2Proof.Machine.execRefclkLost s
  | .ddrDone probes dimms => Sys2Proof.Machine.execDdrDone probes dimms s
  | .ddrTrainLimit ch stp slot => Sys2Proof.Machine.execDdrTrainLimit ch stp slot s
  | .autoload bytes => Sys2Proof.Machine.execAutoload bytes s
  | .shutdown value => Sys2Proof.Machine.execShutdown value s
  | .chainHead => Sys2Proof.Machine.execChainHead s
  | .chainFrame bits afterIdle => Sys2Proof.Machine.execChainFrame bits afterIdle s
  | .chainFrameSend => Sys2Proof.Machine.execChainFrameSend s
  | .i2cWrite addr off val => Sys2Proof.Machine.execI2cWrite addr off val s
  | .i2cRead addr off n => Sys2Proof.Machine.execI2cRead addr off n s
  | .uartQuery b => Sys2Proof.Machine.execUartQuery b s
  | .uartLineSent => Sys2Proof.Machine.execUartLineSent s
  | .registerWrite path place size data => Sys2Proof.Machine.execRegisterWrite path place size data s
  | .pageDisable page => Sys2Proof.Machine.execPageDisable page s
  | .pageReset page => Sys2Proof.Machine.execPageReset page s
  | .pageResetDone page => Sys2Proof.Machine.execPageResetDone page s
  | .drainLimitExpiry page => Sys2Proof.Machine.execDrainLimitExpiry page s
  | .pgIntStatWrite page val => Sys2Proof.Machine.execPgIntStatWrite page val s
  | .pgIntEnWrite page val => Sys2Proof.Machine.execPgIntEnWrite page val s
  | .pgErrClr page val => Sys2Proof.Machine.execPgErrClr page val s
  | .bar2Read off size ue => Sys2Proof.Machine.execBar2Read off size ue s
  | .bar2Write place bytes => Sys2Proof.Machine.execBar2Write place bytes s
  | .pciPorterTailWrite p val => Sys2Proof.Machine.execPciPorterTailWrite p val s
  | .porterDescriptor p d hostBytes drams => Sys2Proof.Machine.execPorterDescriptor p d hostBytes drams s
  | .porterDescriptorDone p => Sys2Proof.Machine.execPorterDescriptorDone p s
  | .svcHqSubmit q val => Sys2Proof.Machine.execSvcHqSubmit q val s
  | .svcHqCplRead q via => Sys2Proof.Machine.execSvcHqCplRead q via s
  | .svcXoutPtrWrite c val => Sys2Proof.Machine.execSvcXoutPtrWrite c val s
  | .svcXinPtrWrite c val => Sys2Proof.Machine.execSvcXinPtrWrite c val s
  | .svcXchEnWrite c inbound val => Sys2Proof.Machine.execSvcXchEnWrite c inbound val s
  | .svcCacheFlush val => Sys2Proof.Machine.execSvcCacheFlush val s
  | .svcTokenArrival k => Sys2Proof.Machine.execSvcTokenArrival k s
  | .dispatch eng => Sys2Proof.Machine.execDispatch eng s
  | .mread eng ue => Sys2Proof.Machine.execMread eng ue s
  | .mwrite eng ue => Sys2Proof.Machine.execMwrite eng ue s
  | .mrmw eng ue => Sys2Proof.Machine.execMrmw eng ue s
  | .xout eng ue => Sys2Proof.Machine.execXout eng ue s
  | .xin eng ue => Sys2Proof.Machine.execXin eng ue s
  | .cfill eng ue => Sys2Proof.Machine.execCfill eng ue s
  | .cevict eng => Sys2Proof.Machine.execCevict eng s
  | .tspill eng ue => Sys2Proof.Machine.execTspill eng ue s
  | .tcompact eng ue => Sys2Proof.Machine.execTcompact eng ue s
  | .psave eng ue => Sys2Proof.Machine.execPsave eng ue s
  | .prestore eng ue => Sys2Proof.Machine.execPrestore eng ue s
  | .scrub eng corrected bad => Sys2Proof.Machine.execScrub eng corrected bad s
  | .crier eng => Sys2Proof.Machine.execCrier eng s
  | .completionResend item => Sys2Proof.Machine.execCompletionResend item s
  | .deferForced item => Sys2Proof.Machine.execDeferForced item s
  | .batchStart => Sys2Proof.Machine.execBatchStart s
  | .paceStarved => Sys2Proof.Machine.execPaceStarved s
  | .tileStep t => Sys2Proof.Machine.execTileStep t s
  | .wuNop t u f => Sys2Proof.Machine.execWuNop t u f s
  | .mov t u f => Sys2Proof.Machine.execMov t u f s
  | .add t u f => Sys2Proof.Machine.execAdd t u f s
  | .sub t u f => Sys2Proof.Machine.execSub t u f s
  | .and t u f => Sys2Proof.Machine.execAnd t u f s
  | .or t u f => Sys2Proof.Machine.execOr t u f s
  | .xor t u f => Sys2Proof.Machine.execXor t u f s
  | .cmp t u f => Sys2Proof.Machine.execCmp t u f s
  | .sel t u f => Sys2Proof.Machine.execSel t u f s
  | .shl t u f => Sys2Proof.Machine.execShl t u f s
  | .shr t u f => Sys2Proof.Machine.execShr t u f s
  | .sar t u f => Sys2Proof.Machine.execSar t u f s
  | .ror t u f => Sys2Proof.Machine.execRor t u f s
  | .ext t u f => Sys2Proof.Machine.execExt t u f s
  | .ins t u f => Sys2Proof.Machine.execIns t u f s
  | .mrg t u f => Sys2Proof.Machine.execMrg t u f s
  | .mulu t u f => Sys2Proof.Machine.execMulu t u f s
  | .muls t u f => Sys2Proof.Machine.execMuls t u f s
  | .ld t u f => Sys2Proof.Machine.execLd t u f s
  | .ldh t u f => Sys2Proof.Machine.execLdh t u f s
  | .st t u f => Sys2Proof.Machine.execSt t u f s
  | .sth t u f => Sys2Proof.Machine.execSth t u f s
  | .pantryAccess t => Sys2Proof.Machine.execPantryAccess t s
  | .wuResultVisible t => Sys2Proof.Machine.execWuResultVisible t s
  | .nop t => Sys2Proof.Machine.execNop t s
  | .wait t flag count => Sys2Proof.Machine.execWait t flag count s
  | .waitRelease t => Sys2Proof.Machine.execWaitRelease t s
  | .rest t flag count => Sys2Proof.Machine.execRest t flag count s
  | .signal t vt flag => Sys2Proof.Machine.execSignal t vt flag s
  | .send t entry src wu reg => Sys2Proof.Machine.execSend t entry src wu reg s
  | .enq t entry src wu reg => Sys2Proof.Machine.execEnq t entry src wu reg s
  | .deq t q slot => Sys2Proof.Machine.execDeq t q slot s
  | .svc t tmpl src wu reg token => Sys2Proof.Machine.execSvc t tmpl src wu reg token s
  | .mark t value => Sys2Proof.Machine.execMark t value s
  | .endStep t => Sys2Proof.Machine.execEndStep t s
  | .retryBufferFree t => Sys2Proof.Machine.execRetryBufferFree t s
  | .waitTimeout t => Sys2Proof.Machine.execWaitTimeout t s
  | .restTimeout t => Sys2Proof.Machine.execRestTimeout t s
  | .packetArrival k => Sys2Proof.Machine.execPacketArrival k s
  | .remotePacketArrival k => Sys2Proof.Machine.execRemotePacketArrival k s
  | .answerArrival => Sys2Proof.Machine.execAnswerArrival s
  | .packetResend t entry => Sys2Proof.Machine.execPacketResend t entry s
  | .batchEnd => Sys2Proof.Machine.execBatchEnd s
  | .quadrantForward => Sys2Proof.Machine.execQuadrantForward s
  | .answerForward => Sys2Proof.Machine.execAnswerForward s
  | .nocRtWrite hi entry val => Sys2Proof.Machine.execNocRtWrite hi entry val s
  | .ledgerTick uncorePj => Sys2Proof.Machine.execLedgerTick uncorePj s
  | .vinMeasure mv => Sys2Proof.Machine.execVinMeasure mv s
  | .thermalControl => Sys2Proof.Machine.execThermalControl s
  | .sensorRead readings => Sys2Proof.Machine.execSensorRead readings s
  | .thermalTrip sensor milliC => Sys2Proof.Machine.execThermalTrip sensor milliC s
  | .sclkIdleStop => Sys2Proof.Machine.execSclkIdleStop s
  | .ddrIdleSelfRefresh ch => Sys2Proof.Machine.execDdrIdleSelfRefresh ch s
  | .tileSleep => Sys2Proof.Machine.execTileSleep s
  | .larderRetain bank => Sys2Proof.Machine.execLarderRetain bank s
  | .ownHandover larder ptile bank val => Sys2Proof.Machine.execOwnHandover larder ptile bank val s
  | .handoverComplete larder ptile bank => Sys2Proof.Machine.execHandoverComplete larder ptile bank s
  | .scrubIssue => Sys2Proof.Machine.execScrubIssue s
  | .encKeyLoad val => Sys2Proof.Machine.execEncKeyLoad val s
  | .encKeyInvalidate val => Sys2Proof.Machine.execEncKeyInvalidate val s
  | .encKeyNoOp val => Sys2Proof.Machine.execEncKeyNoOp val s
  | .encRgnCtrlWrite r val => Sys2Proof.Machine.execEncRgnCtrlWrite r val s
  | .encCarveWrite val => Sys2Proof.Machine.execEncCarveWrite val s
  | .encBgStart val => Sys2Proof.Machine.execEncBgStart val s
  | .encBgRelease val => Sys2Proof.Machine.execEncBgRelease val s
  | .bgLine ue => Sys2Proof.Machine.execBgLine ue s
  | .lnkCfgWrite p val => Sys2Proof.Machine.execLnkCfgWrite p val s
  | .lnkPllLock p => Sys2Proof.Machine.execLnkPllLock p s
  | .lnkSignalDetect lp lanes => Sys2Proof.Machine.execLnkSignalDetect lp lanes s
  | .lnkLaneLock lp lanes inverted => Sys2Proof.Machine.execLnkLaneLock lp lanes inverted s
  | .lnkTrainTimeout lp => Sys2Proof.Machine.execLnkTrainTimeout lp s
  | .trainCell lp lane cell order skewBits => Sys2Proof.Machine.execTrainCell lp lane cell order skewBits s
  | .linkPacketReceive lp pkt => Sys2Proof.Machine.execLinkPacketReceive lp pkt s
  | .ackCell lp lane cell => Sys2Proof.Machine.execAckCell lp lane cell s
  | .ackSend lp => Sys2Proof.Machine.execAckSend lp s
  | .ackTimeout lp => Sys2Proof.Machine.execAckTimeout lp s
  | .laneTrip p lane event => Sys2Proof.Machine.execLaneTrip p lane event s
  | .spareCell lp lane cell => Sys2Proof.Machine.execSpareCell lp lane cell s
  | .swapTimeout lp => Sys2Proof.Machine.execSwapTimeout lp s
  | .swapDone lp => Sys2Proof.Machine.execSwapDone lp s
  | .commaLockLost lp => Sys2Proof.Machine.execCommaLockLost lp s
  | .syncCellSend lp frame stamp => Sys2Proof.Machine.execSyncCellSend lp frame stamp s
  | .timeCell lp cell stamp => Sys2Proof.Machine.execTimeCell lp cell stamp s
  | .announceCell lp cell => Sys2Proof.Machine.execAnnounceCell lp cell s
  | .tsyncEdge => Sys2Proof.Machine.execTsyncEdge s
  | .domainLoss d => Sys2Proof.Machine.execDomainLoss d s
  | .outputServoTick => Sys2Proof.Machine.execOutputServoTick s
  | .outputRevert => Sys2Proof.Machine.execOutputRevert s
  | .timCmdSet val => Sys2Proof.Machine.execTimCmdSet val s
  | .timCmdReacq val => Sys2Proof.Machine.execTimCmdReacq val s
  | .timNowRead via => Sys2Proof.Machine.execTimNowRead via s
  | .trgFire lines => Sys2Proof.Machine.execTrgFire lines s
  | .trgSample line slot => Sys2Proof.Machine.execTrgSample line slot s
  | .trgAct line slot => Sys2Proof.Machine.execTrgAct line slot s
  | .trgCal line => Sys2Proof.Machine.execTrgCal line s
  | .trgCalDone roundTrip => Sys2Proof.Machine.execTrgCalDone roundTrip s
  | .vl2ArmPulse widthNs => Sys2Proof.Machine.execVl2ArmPulse widthNs s
  | .vl2FirePulse widthNs => Sys2Proof.Machine.execVl2FirePulse widthNs s
  | .vl2LineFall widthNs => Sys2Proof.Machine.execVl2LineFall widthNs s
  | .vl2Arm val => Sys2Proof.Machine.execVl2Arm val s
  | .vl2Fire val => Sys2Proof.Machine.execVl2Fire val s
  | .vl2Disarm val => Sys2Proof.Machine.execVl2Disarm val s
  | .vl2Rearm => Sys2Proof.Machine.execVl2Rearm s
  | .timCapPop via => Sys2Proof.Machine.execTimCapPop via s
  | .timPaceOverrunRead via => Sys2Proof.Machine.execTimPaceOverrunRead via s
  | .timCapStatRead via => Sys2Proof.Machine.execTimCapStatRead via s
  | .acqArm val => Sys2Proof.Machine.execAcqArm val s
  | .acqStop val => Sys2Proof.Machine.execAcqStop val s
  | .acqEvaluate => Sys2Proof.Machine.execAcqEvaluate s
  | .acqBatchRecord => Sys2Proof.Machine.execAcqBatchRecord s
  | .acqRearmDone => Sys2Proof.Machine.execAcqRearmDone s
  | .acqSpillHostWrite val => Sys2Proof.Machine.execAcqSpillHostWrite val s
  | .acqDroppedRead via => Sys2Proof.Machine.execAcqDroppedRead via s
  | .acqExtLostRead via => Sys2Proof.Machine.execAcqExtLostRead via s
  | .tilPrbMarksRead t via => Sys2Proof.Machine.execTilPrbMarksRead t via s
  | .runCmdRun val => Sys2Proof.Machine.execRunCmdRun val s
  | .runCmdHalt val => Sys2Proof.Machine.execRunCmdHalt val s
  | .runCmdStep val => Sys2Proof.Machine.execRunCmdStep val s
  | .haltComplete => Sys2Proof.Machine.execHaltComplete s
  | .runBatchRead via => Sys2Proof.Machine.execRunBatchRead via s
  | .runAcmpCountRead a via => Sys2Proof.Machine.execRunAcmpCountRead a via s
  | .runBcmpCtrlWrite b val => Sys2Proof.Machine.execRunBcmpCtrlWrite b val s
  | .runAcmpCtrlWrite a val => Sys2Proof.Machine.execRunAcmpCtrlWrite a val s
  | .wdgExpired => Sys2Proof.Machine.execWdgExpired s
  | .wdgKick val => Sys2Proof.Machine.execWdgKick val s
  | .wdgCfgWrite val => Sys2Proof.Machine.execWdgCfgWrite val s
  | .criValWrite c val => Sys2Proof.Machine.execCriValWrite c val s
  | .criStatRead via => Sys2Proof.Machine.execCriStatRead via s
  | .tilWinWrite t pg idx val => Sys2Proof.Machine.execTilWinWrite t pg idx val s
  | .tilWinRead t pg idx => Sys2Proof.Machine.execTilWinRead t pg idx s
  | .tapReset => Sys2Proof.Machine.execTapReset s
  | .bypass => Sys2Proof.Machine.execBypass s
  | .idcode => Sys2Proof.Machine.execIdcode s
  | .samplePreload => Sys2Proof.Machine.execSamplePreload s
  | .extest => Sys2Proof.Machine.execExtest s
  | .clamp => Sys2Proof.Machine.execClamp s
  | .highz => Sys2Proof.Machine.execHighz s
  | .dbgReg go write addr data => Sys2Proof.Machine.execDbgReg go write addr data s
  | .dbgMem go write ue addr data => Sys2Proof.Machine.execDbgMem go write ue addr data s
  | .dbgCfg peek => Sys2Proof.Machine.execDbgCfg peek s
  | .scan => Sys2Proof.Machine.execScan s
  | .ldrDataWrite size data => Sys2Proof.Machine.execLdrDataWrite size data s
  | .ldrSpiRead val bytes => Sys2Proof.Machine.execLdrSpiRead val bytes s
  | .ldrHeader => Sys2Proof.Machine.execLdrHeader s
  | .ldrFrame => Sys2Proof.Machine.execLdrFrame s
  | .ldrTrailer => Sys2Proof.Machine.execLdrTrailer s
  | .ldrCheckDone => Sys2Proof.Machine.execLdrCheckDone s
  | .ldrCommitDone ueTile => Sys2Proof.Machine.execLdrCommitDone ueTile s
  | .ldrGapTimeout => Sys2Proof.Machine.execLdrGapTimeout s
  | .ldrCmdAbort val => Sys2Proof.Machine.execLdrCmdAbort val s
  | .ldrCmdClear val => Sys2Proof.Machine.execLdrCmdClear val s
  | .recoveryPause fault => Sys2Proof.Machine.execRecoveryPause fault s
  | .recoveryAnswerTimeout => Sys2Proof.Machine.execRecoveryAnswerTimeout s
  | .proofSave => Sys2Proof.Machine.execProofSave s
  | .proofSaveDone => Sys2Proof.Machine.execProofSaveDone s
  | .prfCmdSave val => Sys2Proof.Machine.execPrfCmdSave val s
  | .prfCmdRestore val => Sys2Proof.Machine.execPrfCmdRestore val s
  | .prfCmdRestorePrev val => Sys2Proof.Machine.execPrfCmdRestorePrev val s
  | .prfDiscardRead via => Sys2Proof.Machine.execPrfDiscardRead via s
  | .bstStart val => Sys2Proof.Machine.execBstStart val s
  | .bstSliceDone result => Sys2Proof.Machine.execBstSliceDone result s
  | .bstOverrun => Sys2Proof.Machine.execBstOverrun s
  | .flsBootCommit val => Sys2Proof.Machine.execFlsBootCommit val s
  | .flsBootReload val => Sys2Proof.Machine.execFlsBootReload val s
  | .tilDpStallRead t via => Sys2Proof.Machine.execTilDpStallRead t via s
  | .svcEngItemsRead e via => Sys2Proof.Machine.execSvcEngItemsRead e via s
  | .pwrPaceHoldsRead via => Sys2Proof.Machine.execPwrPaceHoldsRead via s
  | .pwrPaceTimeRead via => Sys2Proof.Machine.execPwrPaceTimeRead via s
  | .memChCeRead ch via => Sys2Proof.Machine.execMemChCeRead ch via s
  | .nocFwdRead via => Sys2Proof.Machine.execNocFwdRead via s
  | .lnkCntRead p b via => Sys2Proof.Machine.execLnkCntRead p b via s
  | .lnkLaneErrRead p lane via => Sys2Proof.Machine.execLnkLaneErrRead p lane via s
  | .msixUnmask vec => Sys2Proof.Machine.execMsixUnmask vec s
  | .pageEnable page => Sys2Proof.Machine.execPageEnable page s
  | .timDomCfgWrite d val => Sys2Proof.Machine.execTimDomCfgWrite d val s
  | .prfCtrlWrite val => Sys2Proof.Machine.execPrfCtrlWrite val s

end Sys2Proof.Machine
end

