-- ==== Sys2Proof/Machine/Tick.lean ====
section
/-! DEFINITION. A tick of wall-clock time, 40 ns of the AON clock: what a step does when no command waits
(assumption 5). It counts time, lets a flash write end, and issues what waited for room; every event that a
time limit brings about is a command of its own. -/

namespace Sys2Proof.Machine

/-- Nanoseconds of one tick: a period of the 25 MHz AON clock. -/
def tickNs : Nat := 40

/-- A clock of the time keeper after base ticks of `ns` nanoseconds in all, each scaled by its rate (R386). -/
def clockAfter (ns : Nat) (x : BitVec 104) (r : Int) : BitVec 104 := x + BitVec.ofInt 104 (ns * (2 ^ 40 + r))

/-- Nanoseconds of the base ticks that fall in one tick at whose end the commands fall `sub` NCLK cycles after the AON
tick: the edges of REFCLK100, every 16 NCLK cycles, or one AON cycle (R386). -/
def State.baseNs (s : State) (sub : Nat) : Nat :=
  if s.tim.ref then 10 * (4 + sub / 16 - s.tim.sub / 16) else 40

/-- A domain after base ticks of `ns` nanoseconds. -/
def Domain.tick (ns : Nat) (d : Domain) : Domain :=
  { d with
    est := clockAfter ns d.est d.rate
    sinceNs := d.sinceNs + tickNs
    lockedNs := if d.state = .locked then d.lockedNs + tickNs else 0 }

/-- Whether a fire still waits or is being driven: its interval has not ended, and once it has begun the
line is native and the device in step (R403, R404). -/
def State.fireStands (s : State) (f : Nat × Nat) : Bool :=
  let now := s.out5 + steps5 (s.trgDelay f.1 + s.trgHub)
  decide (now < ns5 (10 * f.2)) || (decide (now < ns5 (10 * f.2 + 10)) && s.trgSynced && s.native f.1)

/-- Output time, the domains and the trigger bus after one tick; a fire whose slot has passed is over. The NCLK cycle
of the next 64 in which the commands after the tick fall is free (assumption 5). -/
def State.tickTime (s : State) : State :=
  let f := s.freeNat
  let s := f.2
  let sub := f.1 % 64
  let ns := s.baseNs sub
  let t := s.tim
  let s : State := { s with tim := { t with
    sub := sub
    out := clockAfter ns t.out t.rOut
    domA := t.domA.tick ns
    domB := t.domB.tick ns
    vl2FallNs := t.vl2FallNs.map (· + tickNs) } }
  { s with tim := { s.tim with fires := s.tim.fires.filter s.fireStands } }

/-- The end of phase 5 of a start after A: its typical time, 2.0 ms and 20 µs (R512; assumption 59). -/
def phase5Ns : Nat := 2020000

/-- The start-up, reset, drain, chain and self-test timers. PCIe trains from the end of phase 5 on (R513). -/
def State.tickBoard (s : State) : State :=
  { s with
    sup := { s.sup with
      ns := s.sup.ns + tickNs
      phaseNs := s.sup.phaseNs + tickNs
      pcieNs := if s.sup.pcieRetry && decide (phase5Ns ≤ s.sup.ns) then s.sup.pcieNs + tickNs else s.sup.pcieNs }
    chain := { s.chain with timerNs := s.chain.timerNs - tickNs }
    host := { s.host with drains := s.host.drains.map fun d => (d.1, d.2 + tickNs) }
    bst := { s.bst with ns := if s.bst.slice.isSome then s.bst.ns + tickNs else s.bst.ns }
    ldr := { s.ldr with gapNs := s.ldr.gapNs + tickNs } }

/-- A logical port's timers (R363, R371, R372). -/
def LogicalPort.tick (x : LogicalPort) : LogicalPort :=
  if x.state = .off then x
  else
    { x with
      ns := x.ns + tickNs
      ackNs := if x.retryBuf.isEmpty then 0 else x.ackNs + tickNs
      sendNs := x.sendNs + tickNs
      nakNs := x.nakNs + tickNs
      errs := (x.errs.map fun e => (e.1, e.2.1, e.2.2 + tickNs)).filter fun e => decide (e.2.2 < 1000000) }

/-- The logical ports after one tick. -/
def State.tickPorts (s : State) : State :=
  (List.range 16).foldl (fun s lp => s.modPort lp LogicalPort.tick) s

/-- Hold timers count: the run state is RUN, no logical port is in SWAP, and no batch is done again (R121,
R487). -/
def State.holdsCount (s : State) : Bool :=
  s.run.state = .run && !s.prf.redo && !((List.range 16).any fun lp => (s.port lp).state = .swap)

/-- A tile's hold timer, its waits after refusals, and the IDLE count: 64 NCLK cycles of 625 ps (R121, R137,
R248). -/
def Tile.tick (holds run : Bool) (x : Tile) : Tile :=
  let idle := run && (x.phase = .exec && x.hold.isSome || x.phase = .resting)
  { x with
    hold := x.hold.map fun h => { h with ns := if holds && x.phase = .exec then h.ns + tickNs else h.ns }
    retry := x.retry.map fun r =>
      match r.stage with
      | .refused n => { r with stage := .refused (n + tickNs) }
      | _ => r
    energy := { x.energy with idle := if idle then x.energy.idle + 64 else x.energy.idle } }

/-- The mapped tiles after one tick. -/
def State.tickTiles (s : State) : State :=
  let holds := s.holdsCount
  let run := !s.isHalted
  s.mapped.foldl (fun s t => s.modTile t (Tile.tick holds run)) s

/-- A work item's timers: a refused completion's wait, and the time that a deficit holds a deferrable item
(R227, R231, R256). -/
def SvcItem.tick (deficit : Bool) (i : SvcItem) : SvcItem :=
  match i.stage with
  | .kept n => { i with stage := .kept (n + tickNs) }
  | .ready => if deficit && i.deferrable && !i.forced then { i with heldNs := i.heldNs + tickNs } else i
  | _ => i

/-- The service plane, the memories, proofs and run control after one tick. -/
def State.tickBlocks (s : State) : State :=
  let deficit := s.deficit
  let idle (m : Table Nat) (n : Nat) : Table Nat :=
    (List.range n).foldl (fun m i => Table.set (fun _ => 0) m i (Table.get (fun _ => 0) m i + tickNs)) m
  let wdg := if s.wdgCounts then s.run.wdgNs - tickNs else s.run.wdgNs
  { s with
    svc := { s.svc with store := s.svc.store.map (SvcItem.tick deficit) }
    mem := { s.mem with
      chIdleNs := idle s.mem.chIdleNs 8, larderIdleNs := idle s.mem.larderIdleNs 64
      scrubNs := s.mem.scrubNs + tickNs }
    prf := { s.prf with
      pauseNs := if s.run.state = .recover then s.prf.pauseNs + tickNs else s.prf.pauseNs
      saveNs := if s.prf.state = .saving then s.prf.saveNs + tickNs else s.prf.saveNs }
    run := { s.run with
      wdgNs := wdg
      haltedNs := if s.isHalted then s.run.haltedNs + tickNs else 0
      resumableNs :=
        if s.run.state = .halted && s.run.resumable then s.run.resumableNs + tickNs else 0 } }

/-- The ledger's peak guard, and the time of a held start while R254 holds it (R254, R257, R274); a paced
slot is given up while conditions 1 to 3 do not hold (R23). -/
def State.tickLedger (s : State) : State :=
  let held := s.heldNow
  let s := if s.startReady && s.startAllowed && s.covered then s else s.leaveSlot
  let s : State := { s with led := { s.led with guardNs := s.led.guardNs - tickNs } }
  match held, s.led.holdNs with
  | true, some n =>
    let rest := s.led.paceRest + tickNs
    let s : State := { s with led := { s.led with holdNs := some (n + tickNs), paceRest := rest % 1000 } }
    if 1000 ≤ rest then s.countReg .pwrPaceTime 0xFFFFFFFF 1 else s
  | _, _ => s

/-- A flash write ends after a time that the spec leaves open (assumption 1). -/
def State.tickFlash (s : State) : State :=
  if s.flash.writing.isEmpty then s
  else
    let f := s.free
    if bit f.1 0 then f.2.endFlashWrite else f.2

/-- What waits for an entry of the internal class tries again. -/
def State.tickIssue (s : State) : State :=
  let s := if s.prf.todo.isEmpty then s
    else s.issueProofs (if s.prf.state = .saving then 0x40 else 0x41) s.prf.todo
  let s := if s.run.criers.isEmpty then s else s.issueCriers 64
  (((s.haltRecords.spillNext).background.lateFlush).issueWaiting).retryTransfers

/-- An idle PCIe link goes to L1: in D3hot, or, where ASPM L1 is on, after a time that the spec leaves open (R35, R266;
assumptions 1, 66). -/
def State.tickPcie (s : State) : State :=
  let sleep (s : State) : State := { s with host := { s.host with cfg := { s.host.cfg with l1 := true } } }
  if !s.linkUp || s.host.cfg.l1 then s
  else if s.host.cfg.d3hot then sleep s
  else if s.host.cfg.aspm then
    let f := s.free
    if bit f.1 0 then sleep f.2 else f.2
  else s

/-- A tick. -/
def State.tick (s : State) : State :=
  if s.aon then
    ((((((((((s.tickPcie).tickBoard).tickTime).tickPorts).tickTiles).tickBlocks).tickLedger).tickFlash).tickIssue).shutOn)
  else s

/-- A step on an empty queue. -/
def tick (s : State) : Out := .next s.tick

end Sys2Proof.Machine
end

