-- ==== Sys2Proof/WellFormed.lean ====
section
/-! DEFINITION. Well-formed commands: every unit that a command names is one that the device has (R2, R39, R44,
R60, R94, R115, R218, R222, R281). A command that is not well formed is no event of the device. -/

namespace Sys2Proof

open Sys2Proof.Machine

/-- Every unit, register index and address that a command names exists. -/
def Instr.wf : Instr → Bool
  | .coldStart _ _ _ _ => true
  | .brownOut => true
  | .rstNAsserted => true
  | .inputCurrentLimit => true
  | .vioChange _ => true
  | .vdioBankChange bank _ => decide (bank < 4)
  | .warmReset _ _ => true
  | .warmResetExit => true
  | .perstNAsserted => true
  | .perstNReleased => true
  | .pcieRetryWindowEnd => true
  | .refclkLost => true
  | .ddrDone _ _ => true
  | .ddrTrainLimit ch _ _ => decide (ch < 8)
  | .autoload _ => true
  | .shutdown _ => true
  | .chainHead => true
  | .chainFrame _ _ => true
  | .chainFrameSend => true
  | .i2cWrite _ _ _ => true
  | .i2cRead _ _ _ => true
  | .uartQuery _ => true
  | .uartLineSent => true
  | .registerWrite path place size _ => path.fits place size
  | .pageDisable page => pageExists page
  | .pageReset page => pageExists page
  | .pageResetDone page => pageExists page
  | .drainLimitExpiry page => pageExists page
  | .pgIntStatWrite page _ => pageExists page
  | .pgIntEnWrite page _ => pageExists page
  | .pgErrClr page _ => pageExists page
  | .bar2Read off size _ => decide (off + size ≤ 2 ^ 36)
  | .bar2Write place bytes => decide (place.off + bytes.length ≤ 2 ^ 36)
  | .pciPorterTailWrite p _ => decide (p < 8)
  | .porterDescriptor p _ _ _ => decide (p < 8)
  | .porterDescriptorDone p => decide (p < 8)
  | .svcHqSubmit q _ => decide (q < 2)
  | .svcHqCplRead q _ => decide (q < 2)
  | .svcXoutPtrWrite c _ => decide (c < 16)
  | .svcXinPtrWrite c _ => decide (c < 16)
  | .svcXchEnWrite c _ _ => decide (c < 16)
  | .svcCacheFlush _ => true
  | .svcTokenArrival _ => true
  | .dispatch eng => decide (eng < 18)
  | .mread eng _ => decide (eng < 18)
  | .mwrite eng _ => decide (eng < 18)
  | .mrmw eng _ => decide (eng < 18)
  | .xout eng _ => decide (eng < 18)
  | .xin eng _ => decide (eng < 18)
  | .cfill eng _ => decide (eng < 18)
  | .cevict eng => decide (eng < 18)
  | .tspill eng _ => decide (eng < 18)
  | .tcompact eng _ => decide (eng < 18)
  | .psave eng _ => decide (eng < 18)
  | .prestore eng _ => decide (eng < 18)
  | .scrub eng _ _ => decide (eng < 18)
  | .crier eng => decide (eng < 18)
  | .completionResend _ => true
  | .deferForced _ => true
  | .batchStart => true
  | .paceStarved => true
  | .tileStep t => decide (t < 136)
  | .wuNop t u _ => decide (t < 136) && decide (u < 16)
  | .mov t u _ => decide (t < 136) && decide (u < 16)
  | .add t u _ => decide (t < 136) && decide (u < 16)
  | .sub t u _ => decide (t < 136) && decide (u < 16)
  | .and t u _ => decide (t < 136) && decide (u < 16)
  | .or t u _ => decide (t < 136) && decide (u < 16)
  | .xor t u _ => decide (t < 136) && decide (u < 16)
  | .cmp t u _ => decide (t < 136) && decide (u < 16)
  | .sel t u _ => decide (t < 136) && decide (u < 16)
  | .shl t u _ => decide (t < 136) && decide (u < 16)
  | .shr t u _ => decide (t < 136) && decide (u < 16)
  | .sar t u _ => decide (t < 136) && decide (u < 16)
  | .ror t u _ => decide (t < 136) && decide (u < 16)
  | .ext t u _ => decide (t < 136) && decide (u < 16)
  | .ins t u _ => decide (t < 136) && decide (u < 16)
  | .mrg t u _ => decide (t < 136) && decide (u < 16)
  | .mulu t u _ => decide (t < 136) && decide (u < 16)
  | .muls t u _ => decide (t < 136) && decide (u < 16)
  | .ld t u _ => decide (t < 136) && decide (u < 16)
  | .ldh t u _ => decide (t < 136) && decide (u < 16)
  | .st t u _ => decide (t < 136) && decide (u < 16)
  | .sth t u _ => decide (t < 136) && decide (u < 16)
  | .pantryAccess t => decide (t < 136)
  | .wuResultVisible t => decide (t < 136)
  | .nop t => decide (t < 136)
  | .wait t flag count => decide (t < 136) && decide (flag < 1024) && decide (count < 16)
  | .waitRelease t => decide (t < 136)
  | .rest t flag count => decide (t < 136) && decide (flag < 1024) && decide (count < 16)
  | .signal t vt flag => decide (t < 136) && decide (vt < 128) && decide (flag < 1024)
  | .send t entry src wu reg => decide (t < 136) && decide (entry < 256) && decide (src < 2) && decide (wu < 16) &&
    decide (reg < 256)
  | .enq t entry src wu reg => decide (t < 136) && decide (entry < 256) && decide (src < 2) && decide (wu < 16) &&
    decide (reg < 256)
  | .deq t q slot => decide (t < 136) && decide (q < 64) && decide (slot < 64)
  | .svc t tmpl src wu reg token => decide (t < 136) && decide (tmpl < 256) && decide (src < 2) && decide (wu < 16) &&
    decide (reg < 256) && decide (token < 4)
  | .mark t _ => decide (t < 136)
  | .endStep t => decide (t < 136)
  | .retryBufferFree t => decide (t < 136)
  | .waitTimeout t => decide (t < 136)
  | .restTimeout t => decide (t < 136)
  | .packetArrival _ => true
  | .remotePacketArrival _ => true
  | .answerArrival => true
  | .packetResend t entry => decide (t < 136) && decide (entry < 256)
  | .batchEnd => true
  | .quadrantForward => true
  | .answerForward => true
  | .nocRtWrite _ entry _ => decide (entry < 256)
  | .ledgerTick _ => true
  | .vinMeasure _ => true
  | .thermalControl => true
  | .sensorRead _ => true
  | .thermalTrip sensor _ => decide (sensor < 48)
  | .sclkIdleStop => true
  | .ddrIdleSelfRefresh ch => decide (ch < 8)
  | .tileSleep => true
  | .larderRetain bank => decide (bank < 64)
  | .ownHandover larder ptile bank _ => if larder then decide (bank < 64) else decide (ptile < 136) &&
    decide (bank < 16)
  | .handoverComplete larder ptile bank => if larder then decide (bank < 64) else decide (ptile < 136) &&
    decide (bank < 16)
  | .scrubIssue => true
  | .encKeyLoad _ => true
  | .encKeyInvalidate _ => true
  | .encKeyNoOp _ => true
  | .encRgnCtrlWrite r _ => decide (r < 32)
  | .encCarveWrite _ => true
  | .encBgStart _ => true
  | .encBgRelease _ => true
  | .bgLine _ => true
  | .lnkCfgWrite p _ => decide (p < 8)
  | .lnkPllLock p => decide (p < 8)
  | .lnkSignalDetect lp _ => decide (lp < 16)
  | .lnkLaneLock lp _ _ => decide (lp < 16)
  | .lnkTrainTimeout lp => decide (lp < 16)
  | .trainCell lp lane _ _ _ => decide (lp < 16) && decide (lane < 9)
  | .linkPacketReceive lp _ => decide (lp < 16)
  | .ackCell lp lane _ => decide (lp < 16) && decide (lane < 9)
  | .ackSend lp => decide (lp < 16)
  | .ackTimeout lp => decide (lp < 16)
  | .laneTrip p lane _ => decide (p < 8) && decide (lane < 9)
  | .spareCell lp lane _ => decide (lp < 16) && decide (lane < 9)
  | .swapTimeout lp => decide (lp < 16)
  | .swapDone lp => decide (lp < 16)
  | .commaLockLost lp => decide (lp < 16)
  | .syncCellSend lp _ _ => decide (lp < 16)
  | .timeCell lp _ _ => decide (lp < 16)
  | .announceCell lp _ => decide (lp < 16)
  | .tsyncEdge => true
  | .domainLoss d => decide (d < 2)
  | .outputServoTick => true
  | .outputRevert => true
  | .timCmdSet _ => true
  | .timCmdReacq _ => true
  | .timNowRead _ => true
  | .trgFire _ => true
  | .trgSample line _ => decide (line < 8)
  | .trgAct line _ => decide (line < 8)
  | .trgCal line => decide (line < 8)
  | .trgCalDone _ => true
  | .vl2ArmPulse _ => true
  | .vl2FirePulse _ => true
  | .vl2LineFall _ => true
  | .vl2Arm _ => true
  | .vl2Fire _ => true
  | .vl2Disarm _ => true
  | .vl2Rearm => true
  | .timCapPop _ => true
  | .timPaceOverrunRead _ => true
  | .timCapStatRead _ => true
  | .acqArm _ => true
  | .acqStop _ => true
  | .acqEvaluate => true
  | .acqBatchRecord => true
  | .acqRearmDone => true
  | .acqSpillHostWrite _ => true
  | .acqDroppedRead _ => true
  | .acqExtLostRead _ => true
  | .tilPrbMarksRead t _ => decide (t < 136)
  | .runCmdRun _ => true
  | .runCmdHalt _ => true
  | .runCmdStep _ => true
  | .haltComplete => true
  | .runBatchRead _ => true
  | .runAcmpCountRead a _ => decide (a < 8)
  | .runBcmpCtrlWrite b _ => decide (b < 4)
  | .runAcmpCtrlWrite a _ => decide (a < 8)
  | .wdgExpired => true
  | .wdgKick _ => true
  | .wdgCfgWrite _ => true
  | .criValWrite c _ => decide (c < 32)
  | .criStatRead _ => true
  | .tilWinWrite t pg i _ => decide (t < 136) && decide (8 ≤ pg) && decide (pg < 16) && decide (i < 512)
  | .tilWinRead t pg i => decide (t < 136) && decide (8 ≤ pg) && decide (pg < 16) && decide (i < 512)
  | .tapReset => true
  | .bypass => true
  | .idcode => true
  | .samplePreload => true
  | .extest => true
  | .clamp => true
  | .highz => true
  | .dbgReg _ _ _ _ => true
  | .dbgMem _ _ _ _ _ => true
  | .dbgCfg _ => true
  | .scan => true
  | .ldrDataWrite _ _ => true
  | .ldrSpiRead _ _ => true
  | .ldrHeader => true
  | .ldrFrame => true
  | .ldrTrailer => true
  | .ldrCheckDone => true
  | .ldrCommitDone _ => true
  | .ldrGapTimeout => true
  | .ldrCmdAbort _ => true
  | .ldrCmdClear _ => true
  | .recoveryPause fault => fault.there
  | .recoveryAnswerTimeout => true
  | .proofSave => true
  | .proofSaveDone => true
  | .prfCmdSave _ => true
  | .prfCmdRestore _ => true
  | .prfCmdRestorePrev _ => true
  | .prfDiscardRead _ => true
  | .bstStart _ => true
  | .bstSliceDone _ => true
  | .bstOverrun => true
  | .flsBootCommit _ => true
  | .flsBootReload _ => true
  | .tilDpStallRead t _ => decide (t < 136)
  | .svcEngItemsRead e _ => decide (e < 18)
  | .pwrPaceHoldsRead _ => true
  | .pwrPaceTimeRead _ => true
  | .memChCeRead ch _ => decide (ch < 8)
  | .nocFwdRead _ => true
  | .lnkCntRead p _ _ => decide (p < 8)
  | .lnkLaneErrRead p lane _ => decide (p < 8) && decide (lane < 9)
  | .msixUnmask vec => vec.all (· < 256)
  | .pageEnable page => pageExists page
  | .timDomCfgWrite d _ => decide (d < 2)
  | .prfCtrlWrite _ => true

end Sys2Proof
end

