-- ==== Sys2Proof/Safety.lean ====
section
/-! DEFINITION. The words in which statements are made: a command completes with a property of the next state,
the parts of the state that a command leaves alone, and the canonical form of everything stored by address. -/

namespace Sys2Proof.Machine

/-- Command c completes in state s, and its next state has property `p`. -/
def Does (c : Instr) (s : State) (p : State → Prop) : Prop :=
  ∃ t : State, exec c s = .next t ∧ p t

/-- A run of the block is safe at s when the next step answers a state: it neither faults nor refuses. -/
def SafeStep (s : State) : Prop := ∃ t : State, step s = .next t

/-- The parts of the state. -/
inductive Part where
  | regs | tiles | ldr | run | svc | led | enc | mem | net | ports | tim | acq | prf | sup | pins | chain
  | con | jtag | host | bst | flash | fuses | free
  deriving DecidableEq, Repr

/-- Two states agree on a part. -/
def Part.same (s t : State) : Part → Prop
  | .regs => t.regs = s.regs
  | .tiles => t.tiles = s.tiles
  | .ldr => t.ldr = s.ldr
  | .run => t.run = s.run
  | .svc => t.svc = s.svc
  | .led => t.led = s.led
  | .enc => t.enc = s.enc
  | .mem => t.mem = s.mem
  | .net => t.net = s.net
  | .ports => t.ports = s.ports
  | .tim => t.tim = s.tim
  | .acq => t.acq = s.acq
  | .prf => t.prf = s.prf
  | .sup => t.sup = s.sup
  | .pins => t.pins = s.pins
  | .chain => t.chain = s.chain
  | .con => t.con = s.con
  | .jtag => t.jtag = s.jtag
  | .host => t.host = s.host
  | .bst => t.bst = s.bst
  | .flash => t.flash = s.flash
  | .fuses => t.fuses = s.fuses
  | .free => t.freeCtr = s.freeCtr

/-- From s to t nothing changes but the parts of `l`: the queue of commands never does. -/
def Only (l : List Part) (s t : State) : Prop :=
  t.pending = s.pending ∧ ∀ p : Part, p ∉ l → p.same s t

/-- Every register holds what it held, but those at the addresses of `l`. -/
def RegsBut (l : List Nat) (s t : State) : Prop := ∀ a : Nat, a ∉ l → t.reg a = s.reg a

/-- Every tile is as it was, but tile k. -/
def TilesBut (k : Nat) (s t : State) : Prop := ∀ j : Nat, j ≠ k → t.tile j = s.tile j

/-- Every tile is as it was. -/
def TilesSame (s t : State) : Prop := ∀ j : Nat, t.tile j = s.tile j

/-- Word unit u of tile t has issued a result that becomes visible four steps later (R98). Nothing else of the
tile changes but its activity counters; without a reported error nothing else changes at all. -/
def Issues (t u : Nat) (f : WuFields) (s r : State) (lo : Word) (hi : Option Word) (tapHi : Word)
    (errs : List StepErr) : Prop :=
  (∃ e : Energy, r.tile t = { s.tile t with
    results := (s.tile t).results ++ [⟨u, (s.tile t).step + 4, f.dst.toNat, lo, hi, tapHi, f.tap⟩]
    energy := e }) ∧
  TilesBut t s r ∧ Only [.regs, .tiles, .run, .prf, .con, .host] s r ∧ (errs = [] → Only [.tiles] s r)

/-- A pantry access of tile t has been issued, to take place two steps later (R103); nothing else of the tile
changes, and without a reported error nothing else at all. -/
def Accesses (t : Nat) (s r : State) (a : PanAccess) (errs : List StepErr) : Prop :=
  r.tile t = { s.tile t with accesses := (s.tile t).accesses ++ [a] } ∧
  TilesBut t s r ∧ Only [.regs, .tiles, .run, .prf, .con, .host] s r ∧ (errs = [] → Only [.tiles] s r)

/-- Requests of r with the key slot of queue q pass the encryption engine as plaintext at every address of
[lo, hi): granted, outside INTEGRITY, no key change is in force on slot 0, and the engine and the channel take
new requests (R48, R314, R320, R327). -/
def State.Plain (s : State) (r : Requester) (q lo hi : Nat) (rd wr : Bool) : Prop :=
  s.enc.integrityHalt = false ∧ s.qkey q = 0 ∧ s.slotLocked 0 = false ∧
  ∀ a : Nat, lo ≤ a → a < hi → s.encRefuse r 0 a rd wr = none ∧ s.integ a = false ∧ s.engineTakes a = true

/-- DDR holds the bytes d from address a on, and every other byte as in s. -/
def DdrStored (a : Nat) (d : List Byte) (s r : State) : Prop :=
  r.mem.ddr.readBytes a d.length = d ∧
  ∀ b : Nat, b < a ∨ a + d.length ≤ b → r.mem.ddr.read b = s.mem.ddr.read b

/-- Engine e has ended its item: it is free, and its count of items has grown (R246). -/
def EngineFreed (e : Nat) (s r : State) : Prop :=
  Table.get (fun _ => none) r.svc.engines e = none ∧
  (r.rd .svcEngItems e).toNat = min 0xFFFFFFFF ((s.rd .svcEngItems e).toNat + 1)

/-- An item of the supervisor queue has its completion at the queue's end (R243). -/
def SupCompleted (i : SvcItem) (status : Byte) (result : DWord) (s r : State) : Prop :=
  r.svc.cplSup = s.svc.cplSup ++ [⟨i.id, i.tag, status, result⟩]

/-- The addresses at which recording an error on a page, or raising a cause of it, may store: PG_INT_STAT,
PG_ERR_STAT and PG_ERR_INFO (R47, R49, R60). -/
def errRegs (page : Nat) : List Nat := [page + 0xC, page + 0x18, page + 0x1C]

/-- A table stands in canonical form for values that read 0 when they are not listed. -/
def zeroed {w : Nat} (m : Table (BitVec w)) : Prop := Table.wf (fun _ => 0) m = true

/-- The storage of a tile stands in canonical form. -/
def Tile.Canonical (x : Tile) : Prop :=
  Memory.wf x.pantry = true ∧
  Table.wf (fun _ => false) x.thenHalf = true ∧ Table.wf (fun _ => none) x.nowHalf = true ∧
  Table.wf (fun _ => false) x.dirty0 = true ∧ Table.wf (fun _ => false) x.dirty1 = true ∧
  zeroed x.wuReg ∧ zeroed x.tap ∧ zeroed x.flags ∧ zeroed x.mbx ∧ zeroed x.qData ∧
  Table.wf (fun _ => 0) x.qHead = true ∧ Table.wf (fun _ => 0) x.qCount = true ∧
  zeroed x.bpCode ∧ zeroed x.wuCode ∧ zeroed x.ctrl ∧ zeroed x.dest ∧ zeroed x.tmpl ∧ zeroed x.probeList

/-- Everything that is stored by address or by number stands in canonical form: the keys rise, and no entry is
what an unlisted key reads as. -/
def State.Canonical (s : State) : Prop :=
  Table.wf regInit s.regs = true ∧
  Table.wf (fun _ => Tile.reset) s.tiles = true ∧
  (∀ k : Nat, (s.tile k).Canonical) ∧
  Memory.wf s.mem.larder = true ∧
  Memory.wf s.mem.ddr = true ∧
  Table.wf (fun _ => LogicalPort.reset) s.ports = true ∧
  Table.wf (fun _ => none) s.svc.engines = true ∧
  Table.wf (fun _ => none) s.enc.slots = true ∧
  Table.wf (fun _ => none) s.led.sensors = true ∧
  Table.wf (fun _ => []) s.host.porter = true

end Sys2Proof.Machine
end

