-- ==== Sys2Proof/Certificates/Slice0/Obligations.lean ====
section
/-! DEFINITION. The statements for the provers. -/

open Sys2Proof Sys2Proof.Machine

/-! ## The queue and the block as a whole -/

/-- A step takes the command at the front of the queue and runs it on the state with the queue's rest. -/
def Obligations.StepRunsFrontCommand : Prop :=
  ∀ (c : Instr) (s : State),
    step { s with pending := c :: s.pending } = exec c s

/-- On an empty queue a step is a tick of 40 ns of the always-on domain, the model's choice (assumption 5): it
completes, counts the time since AON start, and does nothing while that domain does not run. -/
def Obligations.EmptyQueueTicks : Prop :=
  ∀ s : State, s.pending = [] →
    ∃ t : State, step s = .next t ∧ t.pending = [] ∧
      (s.aon = true → t.sup.ns = s.sup.ns + 40) ∧
      (s.aon = false → t = s)

/-- No command that names units of the device stops the block: it answers a next state in every state. That a command
whose condition does not hold answers the state as it stands is the model's choice (DESIGN CHOICE, assumption 4). -/
def Obligations.WellFormedCommandsComplete : Prop :=
  ∀ (c : Instr) (s : State), c.wf = true → ∃ t : State, exec c s = .next t

/-- A command on a unit that the device does not have is no event of it: the block faults by name, in every state. -/
def Obligations.AbsentUnitFaults : Prop :=
  ∀ (c : Instr) (s : State), c.wf = false → exec c s = .fault .noSuchUnit

/-- No command's meaning touches the queue of waiting commands or the fuses. -/
def Obligations.CommandsKeepQueueAndFuses : Prop :=
  ∀ (c : Instr) (s t : State), exec c s = .next t → t.pending = s.pending ∧ t.fuses = s.fuses

/-- Every step keeps the register pages, the tiles and their pantries, the larder and DDR in canonical form. -/
def Obligations.StepKeepsCanonical : Prop :=
  ∀ s t : State, s.Canonical → step s = .next t → t.Canonical

/-- The state after reset is canonical, and its queue is empty. -/
def Obligations.ResetIsCanonical : Prop :=
  State.reset.Canonical ∧ State.reset.pending = []

/-! ## Word units (R94 to R102) -/

/-- The results of the two-input operations, of MOV, SEL and CMP: each becomes visible four steps after its issue
in register DST. Only the issuing tile changes, unless an input, a reserved CC or under MOV a reserved AM is
reported (R97; assumption 18). -/
def Obligations.WordUnitResults : Prop :=
  ∀ (t u : Nat) (f : WuFields) (s : State), s.Canonical → t < 136 → u < 16 → s.stepping t = true →
    let x := s.tile t
    let a := x.inA u f
    let b := x.inB u f false
    let c := x.inC u f
    let n := b.1.toNat % 32
    let cc := f.cc.toNat
    let holds := (cc = 0 ∧ a.1 = b.1) ∨ (cc = 1 ∧ a.1 ≠ b.1) ∨ (cc = 2 ∧ a.1.toNat < b.1.toNat) ∨
      (cc = 3 ∧ b.1.toNat ≤ a.1.toNat) ∨ (cc = 4 ∧ a.1.toInt < b.1.toInt) ∨ (cc = 5 ∧ b.1.toInt ≤ a.1.toInt)
    let bad := ccIllegal x u f
    let ab := a.2 ++ b.2 ++ bad
    Does (.mov t u f) s (fun r => Issues t u f s r b.1 none 0 (b.2 ++ amIllegal x u f ++ bad)) ∧
    Does (.add t u f) s (fun r => Issues t u f s r (BitVec.ofNat 32 (a.1.toNat + b.1.toNat)) none 0 ab) ∧
    Does (.sub t u f) s (fun r =>
      Issues t u f s r (BitVec.ofNat 32 (2 ^ 32 + a.1.toNat - b.1.toNat)) none 0 ab) ∧
    Does (.and t u f) s (fun r => Issues t u f s r (a.1 &&& b.1) none 0 ab) ∧
    Does (.or t u f) s (fun r => Issues t u f s r (a.1 ||| b.1) none 0 ab) ∧
    Does (.xor t u f) s (fun r => Issues t u f s r (a.1 ^^^ b.1) none 0 ab) ∧
    Does (.shl t u f) s (fun r => Issues t u f s r (a.1 <<< n) none 0 ab) ∧
    Does (.shr t u f) s (fun r => Issues t u f s r (a.1 >>> n) none 0 ab) ∧
    Does (.sar t u f) s (fun r => Issues t u f s r (a.1.sshiftRight n) none 0 ab) ∧
    Does (.ror t u f) s (fun r => Issues t u f s r (a.1.rotateRight n) none 0 ab) ∧
    Does (.sel t u f) s (fun r =>
      Issues t u f s r (if c.1.toNat % 2 = 1 then a.1 else b.1) none 0 (ab ++ c.2)) ∧
    ((holds → Does (.cmp t u f) s (fun r => Issues t u f s r 1 none 0 ab)) ∧
      (¬ holds → cc < 6 → Does (.cmp t u f) s (fun r => Issues t u f s r 0 none 0 ab)) ∧
      (6 ≤ cc → Does (.cmp t u f) s (fun r => Issues t u f s r 0 none 0 ab)))

/-- EXT, INS and MRG, bit by bit, with pos = P1[4:0] and w = P2[5:0]; a field outside the word is reported.
MULU and MULS give the 64-bit product, low word to DST and high word to DST + 1; an odd DST is reported. -/
def Obligations.WordUnitFieldsAndProducts : Prop :=
  (
    ∀ (t u : Nat) (f : WuFields) (s : State), s.Canonical → t < 136 → u < 16 → s.stepping t = true →
      let x := s.tile t
      let a := x.inA u f
      let c := x.inC u f
      let pos := f.p1.toNat % 32
      let w := f.p2.toNat % 64
      let bad := (if w = 0 ∨ 32 < pos + w then [x.wuIllegal u] else []) ++ ccIllegal x u f
      (∃ v : Word, Does (.ext t u f) s (fun r => Issues t u f s r v none 0 (a.2 ++ bad)) ∧
        ∀ i < 32, v.getLsbD i = (decide (i < w) && a.1.getLsbD (pos + i))) ∧
      (∃ v : Word, Does (.ins t u f) s (fun r => Issues t u f s r v none 0 (a.2 ++ c.2 ++ bad)) ∧
        ∀ i < 32, v.getLsbD i =
          if pos ≤ i ∧ i < pos + w then a.1.getLsbD (i - pos) else c.1.getLsbD i) ∧
      (∃ v : Word, Does (.mrg t u f) s (fun r => Issues t u f s r v none 0 (a.2 ++ c.2 ++ bad)) ∧
        ∀ i < 32, v.getLsbD i =
          if pos ≤ i ∧ i < pos + w then a.1.getLsbD i else c.1.getLsbD i)) ∧
  (
    ∀ (t u : Nat) (f : WuFields) (s : State), s.Canonical → t < 136 → u < 16 → s.stepping t = true →
      let x := s.tile t
      let a := x.inA u f
      let b := x.inB u f false
      let errs := a.2 ++ b.2 ++ (if f.dst.toNat % 2 = 1 then [x.wuIllegal u] else []) ++ ccIllegal x u f
      let p := a.1.toNat * b.1.toNat
      let q := a.1.toInt * b.1.toInt
      let hiU : Word := BitVec.ofNat 32 (p / 2 ^ 32)
      let hiS : Word := BitVec.ofInt 32 (q / 2 ^ 32)
      Does (.mulu t u f) s (fun r => Issues t u f s r (BitVec.ofNat 32 p) (some hiU) hiU errs) ∧
      Does (.muls t u f) s (fun r => Issues t u f s r (BitVec.ofInt 32 q) (some hiS) hiS errs))

/-- LD, LDH, ST and STH issue one access at E = (a + IMM) mod 2^20 and change nothing else of the tile; a word unit
NOP changes nothing.
The accesses issued two steps before take place: a byte that no due access stores to keeps its value, a tile
that owns no bank stores nothing, and one due store of an owned word stores its bytes.
One due access alone: LD gives W[q] rotated right by 8k, LDH the lanes from 4 - k on of W[q + 1] so rotated over c, ST
and STH store their lanes of the data rotated left by 8k; an access to a bank that the tile does not own gives 0, or c,
stores nothing and is PANTRY_OWNER. That the bank of LDH and STH is the one of W[q + 1] is assumption 80. -/
def Obligations.PantryAccesses : Prop :=
  (
    ∀ (t u : Nat) (f : WuFields) (s : State), s.Canonical → t < 136 → u < 16 → s.stepping t = true →
      let x := s.tile t
      let a := x.inA u f
      let b := x.inB u f true
      let c := x.inC u f
      let e : BitVec 20 := BitVec.ofNat 20 (a.1.toNat + f.imm.toNat)
      let size := storeSize f
      Does (.ld t u f) s (fun r =>
        Accesses t s r ⟨u, x.step, .ld, e, size, 0, 0, f.dst.toNat, f.tap⟩
          (a.2 ++ bmIllegal x u f ++ ccIllegal x u f)) ∧
      Does (.ldh t u f) s (fun r =>
        Accesses t s r ⟨u, x.step, .ldh, e, size, 0, c.1, f.dst.toNat, f.tap⟩
          (a.2 ++ c.2 ++ bmIllegal x u f ++ ccIllegal x u f)) ∧
      Does (.st t u f) s (fun r =>
        Accesses t s r ⟨u, x.step, .st, e, size, b.1, 0, f.dst.toNat, f.tap⟩ (a.2 ++ b.2 ++ tapIllegal x u f ++
          ccIllegal x u f ++ if f.p1.toNat % 4 = 3 then [x.wuIllegal u] else [])) ∧
      Does (.sth t u f) s (fun r =>
        Accesses t s r ⟨u, x.step, .sth, e, size, b.1, 0, f.dst.toNat, f.tap⟩ (a.2 ++ b.2 ++ tapIllegal x u f ++
          ccIllegal x u f ++ if f.p1.toNat % 4 = 3 then [x.wuIllegal u] else [])) ∧
      Does (.wuNop t u f) s (fun r => r.tiles = s.tiles ∨ TilesSame s r) ∧
      (f.tap = false → f.am ≠ 3 → f.cc.toNat < 6 →
        Does (.wuNop t u f) s (fun r => TilesSame s r ∧ Only [.tiles] s r))) ∧
  (
    ∀ (t : Nat) (s : State), s.Canonical → t < 136 → s.stepping t = true →
      let x := s.tile t
      let due := x.accesses.filter fun a => a.step + 2 ≤ x.step
      Does (.pantryAccess t) s (fun r =>
        (r.tile t).accesses = x.accesses.filter (fun a => x.step < a.step + 2) ∧
        TilesBut t s r ∧
        (∀ a : Nat, (∀ p ∈ due, a ∉ p.stores.map Prod.fst) →
          (r.tile t).pantry.read a = x.pantry.read a) ∧
        ((∀ k : Nat, s.tileOwns t k = false) → (r.tile t).pantry = x.pantry) ∧
        (∀ p : PanAccess, due = [p] → p.wu < 16 → (∀ w : Nat, p.word = some w → s.tileOwns t (w / 2 ^ 14) = true) →
          ∀ e ∈ p.stores, (r.tile t).pantry.read e.1 = e.2))) ∧
  (
    ∀ (t : Nat) (p : PanAccess) (s : State), s.Canonical → t < 136 → s.stepping t = true →
      (s.tile t).accesses = [p] → p.step + 2 ≤ (s.tile t).step → p.wu < 16 → p.size ≤ 4 →
      let x := s.tile t
      let q := p.addr.toNat / 4
      let k := p.addr.toNat % 4
      let q1 := (q + 1) % 2 ^ 18
      let owned (w : Nat) : Prop := s.tileOwns t (w / 2 ^ 14) = true
      let rotated (w i : Nat) : Bool := (x.pantry.read (4 * w + (i / 8 + k) % 4)).getLsbD (i % 8)
      let loaded (v : Word) (r : State) : Prop :=
        (r.tile t).results = x.results ++ [⟨p.wu, p.step + 4, p.dst, v, none, 0, p.tap⟩] ∧
        (r.tile t).pantry = x.pantry ∧ (r.tile t).accesses = []
      let lane (j : Nat) : Byte := p.data.extractLsb' (8 * j) 8
      let refused (w : Nat) (r : State) : Prop := 0 < bits (r.reg (tilePage t 4 + 0x18)) 31 16 ∧
        (bits (s.reg (tilePage t 4 + 0x18)) 31 16 = 0 → r.reg (tilePage t 4 + 0x18) = 0x11023 ∧
          r.reg (tilePage t 4 + 0x1C) =
            BitVec.ofNat 32 (p.step * 2 ^ 22 + p.wu * 2 ^ 18 + w / 2 ^ 14 * 2 ^ 14 + w % 2 ^ 14))
      (p.op = .ld → owned q → ∃ v : Word, Does (.pantryAccess t) s (loaded v) ∧
        ∀ i < 32, v.getLsbD i = rotated q i) ∧
      (p.op = .ldh → k = 0 → Does (.pantryAccess t) s (loaded p.c)) ∧
      (p.op = .ldh → 0 < k → owned q1 → ∃ v : Word, Does (.pantryAccess t) s (loaded v) ∧
        ∀ i < 32, v.getLsbD i = if i < 8 * (4 - k) then p.c.getLsbD i else rotated q1 i) ∧
      (p.op = .st → owned q → Does (.pantryAccess t) s (fun r => (r.tile t).results = x.results ∧
        (∀ j < 4, (r.tile t).pantry.read (4 * q + j) =
          if k ≤ j ∧ j < k + p.size then lane (j - k) else x.pantry.read (4 * q + j)) ∧
        ∀ a : Nat, a / 4 ≠ q → (r.tile t).pantry.read a = x.pantry.read a)) ∧
      (p.op = .sth → 4 < k + p.size → owned q1 → Does (.pantryAccess t) s (fun r => (r.tile t).results = x.results ∧
        (∀ j < 4, (r.tile t).pantry.read (4 * q1 + j) =
          if j + 4 < k + p.size then lane (j + 4 - k) else x.pantry.read (4 * q1 + j)) ∧
        ∀ a : Nat, a / 4 ≠ q1 → (r.tile t).pantry.read a = x.pantry.read a)) ∧
      (p.op = .sth → k + p.size ≤ 4 → Does (.pantryAccess t) s (fun r =>
        (r.tile t).results = x.results ∧ (r.tile t).pantry = x.pantry)) ∧
      (p.op = .ld → ¬ owned q → Does (.pantryAccess t) s (fun r => loaded 0 r ∧ refused q r)) ∧
      (p.op = .ldh → 0 < k → ¬ owned q1 → Does (.pantryAccess t) s (fun r => loaded p.c r ∧ refused q1 r)) ∧
      (p.op = .st → ¬ owned q → Does (.pantryAccess t) s (fun r =>
        (r.tile t).results = x.results ∧ (r.tile t).pantry = x.pantry ∧ refused q r)) ∧
      (p.op = .sth → 4 < k + p.size → ¬ owned q1 → Does (.pantryAccess t) s (fun r =>
        (r.tile t).results = x.results ∧ (r.tile t).pantry = x.pantry ∧ refused q1 r)))

/-- A result that has become due is written to its register, its second register and its tap; registers that no due
result names keep their values. -/
def Obligations.DueResultsBecomeVisible : Prop :=
  ∀ (t : Nat) (s : State), s.Canonical → t < 136 → s.stepping t = true →
    let x := s.tile t
    Does (.wuResultVisible t) s (fun r =>
      Only [.tiles] s r ∧ TilesBut t s r ∧
      (r.tile t).results = x.results.filter (fun w => x.step < w.due) ∧
      (r.tile t).pantry = x.pantry ∧ (r.tile t).flags = x.flags ∧ (r.tile t).thenHalf = x.thenHalf ∧
      (∀ u k : Nat, u < 16 → k < 256 →
        (∀ w ∈ x.results, w.wu < 16 ∧ w.dst < 256 ∧
          (w.due ≤ x.step → w.wu = u → w.dst ≠ k ∧ (w.hi.isSome = true → (w.dst + 1) % 256 ≠ k))) →
        (r.tile t).wreg u k = x.wreg u k) ∧
      (∀ w : WuResult, x.results = [w] → w.due ≤ x.step →
        (w.hi = none → (r.tile t).wreg w.wu w.dst = w.lo) ∧
        (∀ h : Word, w.hi = some h → w.dst < 255 → (r.tile t).wreg w.wu w.dst = w.lo ∧
          (r.tile t).wreg w.wu (w.dst + 1) = h) ∧
        (w.tap = true → lo32 ((r.tile t).tapOf w.wu) = w.lo ∧ hi32 ((r.tile t).tapOf w.wu) = w.tapHi) ∧
        (w.tap = false → (r.tile t).tap = x.tap)))

/-! ## Boolean processors (R79 to R93) and the step of a tile -/

/-- R86: a reserved operand code reads as 0 and is ILLEGAL_ENCODING. -/
def Obligations.ReservedOperandCode : Prop :=
  ∀ (e : TileEnv) (x : Tile) (b code : Nat) (upper : Bool),
    (0x680 < code ∧ code < 0x7F0) ∨ (0x7FB < code ∧ code < 0x800) →
    (bpOperand e x b code upper).1 = false ∧
    (bpOperand e x b code upper).2 = some (0x1024, x.step * 2 ^ 22 + b)

/-- A step whose control word is NOP, in a tile with no work in flight. Every BP computes TT[8d + 4c + 2b + a] from the
values that its operand selects give it: its output goes to the step bus; WR 1 and 2 write it to the now-half
position of the step too; WR 2 drives it, or with SP[1] its complement, onto the wire that OPD names, where the
lowest BP of a wire wins and a second one is SPINE_CONFLICT. A wire that no BP names carries 0. The tile goes to
the next step. -/
def Obligations.TileStepRunsProcessors : Prop :=
  ∀ (t : Nat) (s : State), s.Canonical → t < 136 → s.stepping t = true → s.prf.replay = [] →
    (s.tile t).ctrlWord (s.tile t).step = 0 → (s.tile t).step < 1023 →
    (s.tile t).results = [] → (s.tile t).accesses = [] →
    let x := s.tile t
    let value (b code : Nat) (upper : Bool) : Bool :=
      if code < 0x400 then (if upper then x.nowBit b code else x.thenBit b code)
      else if code < 0x600 then x.bus.getLsbD (code - 0x400)
      else if code < 0x680 then s.pins.din.getLsbD (code - 0x600)
      else if code = 0x680 then decide (s.run.batch = s.ldr.firstBatch)
      else if code = 0x7F1 then true
      else if 0x7F2 ≤ code ∧ code ≤ 0x7F9 then
        x.mbxValid.getLsbD (8 * (code - 0x7F2) + b / 64) &&
          (x.slot (8 * (code - 0x7F2) + b / 64)).getLsbD (b % 64)
      else if code = 0x7FA then (x.tapOf (b / 32)).getLsbD (b % 32)
      else if code = 0x7FB then (x.tapOf (b / 32)).getLsbD (32 + b % 32)
      else false
    let i (b : Nat) : DWord := x.bpInstr x.step b
    let wr (b : Nat) : Nat := bits (i b) 3 2
    let d (b : Nat) : Bool := if wr b = 2 then (i b).getLsbD 0 else value b (bits (i b) 14 4) true
    let out (b : Nat) : Bool := (i b).getLsbD (48 + 8 * b2n (d b) + 4 * b2n (value b (bits (i b) 25 15) true) +
      2 * b2n (value b (bits (i b) 36 26) false) + b2n (value b (bits (i b) 47 37) false))
    let drives (b w : Nat) : Prop := wr b = 2 ∧ bits (i b) 9 4 = w
    Does (.tileStep t) s (fun r =>
      (r.tile t).step = x.step + 1 ∧ (r.tile t).phase = .exec ∧ (r.tile t).hold = none ∧
      TilesBut t s r ∧ (r.tile t).thenHalf = x.thenHalf ∧ (r.tile t).flags = x.flags ∧
      (r.tile t).pantry = x.pantry ∧
      (∀ b < 512, (r.tile t).bus.getLsbD b = out b ∧
        (r.tile t).nowBit b x.step = if wr b = 1 ∨ wr b = 2 then out b else x.nowBit b x.step) ∧
      (∀ b n : Nat, b < 512 → n < 1024 → n ≠ x.step → (r.tile t).nowBit b n = x.nowBit b n) ∧
      (∀ w < 64, (∀ b < 512, ¬ drives b w) → (r.tile t).spine.getLsbD w = false) ∧
      (∀ b w : Nat, b < 512 → w < 64 → drives b w → (∀ c < b, ¬ drives c w) →
        (r.tile t).spine.getLsbD w = (out b != (i b).getLsbD 1)) ∧
      ((∃ b c w : Nat, b < c ∧ c < 512 ∧ w < 64 ∧ drives b w ∧ drives c w) →
        0 < bits (r.reg (tilePage t 4 + 0x18)) 31 16))

/-! ## Control words (R112 to R131) -/

/-- WAIT and REST consume COUNT from a flag that covers it, and hold the tile otherwise; COUNT 0 is reported.
WAIT_RELEASE lets the held step run, and the flag loses COUNT. -/
def Obligations.FlagsHoldAndRelease : Prop :=
  ∀ (t flag count : Nat) (s : State), s.Canonical → t < 136 → flag < 1024 → count < 16 →
    let x := s.tile t
    let taken (r : State) : Prop :=
      (r.tile t).flag flag = x.flag flag - count ∧ (∀ g : Nat, g ≠ flag → (r.tile t).flag g = x.flag g) ∧
      (r.tile t).hold = none ∧ (r.tile t).step = x.step ∧ (r.tile t).pantry = x.pantry ∧
      TilesBut t s r ∧ Only [.tiles] s r
    let held (k : HoldKind) (r : State) : Prop :=
      (r.tile t).hold = some ⟨k, flag, count, 0⟩ ∧ (r.tile t).flags = x.flags ∧ (r.tile t).step = x.step ∧
      TilesBut t s r ∧ Only [.tiles] s r
    (s.stepping t = true → 0 < count → count ≤ x.flag flag →
      Does (.wait t flag count) s taken ∧ Does (.rest t flag count) s taken) ∧
    (s.stepping t = true → x.flag flag < count →
      Does (.wait t flag count) s (held .wait) ∧ Does (.rest t flag count) s (held .rest)) ∧
    (s.stepping t = true → count = 0 →
      Does (.wait t flag count) s (fun r => TilesSame s r ∧ 0 < bits (r.reg (tilePage t 4 + 0x18)) 31 16) ∧
      Does (.rest t flag count) s (fun r => TilesSame s r ∧ 0 < bits (r.reg (tilePage t 4 + 0x18)) 31 16)) ∧
    (∀ (h : Hold) (op : Nat), s.executing t = true → x.hold = some h → h.flag = flag → h.count = count →
      (h.kind = .wait ∧ op = 1) ∨ (h.kind = .rest ∧ op = 8) →
      0 < count → count ≤ x.flag flag → x.step < 1023 → s.prf.replay = [] →
      x.ctrlWord x.step = BitVec.ofNat 32 (op * 2 ^ 28 + flag * 2 ^ 18 + count * 2 ^ 14) →
      Does (.waitRelease t) s (fun r =>
        (r.tile t).hold = none ∧ (r.tile t).step = x.step + 1 ∧
        (r.tile t).flag flag = x.flag flag - count ∧ TilesBut t s r))

/-- SIGNAL, and SEND and ENQ to this device's own ID, put one packet tagged with the batch onto the exchange of the
device; to another device the packet takes a place of the interface and leaves by the route of its DEVICE. The data
is the spine, or two registers of a word unit. An entry whose KIND does not fit and a DEVICE without a route send
nothing and are DEST_INVALID; with every place taken the tile holds. So does a virtual tile of this device that nothing
serves, with the reason of R181: that it is DEST_INVALID at issue, where R124 speaks of delivery, is the model's choice
(DEDUCED, assumption 21). -/
def Obligations.ControlWordsSendPackets : Prop :=
  ∀ (t vt flag entry src wu reg count : Nat) (half : BitVec 12) (hops : BitVec 36) (s : State), s.Canonical → t < 136 →
    vt < 128 → flag < 1024 → entry < 256 → src < 2 → wu < 16 → reg < 256 → s.stepping t = true →
    let x := s.tile t
    let e := x.destEntry entry
    let data : DWord := if src = 0 then x.spine else x.wreg wu ((reg + 1) % 256) ++ x.wreg wu reg
    let own : Prop := destDevice e = s.devId ∧ (s.ptile (destVtile e)).isSome = true
    let sent (p : Packet) (r : State) : Prop :=
      r.net.loc = s.net.loc ++ [p] ∧ TilesBut t s r ∧ (r.tile t).flags = x.flags ∧
      (r.tile t).step = x.step ∧ (r.tile t).retry = x.retry ∧ r.mem = s.mem
    let invalid (r : State) : Prop := r.net = s.net ∧ TilesSame s r ∧
      0 < bits (r.reg (tilePage t 1 + 0x18)) 31 16
    let remote : Prop := destDevice e ≠ s.devId ∧ x.retry = [] ∧ s.prf.replay = []
    let leaves (p : Packet) (r : State) : Prop := (∃ alone : Bool, (r.tile t).retry = [⟨p, .awaiting alone⟩]) ∧
      r.net = { s.net with quad := s.net.quad ++ [⟨none,
        { p with count := count, half := half, hop := hops, next := 1, rcount := 0, ret := 0 }⟩] } ∧
      TilesBut t s r ∧ (r.tile t).flags = x.flags ∧ (r.tile t).step = x.step ∧ (src = 0 → Only [.tiles, .net] s r)
    let full (r : State) : Prop := (r.tile t).hold = some ⟨.retry, 0, 0, 0⟩ ∧ r.net = s.net ∧
      TilesBut t s r ∧ Only [.tiles] s r
    ((s.ptile vt).isSome = true →
      Does (.signal t vt flag) s (fun r =>
        sent (s.mkPacket t s.devId vt flag 0 256 .flag 0) r ∧ Only [.tiles, .net] s r)) ∧
    (x.retry.length < 32 → own → destKind e = 1 →
      Does (.send t entry src wu reg) s
        (sent (s.mkPacket t s.devId (destVtile e) (destFlag e) (destIndex e) entry .mailbox data))) ∧
    (x.retry.length < 32 → own → destKind e = 2 →
      Does (.send t entry src wu reg) s
        (sent (s.mkPacket t s.devId (destVtile e) (destFlag e) (destIndex e) entry .flag 0))) ∧
    (x.retry.length < 32 → own → destKind e = 3 →
      Does (.enq t entry src wu reg) s
        (sent (s.mkPacket t s.devId (destVtile e) (destFlag e) (destIndex e) entry .queue data))) ∧
    (x.retry.length < 32 → destKind e ≠ 3 → Does (.enq t entry src wu reg) s invalid) ∧
    (32 ≤ x.retry.length → Does (.send t entry src wu reg) s full ∧ Does (.enq t entry src wu reg) s full) ∧
    (x.retry.length < 32 → destKind e = 0 ∨ destKind e = 3 → Does (.send t entry src wu reg) s invalid) ∧
    (x.retry.length < 32 → destDevice e = s.devId → s.ptile (destVtile e) = none →
      Does (.send t entry src wu reg) s invalid ∧ Does (.enq t entry src wu reg) s invalid) ∧
    (s.ptile vt = none → Does (.signal t vt flag) s invalid) ∧
    (remote → s.route (destDevice e) = some (count, half, hops) →
      (destKind e = 1 → Does (.send t entry src wu reg) s
        (leaves (s.mkPacket t (destDevice e) (destVtile e) (destFlag e) (destIndex e) entry .mailbox data))) ∧
      (destKind e = 2 → Does (.send t entry src wu reg) s
        (leaves (s.mkPacket t (destDevice e) (destVtile e) (destFlag e) (destIndex e) entry .flag 0))) ∧
      (destKind e = 3 → Does (.enq t entry src wu reg) s
        (leaves (s.mkPacket t (destDevice e) (destVtile e) (destFlag e) (destIndex e) entry .queue data)))) ∧
    (remote → s.route (destDevice e) = none →
      (destKind e = 1 ∨ destKind e = 2 → Does (.send t entry src wu reg) s invalid) ∧
      (destKind e = 3 → Does (.enq t entry src wu reg) s invalid))

/-- DEQ moves the head entry into the slot, or 0 with QUEUE_UNDERRUN, and advances HEAD; SVC hands one token to the
dispatcher; MARK reaches the trace buffer, but on a tile without probes, which takes no part in the trace (R419;
DEDUCED, assumption 55); a control NOP does nothing; END lets the tile rest. -/
def Obligations.ControlWordsAct : Prop :=
  ∀ (t q slot tmpl token : Nat) (v : Half) (s : State), s.Canonical → t < 136 → q < 64 → slot < 64 → tmpl < 256 →
    token < 4 → s.stepping t = true →
    let x := s.tile t
    Does (.nop t) s (fun r => r = s) ∧
    (0 < x.qLen q →
      Does (.deq t q slot) s (fun r =>
        (r.tile t).slot slot = Table.get (fun _ => 0) x.qData (q * 16 + x.qPos q) ∧
        bit (r.tile t).mbxValid slot = true ∧ (r.tile t).qLen q = x.qLen q - 1 ∧
        (r.tile t).qPos q = (x.qPos q + 1) % 16 ∧ TilesBut t s r ∧ Only [.tiles] s r)) ∧
    (x.qLen q = 0 →
      Does (.deq t q slot) s (fun r =>
        (r.tile t).slot slot = 0 ∧ bit (r.tile t).mbxValid slot = true ∧ (r.tile t).qPos q = (x.qPos q + 1) % 16 ∧
        0 < bits (r.reg (tilePage t 3 + 0x18)) 31 16 ∧ TilesBut t s r)) ∧
    (x.retry.length < 32 → s.svcAccepts t tmpl token = true →
      Does (.svc t tmpl 0 0 0 token) s (fun r =>
        r.svc.tokens = s.svc.tokens ++ [⟨x.spine, x.xbatch, x.vtile.getD 0, token, tmpl, x.template tmpl,
          x.leads tmpl⟩] ∧
        r.svc.store = s.svc.store ∧ TilesBut t s r ∧ Only [.tiles, .svc] s r)) ∧
    (bit (s.rd .acqCtrl) 27 = true → x.probes ≠ 0 →
      (x.marks.filter fun m => m.batch = s.run.batch).length < 64 → x.marks.length < 2048 →
      (∀ m ∈ x.marks, m.batch = s.run.batch → m.step ≠ x.step) →
      Does (.mark t v) s (fun r =>
        (r.tile t).marks = x.marks ++ [⟨s.run.batch, x.step, v⟩] ∧ (r.tile t).step = x.step ∧
        TilesBut t s r ∧ Only [.tiles] s r)) ∧
    (bit (s.rd .acqCtrl) 27 = false ∨ x.probes = 0 → Does (.mark t v) s (fun r => r = s)) ∧
    (s.prf.replay = [] →
      Does (.endStep t) s (fun r =>
        (r.tile t).phase = .resting ∧ (r.tile t).step = 1024 ∧ (r.tile t).hold = none ∧ TilesBut t s r))

/-- A WAIT that has held for longer than TIL_WAIT_LIMIT, or a REST for longer than TIL_REST_LIMIT, stops the device
at once with cause WAIT_TIMEOUT; a tile that holds for a place of its interface proceeds when one is free. -/
def Obligations.HoldLimitsStopTheDevice : Prop :=
  ∀ (t : Nat) (h : Hold) (s : State), s.Canonical → t < 136 → s.executing t = true → (s.tile t).hold = some h →
    let x := s.tile t
    let stopped (r : State) : Prop :=
      r.run.state = .halted ∧ r.run.resumable = false ∧ bit r.run.causes 10 = true ∧
      (r.tile t).phase = .fault ∧ r.run.inBatch = false ∧ bit (r.rd .glbAlert) 0 = true ∧
      0 < bits (r.reg (tilePage t 1 + 0x18)) 31 16 ∧ r.mem.ddr = s.mem.ddr ∧ r.mem.larder = s.mem.larder
    (h.kind = .wait → (s.rd .tilWaitLimit t).toNat ≠ 0 → (s.rd .tilWaitLimit t).toNat < h.ns →
      Does (.waitTimeout t) s stopped) ∧
    (h.kind = .rest → (s.rd .tilRestLimit t).toNat ≠ 0 → (s.rd .tilRestLimit t).toNat * 1000 < h.ns →
      Does (.restTimeout t) s stopped) ∧
    (h.kind = .retry → x.retry.length < 32 → x.step < 1023 →
      let w := x.ctrlWord x.step
      let op := bits w 31 28
      op = 3 ∨ op = 4 ∨ (op = 6 ∧ s.svcAccepts t (bits w 27 20) (bits w 6 5) = true) →
      Does (.retryBufferFree t) s (fun r =>
        (r.tile t).hold = none ∧ (r.tile t).step = x.step + 1 ∧ TilesBut t s r))

/-! ## Packets (R119, R120, R124 to R127, R135 to R137) -/

/-- R120: an increment takes a flag from 15 to 15, the excess is lost, and FLAG_OVERFLOW is recorded once for the
packet, on page 1 of the destination tile; no other packet's increment records it. The mailbox or queue part is
applied as where no flag stands above 0; what that part is, PacketsAndAnswersArrive says. -/
def Obligations.FlagIncrementSaturates : Prop :=
  ∀ (t : Nat) (p : Packet) (s : State), s.Canonical → t < 136 → p.flag < 1024 →
    let x := s.tile t
    let r := s.applyPacket t p
    let y := r.tile t
    let z := ((s.setTile t { x with flags := [] }).applyPacket t p).tile t
    let errs (s : State) : Word := s.reg (tilePage t 1 + 0x18)
    y.flag p.flag = min 15 (x.flag p.flag + 1) ∧
    (∀ g : Nat, g ≠ p.flag → y.flag g = x.flag g) ∧
    (x.flag p.flag < 15 → errs r = errs s) ∧
    (x.flag p.flag = 15 → bits (errs r) 31 16 = min 0xFFFF (bits (errs s) 31 16 + 1) ∧
      (bits (errs s) 31 16 = 0 → errs r = 0x11011)) ∧
    y.mbx = z.mbx ∧ y.mbxValid = z.mbxValid ∧ y.mbxHeld = z.mbxHeld ∧
    y.qData = z.qData ∧ y.qHead = z.qHead ∧ y.qCount = z.qCount

/-- Arrivals: a local packet is applied at its tile, a remote one tagged with the tile's exchange batch is applied
and answered ACCEPTED, an ACCEPTED answer frees its place, and a refused packet is sent again after 160 ns, or is
removed when its DEVICE has no route any more. A remote packet for the next batch, or for the batch end in progress,
waits in the rack; one further ahead, or for a full rack, is refused; one for an earlier batch is dropped as stale; one
for a virtual tile that is not served is answered so. A packet that is applied writes its mailbox slot and sets the
valid bit, or appends to its queue. While the set-reset is asserted the valid bits are clear (R91), and the model keeps
which slots were written, to be valid once it is released (DEDUCED, assumption 70). -/
def Obligations.PacketsAndAnswersArrive : Prop :=
  ∀ (t : Nat) (p : Packet) (a : Answer) (s : State), s.Canonical → t < 136 →
    let y := (s.applyPacket t p).tile t
    let len := (s.tile t).qLen p.index
    (p.kind = .mailbox → p.index < 64 → y.slot p.index = p.data ∧
      (s.ldr.setReset = false → bit y.mbxValid p.index = true) ∧
      (s.ldr.setReset = true → bit y.mbxHeld p.index = true)) ∧
    (s.ldr.setReset = true → y.mbxValid = 0) ∧
    (p.kind = .queue → len < 16 → y.qLen p.index = len + 1 ∧
      Table.get (fun _ => 0) y.qData (p.index * 16 + ((s.tile t).qPos p.index + len) % 16) = p.data) ∧
    (∀ rest : List Packet, s.net.loc = p :: rest → s.ptile p.dstVt = some t →
      Does (.packetArrival 0) s (fun r =>
        r.net.loc = rest ∧ (r.tile t).flag p.flag = min 15 ((s.tile t).flag p.flag + 1) ∧ TilesBut t s r ∧
        r.mem = s.mem)) ∧
    (∀ rest : List Packet, s.net.arrivals = p :: rest → s.ptile p.dstVt = some t → s.run.state ≠ .recover →
      p.tag = (s.tile t).xbatch → (s.tile t).phase ≠ .batchEnd → (s.tile t).power ≠ .sleep →
      Does (.remotePacketArrival 0) s (fun r =>
        r.net.arrivals = rest ∧ (s.inputOn = false → TilesBut t s r) ∧
        (r.tile t).flag p.flag = min 15 ((s.tile t).flag p.flag + 1) ∧
        r.net.quadAns = s.net.quadAns ++ [⟨none, answerTo p s.devId .accepted (s.tile t).xbatch⟩])) ∧
    (∀ (rest : List Answer) (e : RetryEntry), s.net.answers = a :: rest → s.ptile a.srcVt = some t →
      a.outcome = .accepted → (s.tile t).retry = [e] → e.pkt.entry = a.entry →
      e.pkt.tag.setWidth 16 = a.tag → (∃ b : Bool, e.stage = .awaiting b) → s.prf.awaiting = false →
      Does (.answerArrival) s (fun r => r.net.answers = rest ∧ (r.tile t).retry = [] ∧
        (s.inputOn = false → TilesBut t s r))) ∧
    (∀ (e : RetryEntry) (n count : Nat) (half : BitVec 12) (hops : BitVec 36), (s.tile t).retry = [e] →
      e.stage = .refused n → 160 ≤ n → e.pkt.entry < 256 → s.route e.pkt.dstDev = some (count, half, hops) →
      Does (.packetResend t e.pkt.entry) s (fun r =>
        (r.tile t).retry = [⟨e.pkt, .awaiting true⟩] ∧ TilesBut t s r ∧ Only [.tiles, .net] s r ∧
        r.net.quad = s.net.quad ++ [⟨none,
          { e.pkt with count := count, half := half, hop := hops, next := 1, rcount := 0, ret := 0 }⟩])) ∧
    (∀ rest : List Packet, s.net.arrivals = p :: rest → s.ptile p.dstVt = some t →
      let x := s.tile t
      let now := x.xbatch.toNat
      let answered (o : AnsOutcome) (r : State) : Prop := r.net = { s.net with
        arrivals := rest, quadAns := s.net.quadAns ++ [⟨none, answerTo p s.devId o x.xbatch⟩] }
      (s.run.state ≠ .recover → x.power ≠ .sleep → x.rack.length < 64 →
        p.tag.toNat = now + 1 ∨ (p.tag.toNat = now ∧ x.phase = .batchEnd) →
        Does (.remotePacketArrival 0) s (fun r => answered .accepted r ∧
          r.tile t = { x with rack := x.rack ++ [p] } ∧ TilesBut t s r ∧ Only [.tiles, .net] s r)) ∧
      (s.run.state = .recover ∨ now + 2 ≤ p.tag.toNat ∨
        (p.tag.toNat = now + 1 ∧ (64 ≤ x.rack.length ∨ x.power = .sleep)) →
        Does (.remotePacketArrival 0) s (fun r => answered .refused r ∧ Only [.net] s r)) ∧
      (s.run.state ≠ .recover → p.tag.toNat < now →
        Does (.remotePacketArrival 0) s (fun r => answered .stale r ∧ TilesSame s r ∧ r.mem = s.mem ∧
          0 < bits (r.reg (tilePage t 1 + 0x18)) 31 16))) ∧
    (∀ rest : List Packet, s.net.arrivals = p :: rest → s.ptile p.dstVt = none →
      Does (.remotePacketArrival 0) s (fun r => Only [.net] s r ∧ r.net = { s.net with
        arrivals := rest, quadAns := s.net.quadAns ++ [⟨none, answerTo p s.devId .unserved 0⟩] })) ∧
    (∀ (e : RetryEntry) (n : Nat), (s.tile t).retry = [e] → e.stage = .refused n → 160 ≤ n → e.pkt.entry < 256 →
      s.route e.pkt.dstDev = none →
      Does (.packetResend t e.pkt.entry) s (fun r => r.tile t = { s.tile t with retry := [] } ∧ TilesBut t s r ∧
        r.net = s.net ∧ 0 < bits (r.reg (tilePage t 1 + 0x18)) 31 16))

/-! ## Supplies, resets and start-up (R505 to R522, R525 to R528) -/

/-- The events that put the device into a cold reset, into the unpowered state, or into a trip: run, image, tiles,
memories, links and every register outside the MSI-X structures are at their reset values, the fuses stay, and the
cause is kept for the next start. That DDR, the larder and every register reads its reset value after it is
assumptions 3 and 61 where the spec gives none. A trip comes about in a cold reset too; it is left by RST_N only once
the hottest valid sensor reads below 100 °C (R269, assumption 48), and not by the end of an input current limit. -/
def Obligations.ColdResetAndTrip : Prop :=
  (
    ∀ (mv sensor : Nat) (milliC : Int) (s : State), s.Canonical → sensor < 48 →
      let cold (q : Power) (source : Nat) (r : State) : Prop :=
        r.sup.power = q ∧ r.sup.resetSource = source ∧ r.run = RunCtl.reset ∧ r.ldr = Loader.reset ∧ r.tiles = [] ∧
          r.ports = [] ∧
        r.mem.ddr = [] ∧ r.mem.larder = [] ∧ r.svc = Service.reset ∧ r.enc = Crypt.reset ∧ r.prf = Proofs.reset ∧
        r.acq = Acq.reset ∧ r.net = Network.reset ∧ r.tim = TimeKeeper.reset ∧ r.fuses = s.fuses ∧
        ∀ a : Nat, a < 0xAC000 ∨ 0xAE000 ≤ a → r.reg a = regInit a
      let live : Prop := s.sup.power = .starting ∨ s.sup.power = .running ∨ s.sup.power = .warmReset ∨
        s.sup.power = .shutdown
      (s.sup.power ≠ .unpowered → Does .brownOut s (cold .unpowered 2)) ∧
      (s.sup.power ≠ .unpowered → s.sup.power ≠ .trip → Does .inputCurrentLimit s (cold .coldReset 2)) ∧
      (live → Does .rstNAsserted s (cold .coldReset 1)) ∧
      (live → mv < 1600 → Does (.vioChange mv) s (fun r => cold .coldReset 1 r ∧ r.sup.vioOn = false)) ∧
      (1650 < mv → Does (.vioChange mv) s (fun r => r.sup = { s.sup with vioOn := true } ∧ Only [.sup] s r)) ∧
      (live ∨ s.sup.power = .coldReset → 115000 ≤ milliC → Does (.thermalTrip sensor milliC) s (fun r =>
        cold .trip 3 r ∧ r.pins.thermtripN = false ∧
        (s.bst.slice = none → s.flash.readonly = false → r.flash.trips = s.flash.trips ++ [sensor])))) ∧
  (
    ∀ (s t : State), s.sup.power = .trip →
      exec .inputCurrentLimit s = .next s ∧
      (∀ (v : Int) (k : Nat), s.tjMax = some (v, k) → 400 ≤ v → exec .rstNAsserted s = .next s) ∧
      (∀ (v : Int) (k : Nat), s.tjMax = some (v, k) → v < 400 → exec .rstNAsserted s = .next t →
        t.sup.power = .coldReset ∧ t.sup.resetSource = 3))

/-- COLD_START begins the start-up once VIN is up: the wall clock at 0, SRAM_READY, REFCLK100 present when three
counts of its edges agree, the levels that the board sets, and the cause of the reset, which the AON domain has kept
while VIN stayed above 2.5 V. DDR and larder read 0 (DESIGN CHOICE, assumption 3). With VIO off the device is powered
and stays in the cold reset. DDR_DONE and AUTOLOAD_DONE are the
other two conditions of READY. -/
def Obligations.ColdStartBegins : Prop :=
  ∀ (vin : VinRise) (edges : List Nat) (xtal : Bool) (idbase : BitVec 4) (s : State), s.Canonical →
    s.sup.resetSource < 4 →
    ((s.sup.power = .unpowered ∧ 4400 < vin.mv) ∨ (s.sup.power = .coldReset ∧ 4100 ≤ vin.mv) → s.sup.vioOn = true →
      Does (.coldStart vin edges xtal idbase) s (fun r =>
        r.sup.power = .starting ∧ r.sup.ns = 0 ∧ r.sup.xtal = xtal ∧ r.pins.idbase = idbase ∧
        (r.tim.ref = true ↔ edges.length = 3 ∧ (∀ n ∈ edges, 980 ≤ n ∧ n ≤ 1020) ∧
          ∀ n ∈ edges, ∀ m ∈ edges, n ≤ m + 2) ∧
        bits (r.rd .glbBootStat) 31 31 = 0 ∧ bits (r.rd .glbBootStat) 30 30 = 1 ∧
        bits (r.rd .glbBootStat) 29 29 = 0 ∧
        bits (r.rd .glbRstCause) 31 24 = 0x10 + (if vin.low < 2500 then 0 else s.sup.resetSource) ∧
        r.run = RunCtl.reset ∧ r.mem.ddr = [] ∧ r.mem.larder = [] ∧ r.fuses = s.fuses)) ∧
    (s.sup.vioOn = false →
      (s.sup.power = .unpowered → 4400 < vin.mv → Does (.coldStart vin edges xtal idbase) s (fun r =>
        r.sup.power = .coldReset ∧ r.sup.vinMv = vin.mv ∧ r.run = RunCtl.reset ∧ r.mem.ddr = [] ∧
        r.fuses = s.fuses)) ∧
      (s.sup.power = .coldReset → Does (.coldStart vin edges xtal idbase) s (fun r => r = s)))

/-- The end of DDR training and of the autoload: DDR_DONE is set, QUICK tells whether the last shutdown was clean and
recorded these DIMMs, a channel past its limit is FAILED and recorded on its page; with the other two conditions of
READY met the device runs. PERST_N low takes the link down, masks all 256 vectors (PRESUMED, assumption 31) and gives
up the porters' work; its release begins a training, and the retry window ends 20 ms later. Times count from
COLD_START, as A of R512 (DEDUCED, assumption 59). -/
def Obligations.StartUpEvents : Prop :=
  ∀ (probes : List ChannelProbe) (dimms : List (List DWord)) (ch stp slot : Nat) (bytes : List Byte) (s : State),
    s.Canonical → ch < 8 →
    let b := s.rd .glbBootStat
    (s.sup.power = .starting → bit b 29 = false →
      Does (.ddrDone probes dimms) s (fun r => r.mem.dimms = dimms ∧ r.mem.dimmReset = false ∧
        (bit (r.rd .glbBootStat) 27 = true ↔ s.flash.clean = true ∧ ∃ d : DdrRecord, s.flash.ddr = some d ∧
          d.dimms = dimms) ∧
        bit (r.rd .glbBootStat) 29 = true ∧ bits (r.rd .glbBootStat) 30 30 = bits b 30 30 ∧
        (bits b 30 30 = 1 → bits b 28 28 = 1 → r.sup.power = .running ∧ bit (r.rd .glbBootStat) 31 = true) ∧
        (bits b 28 28 = 0 → r.sup = s.sup) ∧ r.mem.ddr = s.mem.ddr ∧
          Only [.regs, .sup, .con, .host, .flash, .mem] s r)) ∧
    (s.sup.power = .starting → bit b 29 = false → 1000000000 ≤ s.sup.ns → bit (s.rd .memChCfg ch) 30 = false →
      Does (.ddrTrainLimit ch stp slot) s (fun r =>
        bit (r.rd .memChCfg ch) 30 = true ∧ Only [.regs, .con, .host] s r ∧
        RegsBut (Reg.addr .memChCfg ch :: errRegs (chanPage ch)) s r ∧
        0 < bits (r.reg (chanPage ch + 0x18)) 31 16)) ∧
    (s.sup.power = .starting → s.sup.autoload = true → bit b 30 = true → bit b 28 = false → s.ldr.state = .empty →
      s.chain.stable = true ∨ 10000000 ≤ s.sup.ns → s.pageEn ldrPage = true → bytes ≠ [] →
      Does (.autoload bytes) s (fun r =>
        r.ldr.state = .header ∧ r.ldr.buf = bytes.take (80 + 4112 * field bytes 0x14 4) ∧
        Only [.ldr, .con] s r)) ∧
    (s.sup.pcieRetry = true → 20000000 ≤ s.sup.pcieNs →
      Does .pcieRetryWindowEnd s (fun r =>
        r.sup = { s.sup with pcieUp := true, pcieRetry := false } ∧
        1 ≤ r.host.cfg.speed ∧ r.host.cfg.speed ≤ 5 ∧ r.host.cfg.width ∈ [1, 2, 4, 8, 16] ∧
        r.host = { s.host with cfg := { s.host.cfg with speed := r.host.cfg.speed, width := r.host.cfg.width } } ∧
        Only [.sup, .host, .free] s r)) ∧
    Does .perstNAsserted s (fun r =>
      r.pins = { s.pins with perstLow := true } ∧ r.sup.pcieUp = false ∧ r.sup.pcieRetry = false ∧
      r.host.masked = List.range 256 ∧ r.host.porter = [] ∧ Only [.regs, .pins, .sup, .host, .con] s r) ∧
    (s.pins.perstLow = true → s.reachable = true →
      Does .perstNReleased s (fun r =>
        r.pins = { s.pins with perstLow := false } ∧ r.sup = { s.sup with pcieRetry := true, pcieNs := 0 } ∧
        Only [.pins, .sup] s r))

/-- A warm reset, by WRST_N or by GLB_RST_CMD with the key: run and image go, the cause is recorded, and with no run
and no handover in progress DDR, larder and pantries keep every byte; it ends 2 ms later, with the pin high.
A planned shutdown while the device is halted and no load runs: the image goes out of service and the porters and the
dispatcher drain; with nothing to drain the keys and the run go, the clean mark is written with the DIMMs, and the
device stands in SHUTDOWN. Outside IDLE and HALTED it is refused. -/
def Obligations.WarmResetAndShutdown : Prop :=
  (
    ∀ (value : Word) (s : State), s.Canonical → s.reachable = true →
      let warm (cause : Nat) (r : State) : Prop :=
        r.sup.power = .warmReset ∧ r.run = RunCtl.reset ∧ r.ldr.inService = false ∧ r.net = Network.reset ∧
        r.ports = [] ∧ bits (r.rd .glbRstCause) 31 24 = 0x20 + cause ∧ r.fuses = s.fuses ∧
        (s.bst.slice = none → s.mem.handovers = [] → s.mem.waiting = [] → s.run.state = .idle →
          r.mem.ddr = s.mem.ddr ∧ r.mem.larder = s.mem.larder ∧
          ∀ t < 136, (r.tile t).pantry = (s.tile t).pantry)
      Does (.warmReset true value) s (warm 4) ∧
      (s.srst rstPage = false → bits value 31 16 = 0xA55A → bit value 0 = true →
        Does (.warmReset false value) s (warm 5)) ∧
      (s.srst rstPage = false → bits value 31 16 ≠ 0xA55A →
        Does (.warmReset false value) s (fun r =>
          Only [.regs, .con, .host] s r ∧ RegsBut (errRegs rstPage) s r ∧
          0 < bits (r.reg (rstPage + 0x18)) 31 16)) ∧
      (∀ q : State, q.sup.power = .warmReset → 2000000 ≤ q.sup.phaseNs →
        Does .warmResetExit q (fun r =>
          r.pins = { q.pins with wrstLow := false } ∧
          (bits (q.rd .glbBootStat) 30 28 ≠ 7 → r.sup.power = .starting) ∧
          (bits (q.rd .glbBootStat) 30 28 = 7 → r.sup.power = .running) ∧
          (q.ldr.state = .failed → r.ldr.cfgerr = true) ∧ (q.ldr.state ≠ .failed → r.ldr = q.ldr) ∧
          Only [.regs, .pins, .sup, .con, .host, .flash, .ldr] q r))) ∧
  (
    ∀ (value : Word) (s : State), s.Canonical → s.reachable = true → s.srst rstPage = false →
      bits value 31 16 = 0xA55A → bit value 0 = false → bit value 1 = true → s.shuttingDown = false →
      (s.isHalted = true → s.loading = false → bit value 2 = false → s.host.porter = [] → s.svc.store = [] →
        s.acq.state = .idle →
        Does (.shutdown value) s (fun r =>
          r.sup.power = .shutdown ∧ r.run = RunCtl.reset ∧ r.ldr.state = .empty ∧ r.enc.slots = [] ∧
          r.flash.clean = !r.flash.readonly ∧ bit (r.rd .glbBootStat) 25 = true ∧
          (r.flash.readonly = false → ∃ d : DdrRecord, r.flash.ddr = some d ∧ d.dimms = s.mem.dimms))) ∧
      (s.isHalted = false →
        Does (.shutdown value) s (fun r => Only [.regs, .con, .host] s r ∧ RegsBut (errRegs rstPage) s r ∧
          0 < bits (r.reg (rstPage + 0x18)) 31 16)) ∧
      (s.isHalted = true → s.loading = true →
        Does (.shutdown value) s (fun r => Only [.regs, .con, .host] s r ∧ RegsBut (errRegs rstPage) s r ∧
          0 < bits (r.reg (rstPage + 0x18)) 31 16)) ∧
      (∀ p : Nat, s.isHalted = true → s.loading = false → p < 8 → s.inFlight p ≠ [] → s.ldr.inService = false →
        s.acq.state = .idle →
        Does (.shutdown value) s (fun r => r.sup.shut = some (bit value 2) ∧ r.sup.power = s.sup.power ∧
          r.inFlight p = s.inFlight p ∧ (∀ q < 8, r.pageEn (porterPage q) = false) ∧ r.pageEn svcPage = false ∧
          (∃ n : Nat, (porterPage p, n) ∈ r.host.drains) ∧ Only [.regs, .host, .sup] s r)))

/-- A design-pin bank is off below 1.00 V and on above 1.05 V; a change raises cause 5 of the PWR page, and the pins
of a bank that goes off are driven no more. -/
def Obligations.DesignPinSupplies : Prop :=
  ∀ (bank mv : Nat) (s : State), s.Canonical → bank < 4 → s.sup.power ≠ .unpowered → s.sup.power ≠ .coldReset →
    (mv < 1000 → bit s.sup.vdioOn bank = true →
      Does (.vdioBankChange bank mv) s (fun r =>
        bit r.sup.vdioOn bank = false ∧ bit (r.reg (pwrPage + 0xC)) 5 = true ∧
        (∀ p < 128, p / 32 = bank → bit r.pins.dioDrive p = false) ∧
        (∀ p < 128, p / 32 ≠ bank → bit r.pins.dioDrive p = bit s.pins.dioDrive p) ∧
        Only [.regs, .sup, .pins, .con, .host] s r)) ∧
    (1050 < mv → bit s.sup.vdioOn bank = false →
      Does (.vdioBankChange bank mv) s (fun r =>
        bit r.sup.vdioOn bank = true ∧ bit (r.reg (pwrPage + 0xC)) 5 = true ∧ r.pins = s.pins ∧
        Only [.regs, .sup, .host] s r)) ∧
    (1000 ≤ mv → mv ≤ 1050 →
      Does (.vdioBankChange bank mv) s (fun r =>
        r.sup.vdioOn = s.sup.vdioOn ∧ Only [.sup] s r))

/-! ## The board's ports (R56 to R59, R69 to R72) -/

/-- The management chain: the head takes its ID from IDBASE, a valid frame at a device that is not STABLE gives it
the next ID, an invalid one only restarts the count (DEDUCED, assumption 27) and is recorded, and the device sends
frames with its own ID between a start bit, even parity and a stop bit, after which MCH_OUT stands high. -/
def Obligations.ChainGivesIds : Prop :=
  ∀ (f : BitVec 11) (idle : Bool) (s : State), s.Canonical → s.aon = true →
    let id : Byte := f.extractLsb' 1 8
    let good : Prop := idle = true ∧ f.getLsbD 10 = true ∧ b2n (f.getLsbD 9) = ones id % 2
    (200000 ≤ s.sup.ns → s.chain.stable = false →
      Does .chainHead s (fun r => r.chain.id.toNat = s.pins.idbase.toNat * 16 ∧ r.chain.head = true ∧
        r.chain.stable = true ∧ r.chain.valid = true ∧ Only [.chain] s r)) ∧
    (f.getLsbD 0 = false → good → s.chain.stable = false → id ≠ 255 →
      Does (.chainFrame f idle) s (fun r => r.chain.id = id + 1 ∧ r.chain.valid = true ∧ r.chain.last = id ∧
        r.chain.sent = s.chain.sent ∧ Only [.chain] s r)) ∧
    (f.getLsbD 0 = false → good → s.chain.stable = true → id ≠ 255 → id + 1 = s.chain.id →
      Does (.chainFrame f idle) s (fun r => r.chain = { s.chain with run := 0 } ∧ Only [.chain] s r)) ∧
    (f.getLsbD 0 = false → ¬ good →
      Does (.chainFrame f idle) s (fun r => r.chain = { s.chain with run := 0 } ∧
        0 < bits (r.reg (glbPage + 0x18)) 31 16 ∧ RegsBut (errRegs glbPage) s r ∧
        Only [.regs, .chain, .con, .host] s r)) ∧
    (s.chain.valid = true → s.chain.timerNs = 0 →
      Does .chainFrameSend s (fun r => r.pins = { s.pins with mchOut := true } ∧ Only [.chain, .pins] s r ∧
        ∃ g : BitVec 11,
        r.chain = { s.chain with sent := s.chain.sent ++ [g], timerNs := 100000 } ∧
        g.getLsbD 0 = false ∧ g.extractLsb' 1 8 = s.chain.id ∧ g.getLsbD 10 = true ∧
        b2n (g.getLsbD 9) = ones s.chain.id % 2))

/-- The I²C target at its own address: a write without data sets the offset, a write to the PWR page is carried out, a
write elsewhere is refused, and a read of n registers gives n words, from a given offset or from the one set before;
another address and an offset that is not aligned are not answered.
A question mark on RXD queues four status lines of 21 bytes when the console has room, and another byte nothing; a
line whose last bit is out leaves the queue. -/
def Obligations.I2cAndConsole : Prop :=
  (
    ∀ (addr : BitVec 7) (off : BitVec 16) (v : Word) (val : Option Word) (n : Nat) (s : State), s.Canonical →
      let refused (r : State) : Prop := r.host = { s.host with i2cNack := true } ∧ Only [.host] s r
      (s.i2cAnswers addr = true → off.toNat % 4 = 0 →
        Does (.i2cWrite addr off none) s (fun r =>
          r.host = { s.host with i2cNack := false, i2cOff := off.toNat } ∧ Only [.host] s r) ∧
        (off.toNat / 0x1000 = 2 → Does (.i2cWrite addr off (some v)) s (fun r =>
          r.host.i2cNack = false ∧ r.host.i2cOff = off.toNat ∧ TilesSame s r ∧ r.mem.ddr = s.mem.ddr)) ∧
        (off.toNat / 0x1000 ≠ 2 → Does (.i2cWrite addr off (some v)) s (fun r =>
          r.host.i2cNack = true ∧ Only [.host] s r)) ∧
        (off.toNat = Reg.addr .pwrIdle → s.srst pwrPage = false →
          Does (.i2cWrite addr off (some v)) s (fun r =>
            r.rd .pwrIdle = v ∧ RegsBut [Reg.addr .pwrIdle] s r ∧ Only [.regs, .host] s r)) ∧
        Does (.i2cRead addr (some off) n) s (fun r =>
          r.host.i2cData.length = n ∧ r.host.i2cNack = false) ∧
        (off.toNat = Reg.addr .glbScratch → Does (.i2cRead addr (some off) 1) s (fun r =>
          r.host.i2cData = [s.rd .glbScratch] ∧ Only [.host] s r))) ∧
      (s.i2cAnswers addr = true → s.host.i2cOff % 4 = 0 →
        Does (.i2cRead addr none n) s (fun r => r.host.i2cData.length = n ∧ r.host.i2cNack = false)) ∧
      (s.i2cAnswers addr = false ∨ off.toNat % 4 ≠ 0 →
        Does (.i2cWrite addr off val) s refused ∧ Does (.i2cRead addr (some off) n) s refused)) ∧
  (
    ∀ (b : Byte) (s : State), s.aon = true →
      Does (.uartQuery b) s (fun r => r.con.txd = s.con.txd ∧ Only [.con] s r ∧ (b ≠ 0x3F → r = s)) ∧
      (bit (s.rd .glbUartCfg) 31 = true → s.con.lost = 0 → s.con.held + 84 ≤ 4096 →
        Does (.uartQuery 0x3F) s (fun r => ∃ a b c d : List Byte,
          r.con = { s.con with lines := s.con.lines ++ [a, b, c, d] } ∧
          (∀ l ∈ [a, b, c, d], l.length = 21 ∧ l.head? = some 0x53) ∧ Only [.con] s r)) ∧
      (∀ (l : List Byte) (rest : List (List Byte)), bit (s.rd .glbUartCfg) 31 = true → s.con.lines = l :: rest →
        Does .uartLineSent s (fun r =>
          r.con = { s.con with lines := rest, txd := s.con.txd ++ l } ∧ Only [.con] s r)))

/-! ## Register pages (R40 to R49, R60) -/

/-- A register write of 32 bits at an aligned offset completes at every offset, and stores the writable bits of the
register there; outside the pages it is recorded as unmapped; a write of a size that the map does not take, or to a
function in D3hot (PRESUMED, assumption 66), is an Unsupported Request, which AER records, and stores nothing. While
the PCIe link is down no request arrives. A write of the configuration space (PRESUMED, assumption 66) moves a BAR,
sets the payload and read request sizes, puts the function in D0 or D3hot, clears AER status bits and sets AER masks,
in D3hot too. -/
def Obligations.RegisterWriteStores : Prop :=
  ∀ (bar4 : Bool) (off size : Nat) (early : Option Nat) (data : DWord) (s : State), s.Canonical →
    s.reachable = true → s.sup.pcieUp = true → (∀ t : Nat, early = some t → t < 136) →
    let refused (r : State) : Prop := r.host.ur = true ∧ bit r.host.cfg.uncStatus 20 = true ∧
      r.host.readData = s.host.readData ∧ Only [.host, .free] s r
    let c := s.host.cfg
    let w := lo32 data
    let conf (o : Nat) (c : PciCfg) : Prop := Does (.registerWrite .config ⟨o, none⟩ 4 data) s (fun r =>
      r = { s with host := { s.host with cfg := c } })
    (s.host.cfg.d3hot = false →
      (off < 2 ^ 26 → off % 4 = 0 → Does (.registerWrite (.mem bar4) ⟨off, early⟩ 4 data) s (fun r =>
        r.host.ur = false ∧ r.host.ca = false ∧
        (s.target off = .unmapped → RegsBut (errRegs pciPage) s r ∧ 0 < bits (r.reg (pciPage + 0x18)) 31 16))) ∧
      (s.srst glbPage = false →
        Does (.registerWrite (.mem false) ⟨Reg.addr .glbScratch, early⟩ 4 data) s (fun r =>
          r.rd .glbScratch = lo32 data ∧ RegsBut [Reg.addr .glbScratch] s r ∧ Only [.regs, .host] s r) ∧
        Does (.registerWrite (.mem false) ⟨glbPage + 0x14, early⟩ 4 data) s (fun r =>
          r.reg (glbPage + 0x14) = lo32 data &&& 0xFF ∧ RegsBut [glbPage + 0x14] s r ∧
          Only [.regs, .host] s r)) ∧
      (s.srst glbPage = true →
        Does (.registerWrite (.mem false) ⟨Reg.addr .glbScratch, early⟩ 4 data) s (fun r =>
          r.regs = s.regs ∧ Only [.host] s r)) ∧
      Does (.registerWrite (.mem true) ⟨Reg.addr .glbScratch, early⟩ 4 data) s (fun r =>
        r.rd .glbScratch = s.rd .glbScratch ∧ RegsBut (errRegs pciPage) s r ∧
        0 < bits (r.reg (pciPage + 0x18)) 31 16)) ∧
    (size ≠ 4 → size ≠ 8 → Does (.registerWrite (.mem false) ⟨Reg.addr .glbScratch, early⟩ size data) s refused) ∧
    (s.host.cfg.d3hot = true → Does (.registerWrite (.mem false) ⟨Reg.addr .glbScratch, early⟩ size data) s refused) ∧
    conf 0x10 { c with bar0 := (hi32 c.bar0 ++ w) >>> 26 <<< 26 } ∧
    (bits w 1 0 = 0 → conf 0x44 { c with d3hot := false }) ∧
    (bits w 1 0 = 3 → conf 0x44 { c with d3hot := true }) ∧
    (bits w 1 0 ≠ 0 → bits w 1 0 ≠ 3 → conf 0x44 c) ∧
    (bits w 7 5 ≤ 2 → bits w 14 12 ≤ 5 →
      conf 0x78 { c with maxPayload := 128 * 2 ^ bits w 7 5, maxRead := 128 * 2 ^ bits w 14 12 }) ∧
    conf 0x104 { c with uncStatus := c.uncStatus &&& ~~~w } ∧
    conf 0x108 { c with uncMask := w &&& 0x07FFF030 } ∧
    (∀ q : State, q.sup.pcieUp = false → off < 2 ^ 26 →
      exec (.registerWrite (.mem bar4) ⟨off, early⟩ size data) q = .next q)

/-- Enabling a page sets EN and ends its drain, but a link port stays in DRAIN; disabling one clears EN and begins a
drain while work is left. A soft reset clears EN and sets SRST; on a tile page it is refused unless the device is
halted; once the page has no work left its registers are at reset, but for those that keep their values, and so is
what stands behind them: the ledger's levels behind the PWR page, the halt causes behind the RUN page, the type of an
engine's last item, the model cache (DESIGN CHOICE, assumption 94). TIM page 0 keeps all its registers, with EN as SRST
cleared it; a shutdown whose slice a reset of the BST page stops goes on (DEDUCED, assumption 46). A soft reset
of the LDR page in a load fails it and leaves no image in service, with the drivers off and the set-reset asserted.
Acquisition pages 1 and 2 take none of these while the engine is armed. -/
def Obligations.PagesDisableAndReset : Prop :=
  ∀ (page : Nat) (s : State), s.Canonical → pageExists page = true →
    (s.reachable = true → s.srst page = false → s.pageLocked page = false → s.pageEn page = true →
      Does (.pageDisable page) s (fun r => r.pageEn page = false ∧
        (r.workLeft page = true → ∃ n : Nat, (page, n) ∈ r.host.drains) ∧
        (page ∈ glbPages → Only [.regs] s r ∧ RegsBut [page + 4] s r))) ∧
    (s.reachable = true → s.srst page = false → s.pageLocked page = false →
      Does (.pageEnable page) s (fun r => r.pageEn page = true ∧
        (isLinkPage page = false ∨ s.workLeft page = false → ∀ d ∈ r.host.drains, d.1 ≠ page) ∧
        (isLinkPage page = true → s.workLeft page = true → r.host = s.host) ∧
        RegsBut [page + 4] s r ∧ Only [.regs, .host] s r)) ∧
    (s.reachable = true → s.srst page = false → s.pageLocked page = false → isTilePage page = false → page ∉ glbPages →
      Does (.pageReset page) s (fun r => r.pageEn page = false ∧ r.srst page = true ∧ page ∈ r.host.srsts)) ∧
    (s.reachable = true → s.srst page = false → isTilePage page = true → s.isHalted = false →
      Does (.pageReset page) s (fun r => TilesSame s r ∧ Only [.regs, .con, .host] s r ∧
        RegsBut (errRegs page) s r ∧ 0 < bits (r.reg (page + 0x18)) 31 16)) ∧
    (page ∈ s.host.srsts → s.workLeft page = false → page ≠ prfPage ∨ s.run.state ≠ .recover →
      Does (.pageResetDone page) s (fun r => page ∉ r.host.srsts ∧ r.srst page = false ∧
        (page ≠ timPage → r.pageEn page = true) ∧
        (page = timPage → r.pageEn page = s.pageEn page ∧ ∀ a : Nat, a ≠ timPage + 4 → r.reg a = s.reg a) ∧
        (page = svcPage → r.svc.cache = []) ∧
        (isEngPage page = true → Table.get (fun _ => (0 : Byte)) r.svc.engType (engOf page) = 0) ∧
        (page = bstPage → s.bst.byShutdown = true → s.bst.slice.isSome = true → r.bst.slice = none ∧
          r.sup.shut = some false) ∧
        (page ≠ wdgPage → page ≠ svcPage → ∀ a : Nat, page ≤ a → a < page + 0x1000 → survivesReset a = false →
          r.reg a = regInit a) ∧
        (page ∈ glbPages → ∀ a : Nat, survivesReset a = true → r.reg a = s.reg a) ∧
        (page = pwrPage → r.led.level = 0 ∧ r.led.pInUw = 0 ∧ r.led.budgetUw = 0 ∧
          r.led.thermOver = s.led.thermOver) ∧
        (page = runPage → r.run = { s.run with causes := 0 }))) ∧
    (s.reachable = true → s.srst ldrPage = false → s.loading = true →
      Does (.pageReset ldrPage) s (fun r => r.ldr.state = .failed ∧ r.ldr.inService = false ∧ r.ldr.image = none ∧
        r.ldr.setReset = true ∧ r.pins.dioDrive = 0 ∧ r.prf.cur = none ∧ r.run.state = s.run.state ∧
        r.mem = s.mem ∧ r.srst ldrPage = true)) ∧
    (s.reachable = true → s.srst page = false → s.pageLocked page = true →
      let busy (r : State) : Prop := Only [.regs, .con, .host] s r ∧ RegsBut (errRegs acqPage) s r ∧
        0 < bits (r.reg (acqPage + 0x18)) 31 16
      Does (.pageDisable page) s busy ∧ Does (.pageEnable page) s busy ∧ Does (.pageReset page) s busy)

/-- What remains at a drain limit, for the seven blocks of R493: the descriptors that a porter was moving end with
CODE 1; an item on an engine of the dispatcher ends with STATUS 1 for a host and waits as an orphan for a tile; an
engine is retired as after a fault; a link port goes to OFF and its retry buffer is given up; acquisition leaves its
blocks in the larder; a crier's items are discarded and counted. A DDR channel has no request that outlasts a step
(assumption 69), so its limit finds nothing. -/
def Obligations.DrainLimitsDiscard : Prop :=
  ∀ (p eng : Nat) (i : SvcItem) (s : State), s.Canonical → p < 8 → eng < 18 →
    (s.drainDue (porterPage p) = true →
      Does (.drainLimitExpiry (porterPage p)) s (fun r =>
        r.inFlight p = (s.inFlight p).map (fun d => if d.2.1 = 0 then (d.1, 1, 0, d.2.2.2) else d) ∧
        (∀ q : Nat, q ≠ p → r.inFlight q = s.inFlight q) ∧
        (∀ d ∈ r.host.drains, d.1 ≠ porterPage p) ∧ Only [.host] s r)) ∧
    (s.drainDue criPage = true →
      Does (.drainLimitExpiry criPage) s (fun r => r.run.criers = [] ∧ r.svc.tokens = s.svc.tokens ∧
        (∀ i ∈ r.svc.store, i.source ≠ .crier) ∧
        r.fld .criStat 31 16 = min 0xFFFF (s.fld .criStat 31 16 + s.criersPending))) ∧
    (s.drainDue svcPage = true → s.svc.store = [i] → i.stage = .running eng →
      (i.source = .sup → Does (.drainLimitExpiry svcPage) s (fun r => SupCompleted i 1 0 s r ∧
        (∀ e ∈ r.svc.engines, e.2 ≠ some i.id) ∧ TilesSame s r ∧ r.mem = s.mem)) ∧
      (i.fromTile = true → Does (.drainLimitExpiry svcPage) s (fun r => r.svc.store = [{ i with stage := .orphaned }] ∧
        (∀ e ∈ r.svc.engines, e.2 ≠ some i.id) ∧ TilesSame s r ∧ r.mem = s.mem ∧ Only [.svc, .host] s r))) ∧
    (s.drainDue (engPage eng) = true → s.run.state = .idle → (∃ n ∈ s.spareEngines, n ≠ eng) →
      Does (.drainLimitExpiry (engPage eng)) s (fun r => eng ∉ r.svc.serving ∧ eng ∈ r.svc.retired ∧
        (∃ n ∈ s.spareEngines, n ∈ r.svc.serving) ∧ 0 < bits (r.reg (engPage eng + 0x18)) 31 16 ∧
        r.mem.ddr = s.mem.ddr)) ∧
    (s.drainDue (portPage p 0) = true → (s.port p).state = .drain → (s.port (p + 8)).state = .off →
      Does (.drainLimitExpiry (portPage p 0)) s (fun r => (r.port p).state = .off ∧ (r.port p).retryBuf = [] ∧
        (∀ d ∈ r.host.drains, d.1 ≠ portPage p 0) ∧ TilesSame s r ∧ r.mem = s.mem)) ∧
    (s.drainDue acqPage = true →
      Does (.drainLimitExpiry acqPage) s (fun r => r.acq.state = .idle ∧ r.acq.blocks = s.acq.blocks ∧
        r.mem = s.mem ∧ bit (r.reg (acqPage + 0xC)) 2 = true ∧ TilesSame s r)) ∧
    exec (.drainLimitExpiry (chanPage p)) s = .next s

/-- Writing 1 clears bits of PG_INT_STAT, PG_INT_EN takes the value, PG_ERR_CLR clears the first error; a message
goes out again while a pending bit is enabled; unmasking a vector sends the message that waited. Acquisition pages 1
and 2 take no such write while the engine is armed. -/
def Obligations.InterruptRegisters : Prop :=
  ∀ (page v : Nat) (val : Word) (s : State), s.Canonical → pageExists page = true → s.reachable = true →
    let vec := bits (s.reg (page + 0x14)) 7 0
    let open_ : Prop := s.host.fnMask = false ∧ vec ∉ s.host.masked
    let busy (r : State) : Prop := Only [.regs, .con, .host] s r ∧ RegsBut (errRegs acqPage) s r ∧
      0 < bits (r.reg (acqPage + 0x18)) 31 16
    (s.srst page = false → s.pageLocked page = false →
      Does (.pgIntStatWrite page val) s (fun r =>
        r.reg (page + 0xC) = s.reg (page + 0xC) &&& ~~~val ∧ RegsBut [page + 0xC] s r ∧
        Only [.regs, .host] s r ∧
        (s.reg (page + 0xC) &&& ~~~val &&& s.reg (page + 0x10) = 0 → r.host = s.host) ∧
        (s.reg (page + 0xC) &&& ~~~val &&& s.reg (page + 0x10) ≠ 0 → open_ →
          r.host = { s.host with sent := s.host.sent ++ [vec] })) ∧
      Does (.pgIntEnWrite page val) s (fun r =>
        r.reg (page + 0x10) = val ∧ RegsBut [page + 0x10] s r ∧ Only [.regs, .host] s r ∧
        (s.reg (page + 0xC) &&& val = 0 → r.host = s.host) ∧
        (s.reg (page + 0xC) &&& val ≠ 0 → open_ →
          r.host = { s.host with sent := s.host.sent ++ [vec] }))) ∧
    (bit val 0 = true → s.pageLocked page = false →
      Does (.pgErrClr page val) s (fun r =>
        r.reg (page + 0x18) = 0 ∧ r.reg (page + 0x1C) = 0 ∧ Only [.regs] s r ∧
        RegsBut [page + 0x18, page + 0x1C, Reg.addr .glbAlert] s r)) ∧
    (v < 256 → Does (.msixUnmask (some v)) s (fun r =>
      v ∉ r.host.masked ∧ (∀ w : Nat, w ≠ v → (w ∈ r.host.masked ↔ w ∈ s.host.masked)) ∧
      (s.host.fnMask = false → v ∈ s.host.pendingBits →
        r.host.sent = s.host.sent ++ [v] ∧ v ∉ r.host.pendingBits) ∧
      (v ∉ s.host.pendingBits → r.host.sent = s.host.sent) ∧ Only [.host] s r)) ∧
    Does (.msixUnmask none) s (fun r => r.host.fnMask = false ∧ r.host.masked = s.host.masked ∧
      (∀ w ∈ r.host.pendingBits, w ∈ s.host.masked) ∧ Only [.host] s r) ∧
    (s.srst page = false → s.pageLocked page = true → Does (.pgIntStatWrite page val) s busy ∧
      Does (.pgIntEnWrite page val) s busy ∧ (bit val 0 = true → Does (.pgErrClr page val) s busy))

/-! ## BAR2 and the porters (R43, R62 to R65) -/

/-- BAR2 reads and writes of plaintext DDR within one line: the bytes at the window's address, and no other byte of
DDR changes; beyond the usable DDR a read ends in Completer Abort, which AER logs, and a write is dropped, both
recorded. In D3hot an access is an Unsupported Request and moves nothing (PRESUMED, assumption 66). While the PCIe link
is down no request arrives. -/
def Obligations.Bar2Accesses : Prop :=
  ∀ (off size : Nat) (bytes : List Byte) (s : State), s.Canonical → s.bar2Open = true → s.sup.pcieUp = true →
    let a := s.bar2Addr off
    let outside : Prop := s.inModel (a / 64 * 64) 64 = false
    let d0 : Prop := s.host.cfg.d3hot = false
    let refused (r : State) : Prop := r.host.ur = true ∧ bit r.host.cfg.uncStatus 20 = true ∧ Only [.host, .free] s r
    (d0 → off % 64 + size ≤ 64 → off + size ≤ 2 ^ 36 → a + size ≤ s.ddrCap → outside →
      s.Plain s.bar2Req 0 (a / 64 * 64) (a / 64 * 64 + 64) true false →
      Does (.bar2Read off size .clean) s (fun r =>
        r.host.readData = wordsOf size (s.mem.ddr.readBytes a size) ∧ r.host.ca = false ∧
        r.mem.ddr = s.mem.ddr ∧ r.mem.larder = s.mem.larder ∧ Only [.host, .mem] s r)) ∧
    (d0 → off % 64 + bytes.length ≤ 64 → off + bytes.length ≤ 2 ^ 36 → a + bytes.length ≤ s.ddrCap →
      outside → s.Plain s.bar2Req 0 (a / 64 * 64) (a / 64 * 64 + 64) false true →
      Does (.bar2Write ⟨off, .clean⟩ bytes) s (fun r =>
        DdrStored a bytes s r ∧
        r.mem.larder = s.mem.larder ∧ Only [.host, .mem, .svc] s r)) ∧
    (d0 → off + size ≤ 2 ^ 36 → s.ddrCap < a + size →
      Does (.bar2Read off size .clean) s (fun r => r.host.ca = true ∧ r.host.readData = [] ∧
        bit r.host.cfg.uncStatus 15 = true ∧ 0 < bits (r.reg (pciPage + 0x18)) 31 16 ∧
        Only [.regs, .host, .con, .free] s r)) ∧
    (d0 → off + bytes.length ≤ 2 ^ 36 → s.ddrCap < a + bytes.length →
      Does (.bar2Write ⟨off, .clean⟩ bytes) s (fun r =>
        0 < bits (r.reg (pciPage + 0x18)) 31 16 ∧ Only [.regs, .host, .con] s r)) ∧
    (s.host.cfg.d3hot = true →
      (off + size ≤ 2 ^ 36 → Does (.bar2Read off size .clean) s (fun r => r.host.readData = [] ∧ refused r)) ∧
      (off + bytes.length ≤ 2 ^ 36 → Does (.bar2Write ⟨off, .clean⟩ bytes) s refused)) ∧
    (∀ q : State, q.sup.pcieUp = false →
      (off + size ≤ 2 ^ 36 → exec (.bar2Read off size .clean) q = .next q) ∧
      (off + bytes.length ≤ 2 ^ 36 → exec (.bar2Write ⟨off, .clean⟩ bytes) q = .next q))

/-- A porter's tail moves by a write; a descriptor that names no target, or a move from the loader, moves nothing and is
BAD_DESC. One of the porter's own larder or pantry banks, or of plaintext DDR within one line outside the model ranges,
stores its bytes there and no others with DIR 0, and with DIR 1 hands the bytes that stand there to host memory; one to
the loader joins its byte stream. The status of the oldest goes to host memory as HEAD advances. -/
def Obligations.PortersMoveDescriptors : Prop :=
  ∀ (p : Nat) (val : Word) (d : Descriptor) (data : List Byte) (s : State), s.Canonical → p < 8 →
    let ready : Prop := s.reachable = true ∧ s.sup.pcieUp = true ∧ s.pageEn (porterPage p) = true ∧
      s.ringReady p = true ∧ s.underTest 165 = false ∧ s.targetTested d = false ∧ s.run.state ≠ .recover ∧
        s.enc.integrityHalt = false ∧ (d.fence = true → s.inFlight p = [])
    (s.reachable = true → s.srst (porterPage p) = false →
      Does (.pciPorterTailWrite p val) s (fun r => r.rd .pciPorterTail p = val &&& 0xFFFF ∧
        RegsBut [Reg.addr .pciPorterTail p] s r ∧ Only [.regs] s r)) ∧
    (ready → 4 ≤ d.tgt.toNat ∨ (d.tgt = 3 ∧ d.dir = true) →
      Does (.porterDescriptor p d (some data) []) s (fun r =>
        r.inFlight p = s.inFlight p ++ [(s.nextIndex p, 7, 0, d.irq)] ∧
        (∀ q : Nat, q ≠ p → r.inFlight q = s.inFlight q) ∧ Only [.host] s r)) ∧
    (ready → d.rsvd = 0 → d.length.toNat = data.length → 0 < data.length → data.length ≤ 16777216 →
      let n := data.length
      let taken (r : State) : Prop := r.inFlight p = s.inFlight p ++ [(s.nextIndex p, 0, 0, d.irq)]
      let given (l : List Byte) (r : State) : Prop := r.host.wrote = s.host.wrote ++ [(d.hostAddr, l)]
      (d.tgt = 1 → bits d.devAddr 24 0 + n ≤ 2 ^ 25 → s.descOwned p d = true →
        let a := bits d.devAddr 24 0
        (d.dir = false → Does (.porterDescriptor p d (some data) []) s (fun r => taken r ∧
          (∀ i < n, r.mem.larder.read (a + i) = data.getD i 0) ∧
          (∀ b : Nat, b < a ∨ a + n ≤ b → r.mem.larder.read b = s.mem.larder.read b) ∧
          r.mem.ddr = s.mem.ddr ∧ TilesSame s r ∧ Only [.host, .mem, .regs] s r)) ∧
        (d.dir = true → Does (.porterDescriptor p d none []) s (fun r => taken r ∧
          given (s.mem.larder.readBytes a n) r ∧ r.mem.larder = s.mem.larder ∧ r.mem.ddr = s.mem.ddr ∧
          Only [.host, .mem, .regs] s r))) ∧
      (∀ t : Nat, d.tgt = 2 → s.ptile (bits d.devAddr 27 20) = some t → bits d.devAddr 19 0 + n ≤ 2 ^ 20 →
        s.descOwned p d = true →
        let a := bits d.devAddr 19 0
        (d.dir = false → Does (.porterDescriptor p d (some data) []) s (fun r => taken r ∧
          (∀ i < n, (r.tile t).pantry.read (a + i) = data.getD i 0) ∧
          (∀ b : Nat, b < a ∨ a + n ≤ b → (r.tile t).pantry.read b = (s.tile t).pantry.read b) ∧
          TilesBut t s r ∧ r.mem = s.mem ∧ (s.prf.cur = none → Only [.host, .tiles] s r))) ∧
        (d.dir = true → Does (.porterDescriptor p d none []) s (fun r => taken r ∧
          given ((s.tile t).pantry.readBytes a n) r ∧ Only [.host] s r))) ∧
      (d.tgt = 0 → d.devAddr.toNat % 64 + n ≤ 64 → d.devAddr.toNat + n ≤ s.ddrCap → s.svc.cache = [] →
        (∀ x ∈ s.inFlight p, x.1 ≠ s.nextIndex p) →
        let a := d.devAddr.toNat
        let lo := a / 64 * 64
        (d.dir = false → s.inModel lo 64 = false → s.Plain ⟨clsPorter, 1 + p⟩ (1 + p) lo (lo + 64) false true →
          Does (.porterDescriptor p d (some data) []) s (fun r => taken r ∧ DdrStored a data s r ∧
            r.mem.larder = s.mem.larder ∧ Only [.host, .mem] s r)) ∧
        (d.dir = true → s.Plain ⟨clsPorter, 1 + p⟩ (1 + p) lo (lo + 64) true false →
          Does (.porterDescriptor p d none []) s (fun r => taken r ∧ given (s.mem.ddr.readBytes a n) r ∧
            r.mem.ddr = s.mem.ddr ∧ r.mem.larder = s.mem.larder ∧ Only [.host, .mem] s r))) ∧
      (d.tgt = 3 → d.dir = false → s.ldrSrc = 0 → s.pageEn ldrPage = true →
        s.ldr.state = .header ∨ s.ldr.state = .stage ∨ s.ldr.state = .write →
        Does (.porterDescriptor p d (some data) []) s (fun r => taken r ∧
          r.ldr = { s.ldr with buf := s.ldr.buf ++ data, gapNs := 0 } ∧ Only [.host, .ldr] s r))) ∧
    (∀ (i code failed : Nat) (irq : Bool) (rest : List (Nat × Nat × Nat × Bool)),
      s.inFlight p = (i, code, failed, irq) :: rest →
      (∀ x ∈ s.host.moving, ¬ (x.porter = p ∧ x.index = i)) → code < 256 → failed < 256 →
      Does (.porterDescriptorDone p) s (fun r =>
        r.inFlight p = rest ∧
        r.host.statuses = s.host.statuses ++ [(p, i, BitVec.ofNat 32 (failed * 65536 + code * 256 + 1))] ∧
        r.rd .pciPorterHead p = BitVec.ofNat 32 ((s.fld .pciPorterHead 15 0 p + 1) % s.ringSize p) ∧
        (irq = true → bit (r.reg (porterPage p + 0xC)) 1 = true) ∧
        (code = 0 → irq = false → RegsBut [Reg.addr .pciPorterHead p] s r) ∧
        Only [.host, .regs, .con] s r))

/-! ## The service plane (R214 to R246) -/

/-- A descriptor submitted to a host queue with room joins the store as a ready item, one without room is refused and
recorded; reading the completion register of either queue takes its oldest completion, unless PEEK holds, and gives
0 when it holds none. -/
def Obligations.HostQueues : Prop :=
  ∀ (q : Nat) (val : Word) (c : HostCpl) (rest : List HostCpl) (s : State), s.Canonical → s.reachable = true →
    s.srst svcPage = false → q < 2 →
    let i := s.descItem q (val.setWidth 16)
    let limit := if q = 0 then 64 else 32
    (s.queueUsed q < limit → s.pageEn svcPage = true → (s.listed i.level).length < 1024 → i.type ∈ hostTypes →
      Does (.svcHqSubmit q val) s (fun r =>
        r.svc.nextId = s.svc.nextId + 1 ∧ r.svc.store.length = s.svc.store.length + 1 ∧
        s.svc.nextId ∈ r.svc.ready ∧
        (∃ j ∈ r.svc.store, j = { i with id := s.svc.nextId, stage := .ready }) ∧
        r.fld .svcHqStat 31 31 q = 0 ∧ r.fld .svcHqStat 15 0 q = bits val 15 0 ∧
        RegsBut [Reg.addr .svcHqStat q] s r ∧ Only [.regs, .svc] s r)) ∧
    (limit ≤ s.queueUsed q →
      Does (.svcHqSubmit q val) s (fun r => r.fld .svcHqStat 31 31 q = 1 ∧ Only [.regs, .con, .host] s r ∧
        0 < bits (r.reg (svcPage + 0x18)) 31 16 ∧
        RegsBut (Reg.addr .svcHqStat q :: errRegs svcPage) s r)) ∧
    (s.svc.cplSup = c :: rest → c.item < s.svc.nextId →
      (s.peeks svcPage .bar0 = false →
        Does (.svcHqCplRead 0 .bar0) s (fun r => r.svc.cplSup = rest ∧ r.svc.cplDbg = s.svc.cplDbg ∧
          r.host.readData = [BitVec.ofNat 32 (2 ^ 31 + c.status.toNat * 2 ^ 16 + c.tag.toNat)] ∧
          r.rd .svcHqCplDataLo 0 = lo32 c.result ∧ r.rd .svcHqCplDataHi 0 = hi32 c.result ∧
          (∀ j ∈ r.svc.store, j.id ≠ c.item) ∧ Only [.regs, .svc, .host] s r)) ∧
      (s.peeks svcPage .bar0 = true →
        Does (.svcHqCplRead 0 .bar0) s (fun r => Only [.host] s r ∧
          r.host.readData = [BitVec.ofNat 32 (2 ^ 31 + c.status.toNat * 2 ^ 16 + c.tag.toNat)]))) ∧
    (s.svc.cplDbg = c :: rest → c.item < s.svc.nextId →
      (s.peeks svcPage .bar0 = false →
        Does (.svcHqCplRead 1 .bar0) s (fun r => r.svc.cplDbg = rest ∧ r.svc.cplSup = s.svc.cplSup ∧
          r.host.readData = [BitVec.ofNat 32 (2 ^ 31 + c.status.toNat * 2 ^ 16 + c.tag.toNat)] ∧
          r.rd .svcHqCplDataLo 1 = lo32 c.result ∧ r.rd .svcHqCplDataHi 1 = hi32 c.result ∧
          (∀ j ∈ r.svc.store, j.id ≠ c.item) ∧ Only [.regs, .svc, .host] s r)) ∧
      (s.peeks svcPage .bar0 = true →
        Does (.svcHqCplRead 1 .bar0) s (fun r => Only [.host] s r ∧
          r.host.readData = [BitVec.ofNat 32 (2 ^ 31 + c.status.toNat * 2 ^ 16 + c.tag.toNat)]))) ∧
    (s.svc.cplSup = [] → Does (.svcHqCplRead 0 .bar0) s (fun r => r.host.readData = [0] ∧ Only [.host] s r)) ∧
    (s.svc.cplDbg = [] → Does (.svcHqCplRead 1 .bar0) s (fun r => r.host.readData = [0] ∧ Only [.host] s r))

/-- Transactor rings: a host pointer takes its half of the register, an item parked on the ring goes back to its
level when it moved, EN set on a ring that was off sets DEV to HOST; FLUSH leaves no dirty line in the model cache,
all within its own step (DEDUCED, assumptions 7 and 23). -/
def Obligations.TransactorRings : Prop :=
  ∀ (c : Nat) (val : Word) (i : SvcItem) (s : State), s.Canonical → s.reachable = true →
    s.srst svcPage = false → c < 16 →
    let moved (ptr : Reg) : Word := setBits (s.rd ptr c) 31 16 (bits val 31 16)
    let alone : Prop := s.svc.store = [i] ∧ s.svc.parkOrder = [i.id] ∧ i.stage = .parked c
    let back (r : State) : Prop := r.svc.store = [{ i with stage := .ready }] ∧
      r.svc.ready = s.svc.ready.filter (· ≠ i.id) ++ [i.id] ∧ r.svc.parkOrder = []
    Does (.svcXoutPtrWrite c val) s (fun r => r.rd .svcXoutPtr c = moved .svcXoutPtr ∧
      RegsBut [Reg.addr .svcXoutPtr c] s r ∧ Only [.regs, .svc] s r ∧
      (bits (s.rd .svcXoutPtr c) 31 16 = bits val 31 16 → r.svc = s.svc) ∧
      (bits (s.rd .svcXoutPtr c) 31 16 ≠ bits val 31 16 → alone → i.type = 0x10 → back r)) ∧
    Does (.svcXinPtrWrite c val) s (fun r => r.rd .svcXinPtr c = moved .svcXinPtr ∧
      RegsBut [Reg.addr .svcXinPtr c] s r ∧ Only [.regs, .svc] s r ∧
      (bits (s.rd .svcXinPtr c) 31 16 = bits val 31 16 → r.svc = s.svc) ∧
      (bits (s.rd .svcXinPtr c) 31 16 ≠ bits val 31 16 → alone → i.type = 0x11 → back r)) ∧
    (bit val 0 = true → bit (s.rd .svcXoutBaseLo c) 0 = false →
      Does (.svcXchEnWrite c false val) s (fun r => r.rd .svcXoutBaseLo c = val &&& 0xFFFFF001 ∧
        bits (r.rd .svcXoutPtr c) 15 0 = bits (s.rd .svcXoutPtr c) 31 16 ∧
        bits (r.rd .svcXoutPtr c) 31 16 = bits (s.rd .svcXoutPtr c) 31 16 ∧
        RegsBut [Reg.addr .svcXoutBaseLo c, Reg.addr .svcXoutPtr c] s r ∧ Only [.regs] s r)) ∧
    (bit val 0 = true → bit (s.rd .svcXinBaseLo c) 0 = false →
      Does (.svcXchEnWrite c true val) s (fun r => r.rd .svcXinBaseLo c = val &&& 0xFFFFF001 ∧
        bits (r.rd .svcXinPtr c) 15 0 = bits (s.rd .svcXinPtr c) 31 16 ∧
        bits (r.rd .svcXinPtr c) 31 16 = bits (s.rd .svcXinPtr c) 31 16 ∧
        RegsBut [Reg.addr .svcXinBaseLo c, Reg.addr .svcXinPtr c] s r ∧ Only [.regs] s r)) ∧
    (bit val 31 = true → s.pageEn svcPage = false →
      Does (.svcCacheFlush val) s (fun r => RegsBut [Reg.addr .svcCacheCtrl] s r ∧ Only [.regs] s r)) ∧
    (bit val 31 = true → s.pageEn svcPage = true →
      Does (.svcCacheFlush val) s (fun r => (∀ l ∈ r.svc.cache, l.dirty = false) ∧
        ((∀ l ∈ s.svc.cache, l.dirty = false) → r.svc.cache = s.svc.cache ∧
          RegsBut [Reg.addr .svcCacheCtrl] s r ∧ Only [.regs] s r)))

/-- A lead token that is alone in its NEED makes an item that is ready at once; a later token fills its slot of the
entry that waits for it; an engine that is free starts an item of the highest level that holds one. A token of a lead
template gives an entry without fields its own, and is dropped where it would open one outside its NEED; one of a TYPE
that no tile may issue is SVC_BAD_TYPE as it opens an entry (DEDUCED, assumption 22).
A completion that was refused goes out again after 160 ns and is applied at its tile; an item that a deficit has
held for its limit is dispatched all the same, which is recorded. -/
def Obligations.TokensAndItems : Prop :=
  (
    ∀ (k eng : Nat) (tk : Token) (e i : SvcItem) (s : State), s.Canonical →
      let first : Prop := s.svc.tokens[k]? = some tk ∧ ∀ q ∈ s.svc.tokens.take k, q.vtile ≠ tk.vtile
      let found := s.svc.store.find? fun j => j.takes (tmplMatch tk.tmpl) tk.batch tk.token
      let ckind := bits tk.tmpl 35 34
      (first → found = none → s.poolUsed < 3520 → tk.token = 0 → bits tk.tmpl 15 12 = 1 →
        tk.tmpl.setWidth 8 ∈ tileTypes →
        ckind = 1 ∨ ckind = 2 →
        Does (.svcTokenArrival k) s (fun r => r.svc.tokens = s.svc.tokens.eraseIdx k ∧
          r.svc.nextId = s.svc.nextId + 1 ∧ s.svc.nextId ∈ r.svc.ready ∧
          (∃ j ∈ r.svc.store, j.id = s.svc.nextId ∧ j.stage = .ready ∧ j.t0 = some tk.data ∧ j.batch = tk.batch ∧
            j.vtile = tk.vtile ∧ j.type = tk.tmpl.setWidth 8) ∧ Only [.svc] s r)) ∧
      (first → found = some e → tk.token ≠ 0 → tk.token < 4 → e.stage = .collecting → e.hasLead = true →
        needs e.need tk.token = true → e.type = tk.tmpl.setWidth 8 → e.type ∈ tileTypes →
        e.ckind = 1 ∨ e.ckind = 2 →
        Does (.svcTokenArrival k) s (fun r => r.svc.tokens = s.svc.tokens.eraseIdx k ∧
          r.svc.nextId = s.svc.nextId ∧ r.svc.store.length = s.svc.store.length ∧
          (∃ j ∈ r.svc.store, j.id = e.id ∧ j.hasTok tk.token = true ∧ j.batch = e.batch) ∧ Only [.svc] s r)) ∧
      (first → found = none → s.poolUsed < 3520 → tk.tmpl.setWidth 8 ∉ tileTypes → ckind ≠ 1 → ckind ≠ 2 →
        Does (.svcTokenArrival k) s (fun r => r.svc.tokens = s.svc.tokens.eraseIdx k ∧
          (∀ j ∈ r.svc.store, j ∈ s.svc.store) ∧ 0 < bits (r.reg (svcPage + 0x18)) 31 16)) ∧
      (first → found = none → s.poolUsed < 3520 → tk.tmpl.setWidth 8 ∈ tileTypes → tk.isLead = true →
        needs (bits tk.tmpl 15 12) tk.token = false →
        Does (.svcTokenArrival k) s (fun r => r.svc.tokens = s.svc.tokens.eraseIdx k ∧ r.svc.store = s.svc.store ∧
          0 < bits (r.reg (svcPage + 0x18)) 31 16)) ∧
      (first → found = some e → tk.token < 4 → e.stage = .collecting → e.hasLead = false → tk.isLead = true →
        needs (bits tk.tmpl 15 12) tk.token = true → e.type = tk.tmpl.setWidth 8 → e.type ∈ tileTypes →
        ckind = 1 ∨ ckind = 2 →
        Does (.svcTokenArrival k) s (fun r => r.svc.tokens = s.svc.tokens.eraseIdx k ∧
          (∃ j ∈ r.svc.store, j.id = e.id ∧ j.hasLead = true ∧ j.w0 = tk.tmpl.setWidth 64 ∧
            j.w1 = tk.tmpl.extractLsb' 64 64 ∧ j.hasTok tk.token = true))) ∧
      (eng < 18 → s.engineFree eng = true → s.pick 8 = some i →
        (∀ l < 8, ∀ j ∈ s.listed l, s.dispatchable j = true → l ≤ i.level) ∧
        Does (.dispatch eng) s (fun r => Table.get (fun _ => none) r.svc.engines eng = some i.id ∧
          (∀ n : Nat, n ≠ eng →
            Table.get (fun _ => none) r.svc.engines n = Table.get (fun _ => none) s.svc.engines n) ∧
          i.id ∉ r.svc.ready ∧ (∃ j ∈ r.svc.store, j = { i with stage := .running eng }) ∧
          Only [.svc] s r))) ∧
  (
    ∀ (item ns t : Nat) (i : SvcItem) (s : State), s.Canonical → s.item item = some i →
      let x := s.tile t
      (i.stage = .kept ns → 160 ≤ ns → i.id < s.svc.nextId → s.ptile i.cvtile = some t → s.run.state ≠ .recover →
        i.batch = x.xbatch →
        x.phase ≠ .batchEnd → x.power ≠ .sleep →
        Does (.completionResend item) s (fun r => (∀ j ∈ r.svc.store, j.id ≠ i.id) ∧
          (r.tile t).flag i.cflag = min 15 (x.flag i.cflag + 1) ∧ TilesBut t s r ∧ r.mem = s.mem ∧
          (i.ckind = 1 → i.cslot < 64 → (r.tile t).slot i.cslot = i.result))) ∧
      (s.heldItem i = true → s.fld .pwrDeferMax 15 0 ≠ 0 →
        s.fld .pwrDeferMax 15 0 * 1000 ≤ i.heldNs →
        Does (.deferForced item) s (fun r => (∃ j ∈ r.svc.store, j = { i with forced := true }) ∧
          bit (r.reg (pwrPage + 0xC)) 4 = true ∧ 0 < bits (r.reg (pwrPage + 0x18)) 31 16 ∧
          RegsBut (errRegs pwrPage) s r ∧ Only [.svc, .regs, .con, .host] s r)))

/-- Memory items of the supervisor queue on plaintext DDR, with no bank in the model cache: MREAD gives the value,
MWRITE stores and gives the low bytes of token 1, MRMW stores the operation's value and gives the old one; each
completes with status 0. A misaligned one of any of the three completes with status 3 and moves nothing. -/
def Obligations.MemoryItemsComplete : Prop :=
  ∀ (eng : Nat) (i : SvcItem) (s : State), s.Canonical → eng < 18 → s.running eng = some i → i.source = .sup →
    s.cacheBanks = [] → s.cached (i.addr / 64) = none →
    let a := i.addr
    let n := i.bytes
    let old := s.mem.ddr.readNat a n
    let m := 2 ^ (8 * n)
    let x := i.tok1.toNat % m
    let y := i.tok2.toNat % m
    let new := match i.op with
      | 0 => (old + x) % m
      | 1 => old &&& x
      | 2 => old ||| x
      | 3 => old ^^^ x
      | 4 => x
      | 5 => if old = y then x else old
      | 6 => min old x
      | _ => max old x
    let plain (rd wr : Bool) : Prop := a % n = 0 ∧ s.Plain ⟨clsSup, 10⟩ 10 a (a + 1) rd wr ∧
      s.inModel (a / 64 * 64) 64 = false
    let done (status : Byte) (v : Nat) (r : State) : Prop := EngineFreed eng s r ∧
      SupCompleted i status (BitVec.ofNat 64 v) s r ∧ TilesSame s r ∧ Only [.svc, .mem, .regs, .host] s r
    let misaligned (r : State) : Prop := EngineFreed eng s r ∧ SupCompleted i 3 0 s r ∧ r.mem = s.mem ∧
      0 < bits (r.reg (svcPage + 0x18)) 31 16 ∧ TilesSame s r
    (i.type = 0x01 → plain true false →
      Does (.mread eng .clean) s (fun r => done 0 old r ∧ r.mem.ddr = s.mem.ddr)) ∧
    (i.type = 0x02 → plain false true →
      Does (.mwrite eng .clean) s (fun r => done 0 x r ∧ DdrStored a (leBytes n x) s r)) ∧
    (i.type = 0x03 → i.op < 8 → plain true true →
      Does (.mrmw eng .clean) s (fun r => done 0 old r ∧ DdrStored a (leBytes n new) s r)) ∧
    (i.type = 0x01 → a % n ≠ 0 → Does (.mread eng .clean) s misaligned) ∧
    (i.type = 0x02 → a % n ≠ 0 → Does (.mwrite eng .clean) s misaligned) ∧
    (i.type = 0x03 → i.op < 8 → a % n ≠ 0 → Does (.mrmw eng .clean) s misaligned)

/-- Transactor items of a tile on plaintext rings: XOUT appends its 16-byte record at DEV and moves DEV, XIN takes
the 8-byte word at DEV and moves DEV; the completion reaches the tile's flag, and XIN's word its mailbox. At a full
ring XOUT gives up its engine and is parked. -/
def Obligations.TransactorItemsMoveData : Prop :=
  ∀ (eng t : Nat) (i : SvcItem) (s : State), s.Canonical → eng < 18 → s.running eng = some i →
    let c := i.op
    let x := s.tile t
    let lands : Prop := i.fromTile = true ∧ i.id < s.svc.nextId ∧ s.ptile i.cvtile = some t ∧ s.run.state ≠ .recover ∧
      i.batch = x.xbatch ∧ x.phase ≠ .batchEnd ∧ x.power ≠ .sleep
    let landed (r : State) : Prop := EngineFreed eng s r ∧ (∀ j ∈ r.svc.store, j.id ≠ i.id) ∧ TilesBut t s r ∧
      (r.tile t).flag i.cflag = min 15 (x.flag i.cflag + 1)
    let sizeO := 2 ^ s.fld .svcXchSize 4 0 c
    let sizeI := 2 ^ s.fld .svcXchSize 20 16 c
    let devO := bits (s.rd .svcXoutPtr c) 15 0 % sizeO
    let devI := bits (s.rd .svcXinPtr c) 15 0 % sizeI
    let hostO := bits (s.rd .svcXoutPtr c) 31 16 % sizeO
    let hostI := bits (s.rd .svcXinPtr c) 31 16 % sizeI
    let atO := s.ringBase .svcXoutBaseLo .svcXoutBaseHi c + 16 * devO
    let atI := s.ringBase .svcXinBaseLo .svcXinBaseHi c + 8 * devI
    (i.type = 0x10 → lands → s.prf.xoutRedo = [] → bit (s.rd .svcXoutBaseLo c) 0 = true →
      (devO + 1) % sizeO ≠ hostO → sizeO ≤ 65536 →
      s.Plain reqService 9 atO (atO + 16) false true → s.inModel (atO / 64 * 64) 64 = false →
      Does (.xout eng .clean) s (fun r => landed r ∧
        bits (r.rd .svcXoutPtr c) 15 0 = (devO + 1) % sizeO ∧
        bits (r.rd .svcXoutPtr c) 31 16 = bits (s.rd .svcXoutPtr c) 31 16 ∧
        DdrStored atO (leBytes 8 i.tok0.toNat ++ leBytes 6 i.batch.toNat ++ leBytes 1 i.vtile ++
          leBytes 1 i.tmplNo) s r)) ∧
    (i.type = 0x10 → s.prf.xoutRedo = [] → bit (s.rd .svcXoutBaseLo c) 0 = true →
      (devO + 1) % sizeO = hostO →
      Does (.xout eng .clean) s (fun r => Table.get (fun _ => none) r.svc.engines eng = none ∧
        (∃ j ∈ r.svc.store, j = { i with stage := .parked c }) ∧
        r.svc.parkOrder = s.svc.parkOrder ++ [i.id] ∧ Only [.svc] s r)) ∧
    (i.type = 0x11 → lands → s.prf.replay = [] → s.inputOn = false → bit (s.rd .svcXinBaseLo c) 0 = true →
      devI ≠ hostI → sizeI ≤ 65536 → s.Plain reqService 9 atI (atI + 8) true false →
      i.ckind = 1 → i.cslot < 64 →
      Does (.xin eng .clean) s (fun r => landed r ∧ bits (r.rd .svcXinPtr c) 15 0 = (devI + 1) % sizeI ∧
        bits (r.rd .svcXinPtr c) 31 16 = bits (s.rd .svcXinPtr c) 31 16 ∧
        (r.tile t).slot i.cslot = BitVec.ofNat 64 (s.mem.ddr.readNat atI 8) ∧ r.mem.ddr = s.mem.ddr))

/-- Cache items of the supervisor queue: CFILL of a line that is not cached brings its 64 bytes in, CEVICT of a dirty
plaintext line stores them and leaves the line clean, CEVICT with INVALIDATE drops the line without a store. -/
def Obligations.CacheItemsMoveLines : Prop :=
  ∀ (eng l : Nat) (c : CacheLine) (i : SvcItem) (s : State), s.Canonical → eng < 18 →
    s.running eng = some i → i.source = .sup → i.w1.toNat = 64 * l → i.tok0.toNat % 2 ^ 16 = 1 →
    let done (r : State) : Prop := EngineFreed eng s r ∧ SupCompleted i 0 0 s r ∧ TilesSame s r
    let granted (rd wr : Bool) : Prop := s.Plain ⟨clsSup, 10⟩ 10 (64 * l) (64 * l + 64) rd wr
    let inSet := s.svc.cache.filter fun d => d.bank = s.lineBank l && d.set = s.lineSet l
    (i.type = 0x20 → granted true false → s.cached l = none → s.cacheBanks ≠ [] → inSet.length < 16 →
      s.Plain reqService 10 (64 * l) (64 * l + 64) true false →
      Does (.cfill eng .clean) s (fun r => done r ∧ r.mem.ddr = s.mem.ddr ∧
        ∃ b ∈ s.cacheBanks, ∃ k < 512, r.svc.cache = s.svc.cache ++
          [⟨l, BitVec.ofNat 512 (s.mem.ddr.readNat (64 * l) 64), false, 0, b, k⟩])) ∧
    (i.type = 0x20 → granted true false → s.cacheBanks = [] →
      Does (.cfill eng .clean) s (fun r => done r ∧ r.svc.cache = s.svc.cache ∧ r.mem = s.mem)) ∧
    (s.host.moving = [] → i.type = 0x21 → granted false true → s.cached l = some c →
      (bit i.tok1 0 = false → c.dirty = true → c.slot = 0 →
        s.Plain reqService 9 (64 * l) (64 * l + 64) false true → s.inModel (64 * l) 64 = false →
        Does (.cevict eng) s (fun r => done r ∧ DdrStored (64 * l) (leBytes 64 c.data.toNat) s r ∧
          (∀ d ∈ r.svc.cache, d.line = l → d.dirty = false) ∧
          r.svc.cache.length = s.svc.cache.length)) ∧
      (bit i.tok1 0 = true →
        Does (.cevict eng) s (fun r => done r ∧ r.mem = s.mem ∧
          r.svc.cache = s.svc.cache.filter (fun d => d.line ≠ l))))

/-- Items of the device itself. TSPILL of the oldest block stores its 4,096 bytes in the ring and moves DEV,
TCOMPACT stores the directory entry that it carries, a scrub counts a corrected error and changes no byte, and fails
with DDR_UE where the engine takes no request (DEDUCED, assumption 69); a crier's item becomes a record of 32 bytes
in the stream. -/
def Obligations.DeviceItemsComplete : Prop :=
  ∀ (eng seg k l rank dram row : Nat) (i : SvcItem) (s : State),
    s.Canonical → eng < 18 → s.running eng = some i → i.fromTile = false → i.fromHost = false →
    i.id < s.svc.nextId →
    let gone (r : State) : Prop := EngineFreed eng s r ∧ ∀ j ∈ r.svc.store, j.id ≠ i.id
    let dev := s.fld .acqSpillDev 23 0
    let ring := (s.rd64 .acqSpillBaseLo .acqSpillBaseHi).toNat + 4096 * dev
    let block := s.acq.blockAddr k
    let entry := (s.rd64 .acqDirBaseLo .acqDirBaseHi).toNat / 4096 * 4096 + 32 * seg
    let at_ := s.acq.blockAddr s.acq.wrBlock + 16 * s.acq.wrUnits
    (∀ ks : List Nat, i.type = 0x30 → s.acq.blocks = k :: ks → s.Plain reqAcq 13 ring (ring + 4096) false true →
      ring % 64 = 0 → (∀ l : Nat, s.inModel (64 * l) 64 = false) →
      Does (.tspill eng .clean) s (fun r => gone r ∧ DdrStored ring (s.mem.larder.readBytes block 4096) s r ∧
        r.fld .acqSpillDev 23 0 = (dev + 1) % 2 ^ s.spillLog2 ∧ bit (r.reg (acqPage + 0xC)) 3 = true ∧
        TilesSame s r ∧ (ks = [] → s.acq.state = .live → s.acq.out = [] → s.acq.gap = [] → s.acq.dirs = [] →
          r.acq.blocks = [] ∧ r.mem.larder = s.mem.larder))) ∧
    (i.type = 0x31 → i.w1.toNat = seg →
      s.Plain reqAcq 13 entry (entry + 32) false true → s.inModel (entry / 64 * 64) 64 = false →
      Does (.tcompact eng .clean) s (fun r => gone r ∧ r.acq = s.acq ∧ TilesSame s r ∧
        DdrStored entry (leBytes 8 i.tok0.toNat ++ leBytes 8 i.tok1.toNat ++ leBytes 8 i.tok2.toNat ++
          leBytes 8 (i.t3.getD 0).toNat) s r)) ∧
    (i.type = 0x50 →
      let ch := s.ddrChannel (64 * l)
      let scrubbed (r : State) : Prop := gone r ∧ r.mem.ddr = s.mem.ddr ∧ r.mem.larder = s.mem.larder ∧ TilesSame s r
      Does (.scrub eng [] []) s (fun r => scrubbed r ∧ ∀ c < 8, r.rd .memChCe c = s.rd .memChCe c) ∧
      (s.pageEn encPage = false → i.w1.toNat / 64 = l → s.scrubLine i l = true → ch < 8 →
        Does (.scrub eng [] []) s (fun r => scrubbed r ∧ 0 < bits (r.reg (chanPage ch + 0x18)) 31 16)) ∧
      (s.scrubLine i l = true → s.engineTakes (64 * l) = true → s.dramFails ch (.corrected rank dram row) = false →
        ch < 8 →
        Does (.scrub eng [(l, rank, dram, row)] []) s (fun r => scrubbed r ∧
          (r.rd .memChCe ch).toNat = min 0xFFFFFFFF ((s.rd .memChCe ch).toNat + 1) ∧
          ∀ c < 8, c ≠ ch → r.rd .memChCe c = s.rd .memChCe c))) ∧
    (i.type = 0x60 → Does (.crier eng) s (fun r => gone r ∧ r.mem.ddr = s.mem.ddr ∧ TilesSame s r)) ∧
    (i.type = 0x60 → s.acq.state = .live → s.acq.blocks = [] → s.acq.out = [] → s.acq.gap = [] → 0 < s.acq.total →
      0 < s.acq.wrUnits → s.acq.wrUnits + 2 < 256 →
      Does (.crier eng) s (fun r => gone r ∧ r.acq = { s.acq with wrUnits := s.acq.wrUnits + 2 } ∧
        r.mem.larder.readBytes at_ 32 = [0x07, 0xFF] ++ leBytes 2 2 ++ leBytes 2 s.acq.segment ++ [0, 0] ++
          leBytes 8 i.batch.toNat ++ leBytes 4 i.tok0.toNat ++ leBytes 4 i.tok1.toNat ++
          leBytes 8 i.tok2.toNat ∧
        (∀ a : Nat, a < at_ ∨ at_ + 32 ≤ a → r.mem.larder.read a = s.mem.larder.read a) ∧
        r.mem.ddr = s.mem.ddr ∧ TilesSame s r))

/-! ## Run control (R450 to R461, R469 to R473) and batches (R22 to R26, R132, R133, R252 to R257) -/

/-- RUN and STEP release a device in IDLE, or HALTED and resumable, with an image in service: CAUSES is set anew, the
watchdog is reloaded, the tiles and the memories stand. Without an image they are refused; HALT asks a running device
to halt after its batch, and the halt is complete once the device is quiet. -/
def Obligations.RunCommands : Prop :=
  ∀ (val : Word) (s : State), s.Canonical → s.reachable = true → s.srst runPage = false →
    let mayRun : Prop := s.pageEn runPage = true ∧ s.ldr.state = .service ∧ s.jtag.stopped = false ∧
      s.enc.integrityHalt = false ∧ s.prf.restoreDue = false ∧
      s.prf.sleeping = false ∧ (s.run.state = .idle ∨ s.run.state = .halted ∧ s.run.resumable = true)
    let released (q : RunState) (causes : BitVec 13) (stp : Bool) (r : State) : Prop :=
      r.run.state = q ∧ r.run.causes = causes ∧ r.run.stepPending = stp ∧ r.run.batch = s.run.batch ∧
      r.run.wdgNs = max 1 (s.rd .wdgTimeout).toNat * 1000 ∧ r.led.est = s.eMax ∧ r.sup.stepPllOn = true ∧
      TilesSame s r ∧ r.mem = s.mem
    (bits val 2 0 = 1 → mayRun → Does (.runCmdRun val) s (released .run 0 false)) ∧
    (bits val 2 0 = 4 → mayRun → Does (.runCmdStep val) s (released .halting 4 true)) ∧
    (bits val 2 0 = 1 → s.run.state = .run → s.ldr.state = .service →
      Does (.runCmdRun val) s (fun r => r = s)) ∧
    (bits val 2 0 = 4 → s.pageEn runPage = true → s.ldr.state ≠ .service →
      Does (.runCmdStep val) s (fun r => Only [.regs, .con, .host] s r ∧ RegsBut (errRegs runPage) s r ∧
        0 < bits (r.reg (runPage + 0x18)) 31 16)) ∧
    (bits val 2 0 = 2 → s.run.state = .run →
      Does (.runCmdHalt val) s (fun r => r.run.state = .halting ∧ r.run.causes = s.run.causes ||| 2 ∧
        (r.run.resumable = s.run.resumable) ∧ Only [.run, .con] s r)) ∧
    (bits val 2 0 = 2 → s.isHalted = true → Does (.runCmdHalt val) s (fun r => r = s)) ∧
    (s.run.state = .halting → s.run.inBatch = false → s.run.stepPending = false → s.prf.state = .idle →
      s.saveNeeded = false → s.quiet = true →
      Does .haltComplete s (fun r => r.run.state = .halted ∧ bit (r.reg (runPage + 0xC)) 1 = true ∧
        r.led.holdNs = none ∧ (∀ l ∈ r.svc.cache, l.dirty = false) ∧
        ((∀ l ∈ s.svc.cache, l.dirty = false) → s.acq.seg = none → r.run.causes = s.run.causes ∧
          (r.run.resumable = true ↔ s.run.causes &&& 0x1E00 = 0) ∧ r.run.batch = s.run.batch ∧
          r.svc = s.svc ∧ r.mem.ddr = s.mem.ddr ∧ TilesSame s r)))

/-- The watchdog: at zero it stops, counts, raises ALERT_N, halts a running device under ACTION 1 and 2 and turns the
drivers off under 2; the right key reloads it, another is recorded; EN reloads it too.
Writes of the comparators' control registers and of a crier: the register takes the value, an access comparator
forgets its hit and its addresses, and a crier's value becomes an item of the service plane. -/
def Obligations.WatchdogAndCriers : Prop :=
  (
    ∀ (val : Word) (s : State), s.Canonical →
      let full := max 1 (s.rd .wdgTimeout).toNat * 1000
      (s.wdgCounts = true → s.run.wdgNs = 0 →
        Does .wdgExpired s (fun r => r.run.wdgStopped = true ∧ bit (r.rd .glbAlert) 4 = true ∧
          r.fld .wdgStat 15 0 = min 0xFFFF (s.fld .wdgStat 15 0 + 1) ∧ r.fld .wdgStat 31 31 = 1 ∧
          0 < bits (r.reg (wdgPage + 0x18)) 31 16 ∧ TilesSame s r ∧ r.mem = s.mem ∧
          (s.wdgAction = 0 → r.run.state = s.run.state ∧ r.run.causes = s.run.causes) ∧
          (s.wdgAction ≠ 0 → s.run.state = .run → r.run.state = .halting ∧ bit r.run.causes 7 = true) ∧
          (s.wdgAction = 2 → r.pins.dioDrive = 0) ∧ (s.wdgAction ≠ 2 → r.pins = s.pins))) ∧
      (s.reachable = true → s.srst wdgPage = false →
        (bits val 7 0 = 0x5A → Does (.wdgKick val) s (fun r =>
          r.run = { s.run with wdgNs := full, wdgStopped := false } ∧ r.fld .wdgStat 31 31 = 0 ∧
          RegsBut [Reg.addr .wdgStat] s r ∧ Only [.regs, .run] s r)) ∧
        (bits val 7 0 ≠ 0x5A → Does (.wdgKick val) s (fun r => Only [.regs, .con, .host] s r ∧
          RegsBut (errRegs wdgPage) s r ∧ 0 < bits (r.reg (wdgPage + 0x18)) 31 16)) ∧
        Does (.wdgCfgWrite val) s (fun r => r.rd .wdgCfg = val &&& 0x80000003 ∧
          RegsBut [Reg.addr .wdgCfg, Reg.addr .wdgStat] s r ∧ Only [.regs, .run] s r ∧
          (bit val 31 = true → r.run.wdgNs = full) ∧ (bit val 31 = false → r.run = s.run)))) ∧
  (
    ∀ (k : Nat) (val : Word) (s : State), s.Canonical → s.reachable = true →
      (s.srst runPage = false → k < 4 →
        Does (.runBcmpCtrlWrite k val) s (fun r => r.rd .runBcmpCtrl k = val &&& 0x80000003 ∧
          RegsBut [Reg.addr .runBcmpCtrl k] s r ∧ Only [.regs] s r)) ∧
      (s.srst runPage = false → k < 8 →
        Does (.runAcmpCtrlWrite k val) s (fun r => r.rd .runAcmpCtrl k = val &&& 0xFFF00003 ∧
          r.rd .runAcmpHit k = 0 ∧ r.rd64 .runAcmpHbatchLo .runAcmpHbatchHi k = 0 ∧
          r.rd64 .runAcmpHaddrLo .runAcmpHaddrHi k = 0 ∧ Only [.regs] s r ∧
          RegsBut [Reg.addr .runAcmpCtrl k, Reg.addr .runAcmpHit k, Reg.addr .runAcmpHbatchLo k,
            Reg.addr .runAcmpHbatchHi k, Reg.addr .runAcmpHaddrLo k, Reg.addr .runAcmpHaddrHi k] s r)) ∧
      (s.srst criPage = false → k < 32 → s.pageEn criPage = true → s.run.criers = [] → s.criersPending < 64 →
        s.internalUsed < 480 →
        Does (.criValWrite k val) s (fun r => r.rd .criVal k = val ∧ r.run.criers = [] ∧
          RegsBut [Reg.addr .criVal k] s r ∧ Only [.regs, .svc, .run] s r ∧
          r.svc.store.length = s.svc.store.length + 1 ∧ s.svc.nextId ∈ r.svc.ready ∧
          ∃ i ∈ r.svc.store, i.id = s.svc.nextId ∧ i.source = .crier ∧ i.type = 0x60 ∧ i.batch = s.run.batch ∧
            i.tok0 = BitVec.ofNat 64 k ∧ i.tok1 = val.setWidth 64)) ∧
      (s.srst criPage = false → k < 32 → s.pageEn criPage = true → 64 ≤ s.criersPending →
        Does (.criValWrite k val) s (fun r => r.svc = s.svc ∧ r.run = s.run ∧
          r.fld .criStat 31 16 = min 0xFFFF (s.fld .criStat 31 16 + 1))))

/-- A batch starts when the four conditions hold, outside a pause: every mapped tile stands at step 0 with its stored
state as it was, the estimate leaves the ledger. A start that the ledger does not cover is held and counted, and
recorded once its limit has passed. -/
def Obligations.BatchStarts : Prop :=
  ∀ (s : State), s.Canonical → s.run.state ≠ .recover →
    let sched := s.rd .timSchedCtrl
    (s.startReady = true → s.startAllowed = true → s.covered = true → bit sched 31 = false →
      bit sched 30 = false → s.prf.replay = [] → s.inputOn = false → s.mem.handovers = [] →
      Does .batchStart s (fun r => r.run.inBatch = true ∧ r.run.batch = s.nextBatch ∧
        r.run.stepPending = false ∧ r.ldr.setReset = false ∧
        r.led.level = s.led.level - (s.led.est : Int) * 1000000 ∧ r.mem.ddr = s.mem.ddr ∧
        r.mem.larder = s.mem.larder ∧
        (∀ t < 136, (s.tile t).vtile.isSome = true → (r.tile t).phase = .exec ∧ (r.tile t).step = 0 ∧
          (r.tile t).hold = none ∧ (r.tile t).pantry = (s.tile t).pantry ∧
          (r.tile t).thenHalf = (s.tile t).thenHalf ∧ (r.tile t).flags = (s.tile t).flags) ∧
        (∀ t < 136, (s.tile t).vtile = none → r.tile t = s.tile t))) ∧
    (s.startReady = true → s.startAllowed = true → s.covered = false → s.led.holdNs = none →
      Does .batchStart s (fun r => r.led = { s.led with holdNs := some 0, starved := false } ∧
        (r.rd .pwrPaceHolds).toNat = min 0xFFFFFFFF ((s.rd .pwrPaceHolds).toNat + 1) ∧
        RegsBut [Reg.addr .pwrPaceHolds] s r ∧ Only [.led, .regs, .tim] s r ∧
        r.tim = (if s.paced then { s.tim with slot := none } else s.tim))) ∧
    (∀ ns : Nat, s.heldNow = true → s.led.holdNs = some ns → s.led.starved = false → s.fld .pwrStarveLimit 15 0 ≠ 0 →
      s.fld .pwrStarveLimit 15 0 * 1000 < ns →
      Does .paceStarved s (fun r => r.led = { s.led with starved := true } ∧
        bit (r.reg (pwrPage + 0xC)) 3 = true ∧ bit (r.rd .glbAlert) 3 = true ∧
        0 < bits (r.reg (pwrPage + 0x18)) 31 16 ∧ RegsBut (Reg.addr .glbAlert :: errRegs pwrPage) s r ∧
        Only [.led, .regs, .con, .host] s r))

/-- The end of a batch, with no packet in a rack and no replay: then-half positions take what the now-half holds,
taps, flags and queues are empty, and mapped tiles stand idle at step 0 in the next exchange batch. The ledger takes
the estimate back and gives what the batch took, up to its capacity, and the next batch is estimated from it. Each
design output pin of a powered bank takes its enable and its data from its sources after the swap, unless the
watchdog holds the drivers off. -/
def Obligations.BatchEnds : Prop :=
  ∀ (s : State), s.Canonical → s.batchOver = true → s.run.state = .run ∨ s.run.state = .halting →
    s.prf.replay = [] →
    (∀ t < 136, (s.tile t).rack = []) →
    let took := s.batchEnergy
    let source (w : Word) (r : State) : Bool :=
      if bits w 31 30 = 1 then true
      else if bits w 31 30 = 2 then
        match s.ptile (bits w 29 23) with
        | some t => (r.tile t).thenBit (bits w 22 14) (bits w 13 4)
        | none => false
      else false
    let word (m : Table Word) (p : Nat) : Word := Table.get (fun _ => 0) m p
    Does .batchEnd s (fun r => r.run.inBatch = false ∧ r.run.batch = s.run.batch + 1 ∧
      r.led.last = took ∧
      r.led.level = min (s.led.level + (s.led.estCurrent : Int) * 1000000 - (took : Int) * 1000000) s.capacityFj ∧
      r.led.est = min s.eMax ((took * (256 + s.margin) + 255) / 256) ∧
      (s.run.driversOff = false → ∀ p < 128,
        bit r.pins.dioDrive p = (source (word s.ldr.pinEnable p) r && bit s.sup.vdioOn (p / 32)) ∧
        bit r.pins.dioLevel p = (source (word s.ldr.pinData p) r && bit r.pins.dioDrive p)) ∧
      (s.run.driversOff = true → s.run.driversArmed = false → r.pins = s.pins) ∧
      ∀ t < 136, let x := s.tile t
        let y := r.tile t
        (x.vtile = none → y = x) ∧
        (x.vtile.isSome = true → y.phase = .idle ∧ y.step = 0 ∧ y.xbatch = s.run.batch + 1 ∧ y.tap = [] ∧
          y.nowHalf = [] ∧ (∀ f : Nat, y.flag f = 0) ∧ (∀ q : Nat, y.qLen q = 0) ∧ y.mbxValid = 0 ∧
          y.pantry = x.pantry ∧ y.wuReg = x.wuReg ∧ y.qHead = x.qHead ∧
          ∀ b n : Nat, n < 1024 →
            y.thenBit b n = (Table.get (fun _ => none) x.nowHalf (b * 1024 + n)).getD (x.thenBit b n)))

/-- Counters that a read clears: the read gives the value, and the register is 0 afterwards unless PEEK of the page
holds. -/
def Obligations.CountersClearOnRead : Prop :=
  ∀ (k : Nat) (s : State), s.Canonical → s.reachable = true →
    let reads (c : Instr) (r : Reg) (i page : Nat) : Prop :=
      Does c s (fun t => t.host.readData = [s.rd r i] ∧ RegsBut [r.addr i] s t ∧ Only [.regs, .host] s t ∧
        (s.pagePeek page = false → t.rd r i = 0) ∧ (s.pagePeek page = true → t.rd r i = s.rd r i))
    (k < 136 → (s.tile k).power = .on →
      reads (.tilPrbMarksRead k .bar0) .tilPrbMarks k (tilePage k 6) ∧
      reads (.tilDpStallRead k .bar0) .tilDpStall k (tilePage k 4)) ∧
    (k < 18 → reads (.svcEngItemsRead k .bar0) .svcEngItems k (engPage k)) ∧
    (k < 8 → reads (.runAcmpCountRead k .bar0) .runAcmpCount k runPage) ∧
    (k < 8 → reads (.memChCeRead k .bar0) .memChCe k (chanPage k)) ∧
    (k < 8 → reads (.lnkCntRead k false .bar0) .lnkCntA k (portPage k 0) ∧
      reads (.lnkCntRead k true .bar0) .lnkCntB k (portPage k 0)) ∧
    (k < 72 → Does (.lnkLaneErrRead (k / 9) (k % 9) .bar0) s (fun t =>
      t.host.readData = [s.rd .lnkLaneErr (k / 9) (k % 9)] ∧ RegsBut [Reg.addr .lnkLaneErr (k / 9) (k % 9)] s t ∧
      Only [.regs, .host] s t ∧ (s.pagePeek (portPage (k / 9) 1) = false → t.rd .lnkLaneErr (k / 9) (k % 9) = 0))) ∧
    reads (.nocFwdRead .bar0) .nocFwd 0 nocPage ∧
    reads (.pwrPaceHoldsRead .bar0) .pwrPaceHolds 0 pwrPage ∧
    reads (.pwrPaceTimeRead .bar0) .pwrPaceTime 0 pwrPage ∧
    reads (.timPaceOverrunRead .bar0) .timPaceOverrun 0 timPage ∧
    reads (.acqDroppedRead .bar0) .acqDropped 0 acqPage ∧
    reads (.acqExtLostRead .bar0) .acqExtLost 0 acqPage ∧
    reads (.prfDiscardRead .bar0) .prfDiscard 0 prfPage ∧
    Does (.criStatRead .bar0) s (fun t =>
      t.host.readData = [setBits (s.rd .criStat) 6 0 s.criersPending] ∧ Only [.regs, .host] s t ∧
      RegsBut [Reg.addr .criStat] s t ∧ (s.pagePeek criPage = false → t.fld .criStat 31 16 = 0)) ∧
    Does (.runBatchRead .bar0) s (fun t => t.host.readData = [lo32 s.run.batch] ∧ Only [.regs, .host] s t ∧
      RegsBut [Reg.addr .runBatchHi] s t ∧
      (s.pagePeek runPage = false → t.rd .runBatchHi = hi32 s.run.batch))

/-! ## State windows and the JTAG port (R463 to R467, R474) -/

/-- A window write stores its word where the window points, and a read gives the word there; the words of a space
that a window cannot write, and those beyond its end, take nothing. While the device runs neither works. A tile that a
self-test slice tests is isolated: a write stores nothing and a read gives 0 (DEDUCED, assumption 47). -/
def Obligations.StateWindows : Prop :=
  ∀ (t pg i : Nat) (val : Word) (s : State), s.Canonical → s.reachable = true → t < 136 → 8 ≤ pg → pg < 16 → i < 512 →
    (s.tile t).power = .on →
    let space := s.winSpace t pg
    let o := s.winOff t pg i
    (s.srst (tilePage t pg) = false → s.underTest t = false → s.windowOff space true = none →
      (o < spaceSize space → space ≠ 4 → space ≠ 6 → recipeSpace space = true ∨ s.inputOn = false →
        Does (.tilWinWrite t pg i val) s (fun r =>
          r.tile t = (s.tile t).writeSpace space o val ∧ TilesBut t s r ∧
          ((space ≠ 9 ∨ o < 8192) → (r.tile t).readSpace space o = val) ∧
          (recipeSpace space = false → Only [.tiles] s r) ∧ Only [.tiles, .prf, .regs, .con, .host] s r)) ∧
      (spaceSize space ≤ o ∨ space = 4 ∨ space = 6 → Does (.tilWinWrite t pg i val) s (fun r => r = s))) ∧
    (s.underTest t = false → s.windowOff space false = none →
      Does (.tilWinRead t pg i) s (fun r =>
        r.host.readData = [if spaceSize space ≤ o then 0 else (s.tile t).readSpace space o] ∧ Only [.host] s r)) ∧
    (s.underTest t = true → Does (.tilWinRead t pg i) s (fun r => r.host.readData = [0] ∧ Only [.host] s r) ∧
      (s.srst (tilePage t pg) = false → Does (.tilWinWrite t pg i val) s (fun r => r = s))) ∧
    (s.underTest t = false → s.isHalted = false →
      Does (.tilWinRead t pg i) s (fun r => r.host.readData = [0] ∧ Only [.regs, .con, .host] s r ∧
        0 < bits (r.reg (tilePage t pg + 0x18)) 31 16 ∧ RegsBut (errRegs (tilePage t pg)) s r) ∧
      (s.srst (tilePage t pg) = false → Does (.tilWinWrite t pg i val) s (fun r => Only [.regs, .con, .host] s r ∧
        0 < bits (r.reg (tilePage t pg + 0x18)) 31 16 ∧ RegsBut (errRegs (tilePage t pg)) s r)))

/-- TAP instructions: the code enters the instruction register; those that take the pins or the scan chains clear
the key store and stop the device until a cold reset, SAMPLE/PRELOAD clears the keys and the run goes on.
The JTAG access paths: an access with GO reads or writes a register, or 8 bytes of plaintext DDR; one that cannot
be made leaves a reason. That DBG_MEM drops the low 3 bits of its address, status 5 where memory does not answer,
reason 2 while the domains of the pages are off, and that RUN is refused until a cold reset are assumption 29
(DEDUCED). TDO is high-impedance once a code is shifted in. -/
def Obligations.JtagPort : Prop :=
  (
    ∀ (peek : Bool) (s : State), s.Canonical → s.sup.power ≠ .unpowered →
      let quiet (j : Jtag) (r : State) : Prop :=
        r.jtag = j ∧ r.pins = { s.pins with extest := false, tdoOff := true } ∧ Only [.jtag, .pins] s r
      let cleared (r : State) : Prop := r.enc.slots = [] ∧ r.enc.kt = none ∧ bit (r.rd .encStat) 29 = true ∧
        ∀ q < 15, r.qkey q = 0
      let stops (code : Nat) (pins : Bool) (r : State) : Prop := cleared r ∧ r.jtag.ir = code ∧
        r.jtag.stopped = true ∧ r.pins.extest = pins ∧
        (s.isHalted = true → r.run = s.run ∧ TilesSame s r) ∧
        (s.isHalted = false → r.run.state = .halted ∧ r.run.causes = s.run.causes ||| 0x1000 ∧ r.run.resumable = false ∧
          ∀ t < 136, (s.tile t).vtile.isSome = true → (r.tile t).phase = .fault ∧ (r.tile t).pantry = (s.tile t).pantry)
      Does .tapReset s (quiet { s.jtag with ir := 1, peek := true }) ∧
      Does .bypass s (quiet { s.jtag with ir := 0xFF }) ∧
      Does .idcode s (quiet { s.jtag with
        ir := 1
        idcode := BitVec.ofNat 32 (s.fuses.stepping.toNat % 16 * 2 ^ 28 + s.fuses.deviceId.toNat * 2 ^ 12 +
          Config.jedecId.toNat * 2 + 1) }) ∧
      Does (.dbgCfg peek) s (quiet { s.jtag with ir := 0x12, peek := peek }) ∧
      Does .samplePreload s (fun r => cleared r ∧ r.jtag.ir = 2 ∧ r.jtag.stopped = s.jtag.stopped ∧ r.run = s.run ∧
        TilesSame s r) ∧
      Does .extest s (stops 0 true) ∧ Does .clamp s (stops 3 true) ∧ Does .highz s (stops 4 true) ∧
      Does .scan s (stops 0x20 false)) ∧
  (
    ∀ (write : Bool) (reg : BitVec 26) (w : Word) (addr data : DWord) (s : State), s.Canonical →
      s.sup.power ≠ .unpowered →
      let a := addr.toNat / 8 * 8
      let outside : Prop := s.inModel (a / 64 * 64) 64 = false
      Does (.dbgReg false write reg w) s (fun r => r.jtag = { s.jtag with ir := 0x10 } ∧ Only [.jtag, .pins] s r) ∧
      (reg.toNat % 4 ≠ 0 → Does (.dbgReg true write reg w) s (fun r =>
        r.jtag = { s.jtag with ir := 0x10, regAddr := reg, regReason := 1 } ∧ Only [.jtag, .pins] s r)) ∧
      (reg.toNat % 4 = 0 → s.uncoreOff = true → Does (.dbgReg true write reg w) s (fun r =>
        r.jtag = { s.jtag with ir := 0x10, regAddr := reg, regReason := 2 } ∧ Only [.jtag, .pins] s r)) ∧
      (s.reachable = true → s.srst wdgPage = false → reg.toNat = Reg.addr .wdgTimeout →
        Does (.dbgReg true true reg w) s (fun r => r.rd .wdgTimeout = w ∧ r.jtag.regReason = 0 ∧
          RegsBut [Reg.addr .wdgTimeout] s r) ∧
        Does (.dbgReg true false reg w) s (fun r => r.jtag.reg = s.rd .wdgTimeout ∧ r.jtag.regReason = 0 ∧
          Only [.jtag, .pins] s r)) ∧
      Does (.dbgMem false write .clean addr data) s (fun r =>
        r.jtag = { s.jtag with ir := 0x11 } ∧ Only [.jtag, .pins] s r) ∧
      (s.reachable = false → Does (.dbgMem true write .clean addr data) s (fun r =>
        r.jtag.memStatus = 5 ∧ r.jtag.memAddr = addr ∧ Only [.jtag, .pins] s r)) ∧
      (s.reachable = true → outside → s.Plain reqJtag 14 (a / 64 * 64) (a / 64 * 64 + 64) true false →
        Does (.dbgMem true false .clean addr data) s (fun r =>
          leBytes 8 r.jtag.mem.toNat = s.mem.ddr.readBytes a 8 ∧ r.jtag.memStatus = 0 ∧ r.jtag.memAddr = addr ∧
          r.mem.ddr = s.mem.ddr ∧ Only [.jtag, .pins, .mem] s r)) ∧
      (s.reachable = true → outside → s.Plain reqJtag 14 (a / 64 * 64) (a / 64 * 64 + 64) false true →
        Does (.dbgMem true true .clean addr data) s (fun r =>
          DdrStored a (leBytes 8 data.toNat) s r ∧ r.jtag.memStatus = 0 ∧ r.jtag.memAddr = addr ∧
          r.mem.larder = s.mem.larder ∧ Only [.jtag, .pins, .mem, .svc] s r)))

/-! ## Self-test and boot settings (R494 to R504) -/

/-- START begins the self-test from NEXT or at one slice and takes the image out of service; a slice that ends or
overruns is recorded, reported in BST_LAST, and the single slice ends the START; COMMIT writes the copy of the boot
settings that is not current, unless its erase leaves the flash read-only; RELOAD reads the current one. The run
state stays at BST_START (DEDUCED, assumption 47). -/
def Obligations.SelfTestAndBoot : Prop :=
  ∀ (k : Nat) (val : Word) (x : SliceResult) (s : State), s.Canonical →
    (s.reachable = true → s.srst bstPage = false → s.pageEn bstPage = true → bit val 8 = true → bits val 7 0 = k →
      k < 171 → s.isHalted = true →
      s.bst.slice = none → s.bstBudget = none →
      Does (.bstStart val) s (fun r => r.bst.slice = some k ∧ r.bst.single = true ∧ r.bst.ran = 0 ∧
        r.fld .bstStat 31 30 = 1 ∧ r.fld .bstStat 23 16 = 0 ∧ r.ldr.inService = false ∧
        ((∀ c ∈ s.svc.cache, 136 + c.bank / 8 ≠ k) → r.run = s.run ∧ r.mem.ddr = s.mem.ddr) ∧
        (sliceScans k = true → r.enc.slots = []))) ∧
    (s.reachable = true → s.srst bstPage = false → s.isHalted = false →
      Does (.bstStart val) s (fun r => r = s)) ∧
    (s.bst.slice = some k → s.bst.single = true → s.bst.byShutdown = false → k < 171 →
      Does (.bstSliceDone x) s (fun r => r.bst.slice = none ∧ r.fld .bstStat 31 30 = 2 ∧
        r.fld .bstLast 31 24 = k ∧ r.rd .bstLastUs = x.durationUs) ∧
      (50000000 ≤ s.bst.ns → Does .bstOverrun s (fun r => r.bst.slice = none ∧ r.fld .bstStat 31 30 = 2 ∧
        r.fld .bstLast 31 24 = k ∧ r.rd .bstLastUs = 50000))) ∧
    (s.bst.slice = some k → s.bst.single = true → s.bst.byShutdown = false → 144 ≤ k →
      k < 162 → x.result = 1 → x.columns = [] →
      s.flash.readonly = false → x.durationUs.toNat ≤ 50000 →
      Does (.bstSliceDone x) s (fun r => r.bst.slice = none ∧ r.fld .bstStat 31 30 = 2 ∧
        r.fld .bstStat 23 16 = (s.bst.ran + 1) % 256 ∧ r.fld .bstLast 31 24 = k ∧ r.rd .bstLastUs = x.durationUs ∧
        bit (r.reg (bstPage + 0xC)) 1 = true ∧ r.flash.nextSlice = s.flash.nextSlice ∧
        r.sup.nextSlice = s.sup.nextSlice ∧ r.flash.records = s.flash.records ++
          [(k, x.result, x.coverage, x.durationUs, x.failures, BitVec.ofNat 32 s.flash.coldStarts)] ∧
        (∀ a : Nat, engPage (k - 144) ≤ a → a < engPage (k - 143) → r.reg a = regInit a) ∧
        Only [.regs, .bst, .flash, .svc, .con, .host] s r)) ∧
    (s.bst.slice = some k → s.bst.single = true → s.bst.byShutdown = false → 144 ≤ k → k < 162 →
      s.flash.readonly = false →
      50000000 ≤ s.bst.ns →
      Does .bstOverrun s (fun r => r.bst.slice = none ∧ r.fld .bstStat 31 30 = 2 ∧
        r.rd .bstLastUs = 50000 ∧ 0 < bits (r.reg (bstPage + 0x18)) 31 16 ∧
        r.flash.records = s.flash.records ++ [(k, 3, 0, 50000, 0, BitVec.ofNat 32 s.flash.coldStarts)] ∧
        Only [.regs, .bst, .flash, .svc, .con, .host] s r)) ∧
    (s.reachable = true → s.srst flsPage = false → s.pageEn flsPage = true → bit val 0 = true →
      s.flash.readonly = false → s.flash.writing = [] →
      let erased := Table.get (fun _ => 0) s.flash.erases (s.flash.sector (4 + b2n s.flash.bootIsA)) + 1
      (100000 ≤ erased → s.flash.spares = [] → Does (.flsBootCommit val) s (fun r =>
        r.flash.writing = [] ∧ r.flash.readonly = true ∧ 0 < bits (r.reg (flsPage + 0x18)) 31 16)) ∧
      (erased < 100000 ∨ s.flash.spares ≠ [] → Does (.flsBootCommit val) s (fun r =>
        r.flash.writing = [.boot s.nextBoot (!s.flash.bootIsA)] ∧ s.nextBoot.good = true ∧
        s.nextBoot.autoload = bit (s.rd .flsBootCfg) 31 ∧ s.nextBoot.quad = bit (s.rd .flsBootCfg) 30 ∧
        s.nextBoot.sckField = s.fld .flsBootCfg 1 0 ∧ s.nextBoot.offset = s.rd .flsBootOfs ∧
        s.nextBoot.seq = s.flash.boot.seq + 1 ∧
        (s.flash.bootIsA = true → r.flash.bootA = s.flash.bootA ∧ r.flash.bootB.good = false) ∧
        (s.flash.bootIsA = false → r.flash.bootB = s.flash.bootB ∧ r.flash.bootA.good = false) ∧
        Only [.flash, .regs, .con, .host] s r))) ∧
    (s.reachable = true → s.srst flsPage = false → bit val 1 = true →
      Does (.flsBootReload val) s (fun r =>
        r.rd .flsBootOfs = s.flash.boot.offset &&& 0xFFFFF000 ∧
        bit (r.rd .flsBootCfg) 31 = s.flash.boot.autoload ∧ bit (r.rd .flsBootCfg) 30 = s.flash.boot.quad ∧
        (s.flash.boot.sck.toNat < 4 → r.fld .flsBootCfg 1 0 = s.flash.boot.sck.toNat) ∧
        (4 ≤ s.flash.boot.sck.toNat → r.fld .flsBootCfg 1 0 = 0) ∧
        RegsBut [Reg.addr .flsBootCfg, Reg.addr .flsBootOfs] s r ∧ Only [.regs] s r))

/-! ## Personality loading (R164 to R213) -/

/-- The way of an image through the loader: bytes, header, frames, trailer. Bytes of the selected source begin or go
on with a load; a header that passes R190 is accepted into WRITE or STAGE, another ends in FAILED; a control stream
frame stands in its tile as it came; the trailer leads to CHECK. The ways in which a load ends: an image that passes
enters SERVICE with the set-reset asserted, a partial one goes through COMMIT, and a failed check, a gap or an ABORT
ends in FAILED, which CLEAR leaves. A frame header is checked at its 16th byte (DEDUCED, assumption 15). A frame of
a partial image is staged in the loader's larder banks and leaves every tile and the image in service alone; a
staged bank that FAILED or left the loader fails the load (DEDUCED, assumption 71), and a load waits for a tile of
it under test (DEDUCED, assumption 47). Header acceptance of a full image and COMMIT leave the run state IDLE. -/
def Obligations.ImageLoads : Prop :=
  (
    ∀ (size : Nat) (data : DWord) (val : Word) (bytes : List Byte) (s : State), s.Canonical →
      let l := s.ldr
      let open' : Prop := s.reachable = true ∧ s.srst ldrPage = false ∧ s.pageEn ldrPage = true
      (open' → s.ldrSrc = 1 → size = 4 ∨ size = 8 →
        (l.state = .empty ∨ l.state = .service → Does (.ldrDataWrite size data) s (fun r =>
          r.ldr.state = .header ∧ r.ldr.buf = leBytes size data.toNat ∧ r.ldr.inService = l.inService ∧
          Only [.ldr, .con] s r)) ∧
        (l.state = .header ∨ l.state = .stage ∨ l.state = .write → Does (.ldrDataWrite size data) s (fun r =>
          r.ldr = { l with buf := l.buf ++ leBytes size data.toNat, gapNs := 0 } ∧ Only [.ldr] s r)) ∧
        (l.state = .check ∨ l.state = .commit ∨ l.state = .failed → Does (.ldrDataWrite size data) s (fun r =>
          (r.rd .ldrDropped).toNat = min 0xFFFFFFFF ((s.rd .ldrDropped).toNat + size) ∧ Only [.regs] s r ∧
          RegsBut [Reg.addr .ldrDropped] s r))) ∧
      (open' → bits val 1 0 = 2 → l.state = .empty ∨ l.state = .service → bytes ≠ [] →
        Does (.ldrSpiRead val bytes) s (fun r => r.ldr.state = .header ∧ r.fld .ldrCtrl 1 0 = 2 ∧
          r.ldr.buf = bytes.take (80 + 4112 * field bytes 0x14 4) ∧ Only [.ldr, .con, .regs] s r ∧
          RegsBut [Reg.addr .ldrCtrl] s r)) ∧
      (s.tileTested = true → exec .ldrHeader s = .next s) ∧ (s.frameTested = true → exec .ldrFrame s = .next s) ∧
      (l.state = .header → 64 ≤ l.buf.length → s.tileTested = false →
        (∀ code info : Nat, s.headerCheck (l.buf.take 64) = some (code, info) →
          Does .ldrHeader s (fun r => r.ldr.state = .failed ∧ r.ldr.cfgerr = true ∧ r.ldr.buf = [] ∧
            r.ldr.inService = l.inService ∧ r.ldr.kept = l.inService ∧ 0 < bits (r.reg (ldrPage + 0x18)) 31 16 ∧
            TilesSame s r ∧ r.mem = s.mem ∧ r.run = s.run)) ∧
        (s.headerCheck (l.buf.take 64) = none → field l.buf 0x0B 1 = 0 →
          Does .ldrHeader s (fun r => r.ldr.state = .write ∧ r.ldr.hdr = some (readHeader (l.buf.take 64)) ∧
            r.ldr.buf = l.buf.drop 64 ∧ r.ldr.frames = 0 ∧ r.ldr.inService = false ∧ r.ldr.setReset = true ∧
            r.run.state = .idle ∧ r.pins.dioDrive = 0 ∧ r.prf.cur = none ∧ r.net.loc = [])) ∧
        (s.headerCheck (l.buf.take 64) = none → field l.buf 0x0B 1 = 1 →
          Does .ldrHeader s (fun r => r.ldr.state = .stage ∧ r.ldr.hdr = some (readHeader (l.buf.take 64)) ∧
            r.ldr.buf = l.buf.drop 64 ∧ r.ldr.frames = 0 ∧ r.ldr.inService = l.inService))) ∧
      (l.state = .write → l.frames < s.hdr.frameCount → 16 ≤ l.buf.length → s.frameTested = false →
        let f := readFrame (l.buf.take 4112)
        (4112 ≤ l.buf.length → s.frameHead f = none → f.wide = false → l.relocs = [] → s.stageRefused = false →
          contentBad s.hdr.reqTiles s.hdr.models f = none → (f.vtile, f.stream, f.offset) ∉ l.seen →
          Does .ldrFrame s (fun r => r.ldr.state = .write ∧ r.ldr.frames = l.frames + 1 ∧
            r.ldr.buf = l.buf.drop 4112)) ∧
        (4112 ≤ l.buf.length → s.frameHead f = none → f.stream = strCtrl → s.hdr.partialImg = false →
          (f.vtile, f.stream, f.offset) ∉ l.seen → (∀ q ∈ l.relocs, q.stream ≠ strCtrl) →
          Does .ldrFrame s (fun r => r.ldr.state = .write ∧ r.ldr.frames = l.frames + 1 ∧
            r.rd .ldrFrames = BitVec.ofNat 32 (l.frames + 1) ∧ r.ldr.buf = l.buf.drop 4112 ∧
            (∀ n < 1024, (r.tile (s.latched f.vtile)).ctrlWord n = BitVec.ofNat 32 (field l.buf (16 + 4 * n) 4)) ∧
            r.tile (s.latched f.vtile) =
              { s.tile (s.latched f.vtile) with ctrl := (r.tile (s.latched f.vtile)).ctrl } ∧
            TilesBut (s.latched f.vtile) s r ∧ Only [.ldr, .tiles, .regs] s r ∧ RegsBut [Reg.addr .ldrFrames] s r)) ∧
        (∀ code info : Nat, s.frameHead f = some (code, info) →
          Does .ldrFrame s (fun r => r.ldr.state = .failed ∧ r.ldr.cfgerr = true ∧ r.ldr.inService = false ∧
            0 < bits (r.reg (ldrPage + 0x18)) 31 16 ∧ r.mem = s.mem))) ∧
      (l.state = .write ∨ l.state = .stage → l.frames = s.hdr.frameCount → 16 ≤ l.buf.length →
        Does .ldrTrailer s (fun r => r.ldr.state = .check ∧ r.ldr.trailer = l.buf.take 16 ∧ r.ldr.buf = [] ∧
          Only [.ldr, .con, .regs] s r)) ∧
      (l.state = .stage → s.hdr.partialImg = true → l.frames < s.hdr.frameCount → 16 ≤ l.buf.length →
        let f := readFrame (l.buf.take 4112)
        let n := l.staged.length
        let at_ := l.stageBanks.getD (n / 128) 0 * 2 ^ 19 + n % 128 * 4096
        (4112 ≤ l.buf.length → s.frameHead f = none → f.wide = false → l.relocs = [] → s.stageRefused = false →
          contentBad s.hdr.reqTiles s.hdr.models f = none → (f.vtile, f.stream, f.offset) ∉ l.seen →
          Does .ldrFrame s (fun r => r.ldr.state = .stage ∧ r.ldr.frames = l.frames + 1 ∧
            r.ldr.buf = l.buf.drop 4112 ∧ r.ldr.inService = l.inService ∧
            r.ldr.staged = l.staged ++ [⟨f.vtile, f.stream, f.offset, at_⟩] ∧
            (f.stream ≠ strDest → r.mem.larder.readBytes at_ 4096 = (l.buf.drop 16).take 4096) ∧
            (∀ a : Nat, a < at_ ∨ at_ + 4096 ≤ a → r.mem.larder.read a = s.mem.larder.read a) ∧
            r.mem.ddr = s.mem.ddr ∧ TilesSame s r ∧ r.run = s.run)) ∧
        (∀ code info : Nat, s.frameHead f = some (code, info) →
          Does .ldrFrame s (fun r => r.ldr.state = .failed ∧ r.ldr.cfgerr = true ∧ r.ldr.inService = l.inService ∧
            0 < bits (r.reg (ldrPage + 0x18)) 31 16 ∧ TilesSame s r ∧ r.mem = s.mem ∧ r.run = s.run)))) ∧
  (
    ∀ (val : Word) (ue : Option Nat) (s : State), s.Canonical →
      let l := s.ldr
      let failed (r : State) : Prop := r.ldr.state = .failed ∧ r.ldr.cfgerr = true ∧
        0 < bits (r.reg (ldrPage + 0x18)) 31 16 ∧ bit (r.reg (ldrPage + 0xC)) 2 = true ∧ r.mem.ddr = s.mem.ddr ∧
        r.mem.larder = s.mem.larder
      let served (r : State) : Prop := r.ldr.state = .service ∧ r.ldr.inService = true ∧ r.ldr.done = true ∧
        r.ldr.setReset = true ∧ r.ldr.cfgerr = false ∧ bit (r.reg (ldrPage + 0xC)) 1 = true
      (s.loadTested = true → exec .ldrCheckDone s = .next s ∧ exec (.ldrCommitDone ue) s = .next s) ∧
      (l.state = .check → s.loadTested = false →
        (s.trailerOk = false → Does .ldrCheckDone s failed) ∧
        (s.trailerOk = true → s.imageCrc ≠ wordAt l.trailer 12 → Does .ldrCheckDone s failed) ∧
        (s.trailerOk = true → s.imageCrc = wordAt l.trailer 12 →
          ∀ code info : Nat, s.restBad = some (code, info) → Does .ldrCheckDone s failed) ∧
        (s.trailerOk = true → s.imageCrc = wordAt l.trailer 12 → s.restBad = none → l.relocs = [] →
          (∀ code info : Nat, s.recipeCheck = some (code, info) → Does .ldrCheckDone s failed) ∧
          (s.recipeCheck = none → s.hdr.partialImg = false →
            Does .ldrCheckDone s (fun r => served r ∧ r.ldr.image = some s.hdr ∧
              r.rd64 .ldrBuildLo .ldrBuildHi = s.hdr.build ∧ TilesSame s r ∧ r.mem = s.mem ∧ r.run = s.run)) ∧
          (s.stagedLost = true → Does .ldrCheckDone s failed) ∧
          (s.recipeCheck = none → s.hdr.partialImg = true → s.stagedLost = false →
            Does .ldrCheckDone s (fun r => r.ldr.state = .commit ∧ r.ldr.done = false ∧ r.ldr.setReset = true ∧
              r.run.state = .idle ∧ r.pins.dioDrive = 0 ∧ r.prf.cur = none)))) ∧
      (l.state = .commit → s.loadTested = false → s.stagedLost = true → Does (.ldrCommitDone ue) s failed) ∧
      (l.state = .commit → s.loadTested = false → s.stagedLost = false → s.hdr.regionFirst = 0 →
        s.hdr.reqTiles ≤ s.hdr.regionLast + 1 →
        Does (.ldrCommitDone ue) s served) ∧
      (l.state = .commit → s.loadTested = false → s.stagedLost = false → s.hdr.partialImg = true →
        s.hdr.regionFirst = 0 →
        s.hdr.regionLast = 0 →
        s.hdr.reqTiles = 1 → l.relocs = [] → l.shadowEn = false →
        Does (.ldrCommitDone ue) s (fun r => served r ∧
          r.tile (s.latched 0) = { s.candidate 0 with vtile := some 0 } ∧ TilesBut (s.latched 0) s r ∧
          r.mem.ddr = s.mem.ddr ∧ r.mem.larder = s.mem.larder)) ∧
      (l.state = .header ∨ l.state = .stage ∨ l.state = .write → (s.rd .ldrGapLimit).toNat ≠ 0 →
        (s.rd .ldrGapLimit).toNat * 1000 < l.gapNs → Does .ldrGapTimeout s failed) ∧
      (s.reachable = true → s.srst ldrPage = false → bit val 0 = true →
        l.state = .header ∨ l.state = .stage ∨ l.state = .write ∨ l.state = .check →
        Does (.ldrCmdAbort val) s (fun r => failed r ∧ (l.state = .header → r.ldr.inService = l.inService))) ∧
      (s.reachable = true → s.srst ldrPage = false → bit val 1 = true → l.state = .failed →
        Does (.ldrCmdClear val) s (fun r => r.ldr.state = (if l.kept then .service else .empty) ∧
          r.ldr.cfgerr = false ∧ r.rd .ldrDropped = 0 ∧ (l.kept = true → bit (r.reg (ldrPage + 0xC)) 1 = true) ∧
          RegsBut [Reg.addr .ldrDropped, Reg.addr .glbBootStat, rstPage + 0xC, ldrPage + 0xC] s r ∧
          (s.sup.autoload = false → Only [.ldr, .regs, .con, .host] s r))))

/-! ## Proofs and recovery (R475 to R493) -/

/-- Proof saves. A save is asked for, begins at its boundary and, once every tile's item has ended, makes the proof that
was being saved CUR and the old CUR PREV; a failed one leaves both. PRF_CTRL with EN 0 makes the run unprotected;
which reason WHY shows while several stand is assumption 34. A save that has less than 16 MiB of input log fails with
reason 2, and one that fails is due no longer (DEDUCED, assumption 35). A save that completes ends every reason but 2
without a base proof and 4 while LIVE is 1.
Mapped tiles that are to sleep are saved first, and sleep once the save has ended, if RESUMABLE still stands.
One tile to a proof slot and back, in plaintext: then-halves, word unit registers and the pantry lines whose dirty
bit is set are written to the tile's place in the slot, and read from there. -/
def Obligations.ProofSaves : Prop :=
  (
    ∀ (val : Word) (s : State), s.Canonical →
      let room : Prop := s.enc.integrityHalt = false ∧ 16 * 2 ^ 20 ≤ s.inputBytes ∧
        (∀ l ∈ s.svc.cache, l.dirty = false) ∧
        s.prf.recipeDue = false ∧ s.internalUsed + s.mapped.length ≤ 480
      let begun (r : State) : Prop := r.prf.state = .saving ∧ r.prf.mark = s.prf.undoNext ∧ r.prf.todo = [] ∧
        r.prf.target = (match s.prf.cur with | some p => 1 - p.slot | none => 0) ∧ r.prf.cur = s.prf.cur ∧
        r.prf.prev = s.prf.prev ∧ r.svc.store.length = s.svc.store.length + s.mapped.length ∧
        Only [.prf, .svc] s r
      (s.reachable = true → s.srst prfPage = false →
        (bit val 0 = true → s.prfEn = true → s.pageEn prfPage = true →
          Does (.prfCmdSave val) s (fun r => r.prf = { s.prf with saveDue := true } ∧ Only [.prf] s r)) ∧
        (bit val 31 = true → bit val 30 = false →
          Does (.prfCtrlWrite val) s (fun r => r.rd .prfCtrl = val &&& 0xC000001F ∧ Only [.regs] s r ∧
            RegsBut [Reg.addr .prfCtrl] s r)) ∧
        (bit val 31 = false → bit val 30 = false →
          Does (.prfCtrlWrite val) s (fun r => r.rd .prfCtrl = val &&& 0xC000001F ∧ 2 ∈ r.prf.unprot ∧
            (2 ∉ s.prf.unprot → r.prf.saveDue = true ∧ 0 < bits (r.reg (prfPage + 0x18)) 31 16) ∧
            r.whyUnprot = some (if 4 ∈ s.prf.unprot then 4 else 2) ∧
            Only [.regs, .prf, .con, .host] s r ∧ RegsBut (Reg.addr .prfCtrl :: errRegs prfPage) s r))) ∧
      (s.saveNeeded = true → s.run.state = .run ∨ s.run.state = .halting → s.run.inBatch = false →
        s.prf.state = .idle → s.ldr.inService = true →
        (room → Does .proofSave s begun) ∧
        (s.inputBytes < 16 * 2 ^ 20 → Does .proofSave s (fun r => r.prf.state = .idle ∧ r.prf.cur = s.prf.cur ∧
          r.prf.prev = s.prf.prev ∧ 2 ∈ r.prf.unprot ∧ r.prf.saveDue = false ∧ 0 < bits (r.reg (prfPage + 0x18)) 31 16 ∧
          r.mem = s.mem ∧ TilesSame s r))) ∧
      (s.run.state = .halted → s.run.resumable = true → bit s.run.sleepCfg 31 = true → s.prfEn = true →
        s.pageEn prfPage = true → max 1 (bits s.run.sleepCfg 15 0) * 1000000 ≤ s.run.resumableNs →
          s.prf.state = .idle → s.prf.sleeping = false →
        s.prf.restoreDue = false → s.ldr.inService = true → room →
        Does .tileSleep s (fun r => begun r ∧ r.prf.sleepAfter = true)) ∧
      (s.prf.state = .saving → s.prf.todo = [] → (∀ i ∈ s.svc.store, i.source ≠ .proofs) →
        (∀ w ∈ s.flash.writing, w.isSpare = false) →
        (s.prf.saveFail = none → s.prf.input = [] → Does .proofSaveDone s (fun r =>
          r.prf.state = .idle ∧ r.prf.cur = some ⟨s.nextBatch, s.prf.target, s.prf.mark⟩ ∧
          r.prf.prev = (if s.prf.discardOld then none else s.prf.cur) ∧ r.prf.saveDue = false ∧
          r.prf.baseDue = false ∧ bit (r.reg (prfPage + 0xC)) 1 = true ∧
          (∀ w : Nat, w ∈ r.prf.unprot ↔ w ∈ s.prf.unprot ∧
            ((w = 2 ∧ s.prf.baseDue = false) ∨ (w = 4 ∧ bit (s.rd .prfCtrl) 30 = true))) ∧
          r.mem = s.mem ∧ (s.prf.sleepAfter = false ∨ s.run.resumable = false ∨ s.prfEn = false → TilesSame s r) ∧
          (s.prf.sleepAfter = true → s.run.state = .halted → s.run.resumable = true → s.prfEn = true → ∀ t < 136,
            (s.tile t).vtile.isSome = true →
            (r.tile t).power = .sleep ∧ (r.tile t).pantry = (s.tile t).pantry))) ∧
        (∀ why : Nat, s.prf.saveFail = some why → Does .proofSaveDone s (fun r =>
          r.prf.state = .idle ∧ r.prf.cur = s.prf.cur ∧ r.prf.prev = s.prf.prev ∧ r.prf.saveDue = false ∧
          0 < bits (r.reg (prfPage + 0x18)) 31 16 ∧ TilesSame s r ∧ r.mem = s.mem)))) ∧
  (
    ∀ (eng t : Nat) (i j : SvcItem) (p : Proof) (s : State), s.Canonical → eng < 18 → s.running eng = some i →
      s.proofTile i = some t → s.prf.todo = [] → i.id < s.svc.nextId →
      let x := s.tile t
      let v := i.w1.toNat
      let place (k : Nat) : Nat := s.prfSlotAddr k v
      let item (r : State) : Prop := EngineFreed eng s r ∧ (∀ q ∈ r.svc.store, q.id ≠ i.id) ∧ TilesBut t s r
      (i.type = 0x40 → s.prf.state = .saving → s.prf.saveFail = none → s.prf.recipeDue = false →
        place s.prf.target % 64 = 0 → (∀ l ∈ x.dirtyLines s.prf.target, l < 16384) →
        s.Plain reqProof 12 (place s.prf.target) (place s.prf.target + kib 1104) false true →
        Does (.psave eng .clean) s (fun r =>
          let a := place s.prf.target
          item r ∧ r.prf.saveFail = none ∧ r.tile t = x.setDirty s.prf.target [] ∧ r.mem.larder = s.mem.larder ∧
          (∀ n < 524288, bit (r.mem.ddr.read (a + n / 8)) (n % 8) = Table.get (fun _ => false) x.thenHalf n) ∧
          (∀ n < 4096, r.mem.ddr.readNat (a + kib 64 + 4 * n) 4 = (Table.get (fun _ => 0) x.wuReg n).toNat) ∧
          (∀ l ∈ x.dirtyLines s.prf.target,
            r.mem.ddr.readBytes (a + kib 80 + 64 * l) 64 = x.pantry.readBytes (64 * l) 64) ∧
          (∀ l < 16384, l ∉ x.dirtyLines s.prf.target →
            r.mem.ddr.readBytes (a + kib 80 + 64 * l) 64 = s.mem.ddr.readBytes (a + kib 80 + 64 * l) 64) ∧
          ∀ b : Nat, b < a ∨ a + kib 1104 ≤ b → r.mem.ddr.read b = s.mem.ddr.read b)) ∧
      (i.type = 0x41 → s.prf.state = .restoring → s.prf.restoring = some p → t ∉ s.prf.newTiles →
        j ∈ s.svc.store → j.source = .proofs → j.id ≠ i.id → place p.slot % 64 = 0 →
        (∀ l ∈ x.dirtyLines p.slot, l < 16384) →
        s.Plain reqProof 12 (place p.slot) (place p.slot + kib 1104) true false →
        Does (.prestore eng .clean) s (fun r =>
          let a := place p.slot
          item r ∧ r.mem.ddr = s.mem.ddr ∧ r.prf.state = .restoring ∧ (r.tile t).ctrl = x.ctrl ∧
          (∀ n < 524288, Table.get (fun _ => false) (r.tile t).thenHalf n = bit (s.mem.ddr.read (a + n / 8)) (n % 8)) ∧
          (∀ n < 4096, (Table.get (fun _ => 0) (r.tile t).wuReg n).toNat = s.mem.ddr.readNat (a + kib 64 + 4 * n) 4) ∧
          (∀ l ∈ x.dirtyLines p.slot,
            (r.tile t).pantry.readBytes (64 * l) 64 = s.mem.ddr.readBytes (a + kib 80 + 64 * l) 64) ∧
          (∀ l < 16384, l ∉ x.dirtyLines p.slot →
            (r.tile t).pantry.readBytes (64 * l) 64 = x.pantry.readBytes (64 * l) 64))) ∧
      (i.type = 0x41 → s.prf.state = .restoring → s.prf.restoring = some p → t ∉ s.prf.newTiles →
        s.svc.store = [i] → s.svc.waitItems = [] → s.prf.undo = [] → s.prf.thenReplay = false → place p.slot % 64 = 0 →
        (∀ l ∈ x.dirtyLines p.slot, l < 16384) →
        s.Plain reqProof 12 (place p.slot) (place p.slot + kib 1104) true false →
        Does (.prestore eng .clean) s (fun r =>
          r.prf.state = .idle ∧ r.prf.cur = some p ∧ r.prf.prev = none ∧ r.run.batch = p.batch ∧
          r.run.resumable = true ∧ r.mem.ddr = s.mem.ddr ∧
          ∀ q < 136, (s.tile q).vtile.isSome = true → (r.tile q).xbatch = p.batch)))

/-- Restores and recovery. A host restore of a halted device begins with its proof, while the undo log reaches back to
it (DEDUCED, assumption 33), empties the exchange state and leaves the run state (assumption 37); a single fault of a
mapped tile begins a pause, which brings a spare in once no answer is outstanding, or stops the device without a
proof, as one whose proofs were off counts (DEDUCED, assumption 36); a clean cached line is refilled from DDR, and it
and a corrected SRAM error are counted; a pause whose answers do not come stops the device too. -/
def Obligations.RestoresAndRecovery : Prop :=
  ∀ (val : Word) (t v store bank word : Nat) (p : Proof) (line : DWord) (c : CacheLine) (s : State), s.Canonical →
    let stopped (r : State) : Prop := r.run.state = .halted ∧ r.run.resumable = false ∧ bit r.run.causes 9 = true ∧
      r.prf.state = .idle ∧ 0 < bits (r.reg (prfPage + 0x18)) 31 16 ∧ bit (r.reg (prfPage + 0xC)) 3 = true ∧
      r.mem.ddr = s.mem.ddr ∧ r.mem.larder = s.mem.larder
    let begun (r : State) : Prop := r.prf.state = .restoring ∧ r.prf.restoring = some p ∧ r.prf.thenReplay = false ∧
      r.svc.cache = [] ∧ r.svc.tokens = [] ∧ r.net.loc = [] ∧ r.run = s.run ∧ r.mem = s.mem ∧
      (∀ n < 136, (s.tile n).vtile.isSome = true →
        r.tile n = (s.tile n).emptied p.batch.toNat ∧ (r.tile n).pantry = (s.tile n).pantry ∧
        (∀ f : Nat, (r.tile n).flag f = 0)) ∧
      (∀ n < 136, (s.tile n).vtile = none → r.tile n = { s.tile n with flags := [], qCount := [] })
    let mayRestore : Prop := s.run.state = .halted ∧ s.pageEn prfPage = true ∧ s.prf.state = .idle ∧
      s.prf.undoLow ≤ p.mark ∧
      s.prf.undoFull = false
    let refused (r : State) : Prop := Only [.regs, .con, .host] s r ∧ RegsBut (errRegs prfPage) s r ∧
      0 < bits (r.reg (prfPage + 0x18)) 31 16
    (s.reachable = true → s.srst prfPage = false →
      (bit val 1 = true → s.prf.cur = some p → mayRestore → Does (.prfCmdRestore val) s begun) ∧
      (bit val 1 = true → s.prf.cur = none ∨ s.run.state ≠ .halted → Does (.prfCmdRestore val) s refused) ∧
      (bit val 2 = true → s.prf.prev = some p → mayRestore → Does (.prfCmdRestorePrev val) s begun) ∧
      (bit val 2 = true → s.prf.prev = none ∨ s.run.state ≠ .halted → Does (.prfCmdRestorePrev val) s refused)) ∧
    (t < 136 → (s.tile t).retired = false → s.vmapOf t = some v → s.run.state = .run → s.prf.state = .idle →
      s.prf.restoring = none → store < 5 → store ≠ 3 → bank < 64 → word < 2 ^ 15 →
      (s.noRecovery = none → (∃ n ∈ s.spareTiles, n ≠ t) → s.answersOut = false → s.prf.failedTiles = [] →
        Does (.recoveryPause (.tileUe t store bank word)) s (fun r => r.run.state = .recover ∧ r.run.inBatch = false ∧
          r.prf.faultBatch = s.nextBatch ∧ r.prf.redo = true ∧ r.prf.recoveries = min 0xFFFF (s.prf.recoveries + 1) ∧
          (r.tile t).retired = true ∧ (r.tile t).power = .off ∧
          (∃ n ∈ s.spareTiles, n ≠ t ∧ r.rd .glbVmap v = BitVec.ofNat 32 (2 ^ 31 + n)) ∧
          0 < bits (r.reg (tilePage t 5 + 0x18)) 31 16 ∧ r.mem.ddr = s.mem.ddr)) ∧
      (s.noRecovery = some 2 → Does (.recoveryPause (.tileCheck t 0)) s (fun r =>
        r.run.state = .halted ∧ r.run.resumable = false ∧ bit r.run.causes 9 = true ∧
        (r.tile t).retired = true ∧ (r.tile t).power = .off ∧ 0 < bits (r.reg (prfPage + 0x18)) 31 16)) ∧
      (s.noRecovery = none → (∃ n ∈ s.spareTiles, n ≠ t) → s.answersOut = true → s.prf.failedTiles = [] →
        Does (.recoveryPause (.tileUe t store bank word)) s (fun r => r.run.state = .recover ∧
          r.prf.awaiting = true ∧ r.prf.failedTiles = [t] ∧ (r.tile t).retired = false ∧
          (∀ n < 136, (r.tile n).retry = (s.tile n).retry) ∧
          0 < bits (r.reg (tilePage t 5 + 0x18)) 31 16 ∧ r.mem.ddr = s.mem.ddr))) ∧
    Does (.recoveryPause .corrected) s (fun r =>
      r.mem = { s.mem with sramCount := s.mem.sramCount + 1 } ∧ Only [.mem] s r) ∧
    (s.cached line.toNat = none → Does (.recoveryPause (.larderCleanLine line)) s (fun r => r = s)) ∧
    (s.cached line.toNat = some c → c.dirty = false → c.slot = 0 → s.cacheBanks ≠ [] →
      (s.svc.cache.filter fun d => d.line ≠ line.toNat && d.bank = s.lineBank line.toNat &&
        d.set = s.lineSet line.toNat).length < 16 →
      s.Plain reqService 9 (64 * line.toNat) (64 * line.toNat + 64) true false →
      Does (.recoveryPause (.larderCleanLine line)) s (fun r =>
        r.mem.ddr = s.mem.ddr ∧ r.mem.sramCount = s.mem.sramCount + 1 ∧ TilesSame s r ∧
        ∃ b ∈ s.cacheBanks, ∃ k < 512, r.svc.cache = s.svc.cache.filter (fun d => d.line ≠ line.toNat) ++
          [⟨line.toNat, BitVec.ofNat 512 (s.mem.ddr.readNat (64 * line.toNat) 64), false, 0, b, k⟩])) ∧
    (bank < 64 → word < 8192 → ownFailed (s.rd .memLown bank) = false → s.run.state = .idle →
      Does (.recoveryPause (.larderBank bank word)) s (fun r => bit (r.rd .memLown bank) 30 = true ∧
        (∀ d ∈ r.svc.cache, d.bank ≠ bank) ∧ 0 < bits (r.reg (lownPage + 0x18)) 31 16 ∧
        0 < bits (r.reg (prfPage + 0x18)) 31 16 ∧ TilesSame s r ∧ r.mem.ddr = s.mem.ddr)) ∧
    (s.run.state = .recover → s.prf.awaiting = true → 1000000 ≤ s.prf.pauseNs →
      Does .recoveryAnswerTimeout s (fun r => stopped r ∧ r.prf.awaiting = false ∧ r.prf.redo = false))

/-! ## Power, temperature and memory upkeep (R247 to R309) -/

/-- A ledger tick puts the budget B in force, adds B for 40 ns, takes the uncore draw and holds the level within B ×
WINDOW; a measurement of VIN sets P_IN along the efficiency curve. A changed term leaves the level as it is: it
gives the B of the next tick, and LIMITER names the least term. The 48 junction readings are kept, but of a sensor
that self-test marked invalid; a reading of 105 °C or more holds P_TH at 40 W and asserts ALERT_N, and readings all
below 103 °C end that. A period of the controller moves P_TH by KP and KI within 40 W to 400 W; that the first
period's own reading sets e_prev, and that e_prev follows the readings while P_TH is held, is DEDUCED (assumption
88). -/
def Obligations.PowerAndThermalTicks : Prop :=
  (
    ∀ (pj mv : Nat) (s : State), s.Canonical →
      let next (r : State) : Prop := r.led.level = s.led.level ∧ r.led.budgetUw = s.led.budgetUw ∧
        r.led.nextUw = r.budget.1 ∧ r.led.limiter = r.budget.2
      let eta (num den : Nat) (r : State) : Prop := r.led.pInUw = min 400000000 (4 * mv * num / den)
      Does (.ledgerTick pj) s (fun r =>
        r.led.level = min (s.led.level + (s.led.nextUw * 40 : Nat) - (pj * 1000 : Nat)) r.capacityFj ∧
        r.led.budgetUw = s.led.nextUw ∧ r.led.uncore = (pj :: s.led.uncore).take 250 ∧ Only [.led] s r) ∧
      (4500 ≤ mv → mv ≤ 20000 →
        Does (.vinMeasure mv) s (fun r => next r ∧ r.fld .pwrSupply 15 0 = mv ∧
          (mv ≤ 6000 → eta (8889 * 1500 + 161 * (mv - 4500)) 1500 r) ∧
          (6000 ≤ mv → mv ≤ 9000 → eta (9050 * 3000 + 150 * (mv - 6000)) 3000 r) ∧
          (9000 ≤ mv → mv ≤ 10800 → eta (9200 * 1800 + 60 * (mv - 9000)) 1800 r) ∧
          (10800 ≤ mv → mv ≤ 12000 → eta (9260 * 1200 + 40 * (mv - 10800)) 1200 r) ∧
          (12000 ≤ mv → eta (9300 * 8000 - 150 * (mv - 12000)) 8000 r) ∧
          RegsBut [Reg.addr .pwrSupply, pwrPage + 0xC] s r ∧ Only [.led, .regs, .host] s r)) ∧
      (4100 ≤ mv → mv < 4500 → 4500 ≤ s.fld .pwrSupply 15 0 →
        Does (.vinMeasure mv) s (fun r => next r ∧ eta 8889 1 r ∧
          0 < bits (r.reg (pwrPage + 0x18)) 31 16 ∧ Only [.led, .regs, .host, .con] s r))) ∧
  (
    ∀ (l : List Int) (tj : Int) (k : Nat) (s : State), s.Canonical →
      (l.length = 48 →
        Does (.sensorRead (l.map some)) s (fun r =>
          (∀ n < 48, r.sensor n = if n ∈ s.sup.badSensors then none else l[n]?) ∧
          (s.led.thermOver = false → s.sup.badSensors = [] → (∀ v ∈ l, v < 420) →
            r.led = { s.led with sensors := r.led.sensors } ∧
            Only [.led] s r) ∧
          (s.led.thermOver = false → s.sup.badSensors = [] → (∃ v ∈ l, 420 ≤ v) → r.led.thermOver = true ∧
            r.led.pThUw = 40000000 ∧
            bit (r.rd .glbAlert) 2 = true ∧ bit (r.reg (pwrPage + 0xC)) 2 = true ∧
            0 < bits (r.reg (pwrPage + 0x18)) 31 16 ∧ r.led.level = s.led.level ∧ r.led.nextUw = r.budget.1) ∧
          (s.led.thermOver = true → s.sup.badSensors = [] → (∀ v ∈ l, v < 412) → r.led.thermOver = false ∧
            r.led.pThUw = s.led.pThUw ∧
            bit (r.rd .glbAlert) 2 = false ∧ RegsBut [Reg.addr .glbAlert] s r) ∧
          Only [.led, .regs, .con, .host] s r)) ∧
      (s.tjMax = some (tj, k) → (∃ n < 34, (s.sensor n).isSome = true) →
        let e := s.setpoint - tj
        let kp : Int := (s.fld .pwrThCfg 15 8 : Nat)
        let ki : Int := (s.fld .pwrThCfg 7 0 : Nat)
        Does .thermalControl s (fun r => r.led.ePrev = some e ∧ r.led.level = s.led.level ∧ r.led.nextUw = r.budget.1 ∧
          (s.led.thermOver = true → r.led.pThUw = 40000000) ∧
          (s.led.thermOver = false → r.led.pThUw =
            min (max (s.led.pThUw + kp * 250000 * (e - s.led.ePrev.getD e) + ki * 15625 * e) 40000000) 400000000) ∧
          Only [.led, .regs, .host] s r)))

/-- Blocks at rest. A halted device stops its step PLL; an idle channel enters self-refresh, halted or not (assumption
43), an idle larder bank enters retention, and the patrol scrub issues its next item of 4,096 lines.
The ownership of larder and pantry banks. A write that R282 to R286 allow begins a handover: PENDING, with KIND and
INDEX as they were; one to a pending bank is dropped and recorded; at its end KIND and INDEX name the new owner, and
with CLEAR every byte of the bank reads 0. -/
def Obligations.IdleBlocksAndBanks : Prop :=
  (
    ∀ (ch bank : Nat) (s : State), s.Canonical →
      (s.isHalted = true → s.fld .pwrIdle 15 0 ≠ 0 → s.fld .pwrIdle 15 0 * 1000 ≤ s.run.haltedNs →
        s.sup.stepPllOn = true →
        Does .sclkIdleStop s (fun r => r.sup = { s.sup with stepPllOn := false } ∧ Only [.sup] s r)) ∧
      (ch < 8 → s.fld .pwrIdle 31 16 ≠ 0 →
        s.fld .pwrIdle 31 16 * 1000000 ≤ Table.get (fun _ => 0) s.mem.chIdleNs ch → bit (s.rd .memChCfg ch) 31 = true →
        ch ∉ s.mem.selfRefresh →
        Does (.ddrIdleSelfRefresh ch) s (fun r =>
          r.mem = { s.mem with selfRefresh := s.mem.selfRefresh ++ [ch] } ∧ Only [.mem] s r)) ∧
      (bank < 64 → bits (s.rd .memLown bank) 11 8 ≠ 0 → s.fld .memRetCfg 15 0 ≠ 0 →
        s.fld .memRetCfg 15 0 * 1000 ≤ Table.get (fun _ => 0) s.mem.larderIdleNs bank →
        Does (.larderRetain bank) s (fun r => bit (r.rd .memLown bank) 29 = true ∧
          r.rd .memLown bank &&& 0xDFFFFFFF = s.rd .memLown bank &&& 0xDFFFFFFF ∧
          RegsBut [Reg.addr .memLown bank] s r ∧ Only [.regs] s r)) ∧
      (s.reachable = true → bit (s.rd .memScrub) 31 = true → s.pageEn (chanPage 0) = true → s.ddrLines ≠ 0 →
        s.scrubDue = true → s.internalUsed < 480 →
        Does .scrubIssue s (fun r => r.svc.store.length = s.svc.store.length + 1 ∧ s.svc.nextId ∈ r.svc.ready ∧
          (∃ i ∈ r.svc.store, i.id = s.svc.nextId ∧ i.type = 0x50 ∧ i.source = .memory ∧
            i.w1 = BitVec.ofNat 64 (64 * s.mem.scrubNext) ∧ i.tok0 = 4096) ∧
          r.mem.scrubNext = (if s.ddrLines ≤ s.mem.scrubNext + 4096 then 0 else s.mem.scrubNext + 4096) ∧
          r.mem.ddr = s.mem.ddr ∧ r.mem.larder = s.mem.larder ∧ Only [.svc, .mem] s r))) ∧
  (
    ∀ (larder : Bool) (t b : Nat) (val : Word) (h : Handover) (s : State), s.Canonical →
      (if larder then b < 64 else t < 136 ∧ b < 16) →
      let page := ownPage larder t
      let w := s.own larder t b
      let kind := bits val 11 8
      let addr := if larder then Reg.addr .memLown b else Reg.addr .tilPanOwn t b
      (s.reachable = true → s.srst page = false → (larder = false → (s.tile t).power = .on) →
        (ownPending w = false → (bits w 11 8 = 2 → s.loading = false) → (bits w 11 8 = 5 → s.acqArmed = false) →
          (larder = false → bits w 11 8 = 1 ∨ kind = 1 → s.run.state ≠ .run) →
          s.ownerOk larder b kind (bits val 7 0) = true → ownFailed w = false →
          Does (.ownHandover larder t b val) s (fun r =>
            bit (r.own larder t b) 31 = true ∧ bit (r.own larder t b) 16 = bit val 16 ∧
            bits (r.own larder t b) 11 0 = bits w 11 0 ∧
            r.mem = { s.mem with handovers := s.mem.handovers ++
              [⟨larder, if larder then 0 else t, b, kind, bits val 7 0, bit val 16⟩] } ∧
            RegsBut [addr] s r ∧ Only [.regs, .mem] s r)) ∧
        (ownPending w = true →
          Does (.ownHandover larder t b val) s (fun r => r.own larder t b = w ∧
            0 < bits (r.reg (page + 0x18)) 31 16 ∧ RegsBut (errRegs page) s r ∧ Only [.regs, .con, .host] s r))) ∧
      (s.mem.handovers = [h] → s.mem.waiting = [] → h.of larder t b = true → h.kind < 16 → h.index < 256 →
        s.svc.cache = [] → (larder = false → h.ptile = t) →
        Does (.handoverComplete larder t b) s (fun r =>
          bit (r.own larder t b) 31 = false ∧ bits (r.own larder t b) 11 8 = h.kind ∧
          bits (r.own larder t b) 7 0 = h.index ∧ bit (r.reg (page + 0xC)) 1 = true ∧ r.mem.handovers = [] ∧
          r.mem.ddr = s.mem.ddr ∧
          (∀ a : Nat, r.mem.larder.read a =
            if larder = true ∧ h.clear = true ∧ a / 524288 = b then 0 else s.mem.larder.read a) ∧
          (∀ n a : Nat, (r.tile n).pantry.read a =
            if larder = false ∧ n = t ∧ h.clear = true ∧ a / 65536 = b then 0 else (s.tile n).pantry.read a) ∧
          Only [.regs, .mem, .tiles, .host] s r)))

/-! ## The encryption engine (R310 to R341) -/

/-- Commands on the key store: LOAD puts the two halves of ENC_KEY_DATA into a slot, or the tag key into slot 0, equal
halves are refused, INVALIDATE empties the slot, a slot in use by a key change takes no command; the key data are
zeroed by every command.
Regions, the carve-out and the background engine. A region's control word is taken, a rising INTEGRITY starts a
seal and needs the tag key and the carve-out; CARVE changes the usable DDR; START begins a key change that RELEASE
ends once it is done, and each line passes from the old key to the new, or gets its tag. -/
def Obligations.KeysAndRegions : Prop :=
  (
    ∀ (val : Word) (s : State), s.Canonical → s.reachable = true → s.srst (encPage + 0x1000) = false →
      let n := bits val 5 0
      let k1 : BitVec 256 := s.enc.keyData.setWidth 256
      let k2 : BitVec 256 := s.enc.keyData.extractLsb' 256 256
      let others (r : State) : Prop := (∀ m : Nat, m ≠ n → r.slotKey m = s.slotKey m) ∧ r.enc.keyData = 0
      let refused (r : State) : Prop := r.enc = { s.enc with keyData := 0 } ∧ RegsBut (errRegs encPage) s r ∧
        0 < bits (r.reg (encPage + 0x18)) 31 16 ∧ Only [.enc, .regs, .con, .host] s r
      (bits val 9 8 = 1 → s.keyBusy n = false →
        (n ≠ 0 → k1 ≠ k2 → Does (.encKeyLoad val) s (fun r => r.slotKey n = some ⟨k1, k2⟩ ∧ others r ∧
          r.enc.kt = s.enc.kt ∧ Only [.enc] s r)) ∧
        (n ≠ 0 → k1 = k2 → Does (.encKeyLoad val) s refused) ∧
        (n = 0 → Does (.encKeyLoad val) s (fun r => r.enc.kt = some k1 ∧ r.enc.slots = s.enc.slots ∧
          r.enc.keyData = 0 ∧ bit (r.rd .encStat) 30 = true ∧ RegsBut [Reg.addr .encStat] s r ∧
          Only [.enc, .regs] s r))) ∧
      (bits val 9 8 = 2 → s.keyBusy n = false →
        (n ≠ 0 → Does (.encKeyInvalidate val) s (fun r => r.slotKey n = none ∧ others r ∧ r.enc.kt = s.enc.kt ∧
          Only [.enc] s r)) ∧
        (n = 0 → Does (.encKeyInvalidate val) s (fun r => r.enc.kt = none ∧ r.enc.slots = s.enc.slots ∧
          r.enc.keyData = 0 ∧ bit (r.rd .encStat) 30 = false ∧ RegsBut [Reg.addr .encStat] s r ∧
          Only [.enc, .regs] s r))) ∧
      (bits val 9 8 = 1 → s.keyBusy n = true → Does (.encKeyLoad val) s refused) ∧
      (bits val 9 8 = 2 → s.keyBusy n = true → Does (.encKeyInvalidate val) s refused) ∧
      (bits val 9 8 = 0 ∨ bits val 9 8 = 3 →
        Does (.encKeyNoOp val) s (fun r => r.enc = { s.enc with keyData := 0 } ∧ Only [.enc] s r))) ∧
  (
    ∀ (g : Nat) (val : Word) (key : KeySlot) (kt : BitVec 256) (s : State), s.Canonical →
      let old := s.rd .encRgnCtrl g
      let base := s.fld .encRgnBase 21 0 g
      let limit := s.fld .encRgnLimit 21 0 g
      let inside : Prop := base ≤ limit ∧ limit * 2 ^ 20 < s.ddrCap
      let recorded (r : State) : Prop := RegsBut (errRegs encPage) s r ∧ Only [.regs, .con, .host] s r ∧
        0 < bits (r.reg (encPage + 0x18)) 31 16
      (s.reachable = true → s.srst (encPage + 0x2000) = false → g < 32 →
        (inside → rgnInteg val = false → s.enc.bg = .idle →
          Does (.encRgnCtrlWrite g val) s (fun r => r.rd .encRgnCtrl g = val &&& 0xC000FFFF ∧ Only [.regs] s r ∧
            RegsBut [Reg.addr .encRgnCtrl g] s r)) ∧
        (inside → rgnInteg val = true → rgnInteg old = false → bit (s.rd .encCarve) 31 = true → s.enc.kt.isSome = true →
          s.enc.bg = .idle → limit < 2 ^ 22 →
          Does (.encRgnCtrlWrite g val) s (fun r => r.rd .encRgnCtrl g = val &&& 0xC000FFFF ∧ r.enc.bg = .seal ∧
            r.enc.bgRegion = g ∧ r.enc.bound.toNat = base * 2 ^ 20 ∧ r.enc.bgEnd.toNat = (limit + 1) * 2 ^ 20 ∧
            RegsBut [Reg.addr .encRgnCtrl g] s r ∧ Only [.regs, .enc] s r)) ∧
        (rgnInteg val = true → rgnInteg old = false → s.enc.kt = none →
          Does (.encRgnCtrlWrite g val) s recorded) ∧
        (¬inside → rgnEn val = true → rgnEn old = false → Does (.encRgnCtrlWrite g val) s recorded)) ∧
      (s.reachable = true → s.srst encPage = false →
        (bit val 31 = bit (s.rd .encCarve) 31 → Does (.encCarveWrite val) s (fun r => r = s)) ∧
        (bit val 31 ≠ bit (s.rd .encCarve) 31 → (∀ n < 32, rgnInteg (s.rd .encRgnCtrl n) = false) →
          s.ldr.inService = false → s.enc.bg = .idle →
          Does (.encCarveWrite val) s (fun r => bit (r.rd .encCarve) 31 = bit val 31 ∧
            (r.rd .memCapUse).toNat = (if bit val 31 then s.fld .memCapInst 11 0 * 1024 * 7 / 8
              else s.fld .memCapInst 11 0 * 1024) ∧
            RegsBut [Reg.addr .encCarve, Reg.addr .memCapUse] s r ∧ Only [.regs] s r)) ∧
        (bit val 31 ≠ bit (s.rd .encCarve) 31 → s.ldr.inService = true →
          Does (.encCarveWrite val) s recorded)) ∧
      (s.reachable = true → s.srst (encPage + 0x3000) = false →
        let first := s.fld .encBgFirst 21 0
        let last := s.fld .encBgLast 21 0
        let from_ := s.fld .encBgSlots 5 0
        let to_ := s.fld .encBgSlots 13 8
        (bit val 0 = true → s.enc.bg = .idle → from_ ≠ to_ → s.slotValid from_ = true → s.slotValid to_ = true →
          first ≤ last → (last + 1) * 2 ^ 20 ≤ s.ddrCap →
          Does (.encBgStart val) s (fun r => r.enc.bg = .rekey ∧ r.enc.bgOld = from_ ∧ r.enc.bgNew = to_ ∧
            r.enc.bound.toNat = first * 2 ^ 20 ∧ r.enc.bgFirst = r.enc.bound ∧
            r.enc.bgEnd.toNat = (last + 1) * 2 ^ 20 ∧ r.slotLocked from_ = true ∧ r.slotLocked to_ = true ∧
            Only [.enc] s r)) ∧
        (bit val 0 = true → s.enc.bg ≠ .idle ∨ from_ = to_ → Does (.encBgStart val) s recorded) ∧
        (bit val 1 = true → s.enc.bg = .done →
          Does (.encBgRelease val) s (fun r => r.enc = { s.enc with bg := .idle } ∧ Only [.enc] s r)) ∧
        (bit val 1 = true → s.enc.bg ≠ .done → Does (.encBgRelease val) s (fun r => r = s))) ∧
      (s.bgPaused = false → s.enc.bound.toNat + 64 < 2 ^ 64 →
        let a := s.enc.bound.toNat
        let channel : Prop := s.pageEn (chanPage (s.ddrChannel a)) = true
        let moved (ended : BgState) (r : State) : Prop := r.enc.bound.toNat = a + 64 ∧
          (a + 64 < s.enc.bgEnd.toNat → r.enc.bg = s.enc.bg) ∧
          (s.enc.bgEnd.toNat ≤ a + 64 → r.enc.bg = ended ∧ bit (r.reg (encPage + 0x300C)) 1 = true) ∧
          TilesSame s r ∧ Only [.regs, .enc, .mem, .host, .con] s r
        (s.enc.bg = .seal → channel → s.enc.kt = some kt → s.enc.bgRegion < 32 →
          Does (.bgLine .clean) s (fun r => moved .idle r ∧ r.mem.larder = s.mem.larder ∧
            DdrStored (s.tagAddr a) (gmacTag kt (a / 64) (s.rawLine a)) s r ∧
            (s.enc.bgEnd.toNat ≤ a + 64 → bit (r.rd .encRgnCtrl s.enc.bgRegion) 29 = true))) ∧
        (s.enc.bg = .rekey → channel → s.enc.bgOld = 0 → s.slotKey s.enc.bgNew = some key → s.enc.bgNew ≠ 0 →
          a % 64 = 0 →
          s.integ a = false →
          Does (.bgLine .clean) s (fun r => moved .done r ∧ r.mem.larder = s.mem.larder ∧
            DdrStored a (xtsEnc key.k1 key.k2 (a / 64) (s.rawLine a)) s r)) ∧
        (s.enc.bg = .rekey → Does (.bgLine .failed) s (fun r => moved .done r ∧ r.mem.ddr = s.mem.ddr ∧
          0 < bits (r.reg (encPage + 0x3018)) 31 16 ∧
          0 < bits (r.reg (chanPage (s.ddrChannel a) + 0x18)) 31 16))))

/-! ## Links and the packet network (R342 to R384) -/

/-- Training. LNK_CFG starts it from OFF and takes a port down, the state goes PLL, DETECT, LOCK, EQ, ORDER, INIT,
ACTIVE as each condition comes about, a state past its limit costs an attempt, and a cell whose CRC fails is a lane
error. A half in DRAIN holds its port in OFF, and the requests of a TRAIN cell move the taps in the order PRE, MAIN,
POST (assumption 50). With neither REFCLK100 nor a crystal, the frequency difference is a free value (assumption 1): a
port in LOCK stays there, with no lane in phase lock, while it is beyond the 1,000 ppm that the receivers follow (R541),
and goes to EQ otherwise. A FAILED half goes to OFF as MODE is written 0. -/
def Obligations.LinksTrain : Prop :=
  ∀ (lp p lane skew n : Nat) (val : Word) (lanes ph inv : BitVec 9) (c : QWord) (order : List Nat) (s : State),
    s.Canonical → lp < 16 → p = lp % 8 → lane < 9 →
    let x := s.port lp
    let page := portPage p 0
    let rest (r : State) : Prop := ∀ q : Nat, q ≠ lp → r.port q = s.port q
    let up (st : LinkState) (r : State) : Prop := (r.port lp).state = st ∧ rest r
    (s.reachable = true → s.srst page = false → lp < 8 →
      (s.linkMode p = 0 → bits val 1 0 = 1 → s.pageEn page = true → x.state = .off →
        (s.port (p + 8)).state = .off →
        Does (.lnkCfgWrite p val) s (fun r => up .pll r ∧ (r.port lp).attempts = 0 ∧ r.fld .lnkStat 31 28 p = 1 ∧
          r.rd .lnkCfg p = val &&& 0xFFF0003F ∧ Only [.regs, .ports] s r)) ∧
      (s.linkMode p = 0 → bits val 1 0 = 0 → x.state = .failed → (s.port (p + 8)).state ≠ .failed →
        Does (.lnkCfgWrite p val) s (fun r => up .off r ∧ r.rd .lnkCfg p = val &&& 0xFFF0003F)) ∧
      (s.linkMode p = 0 → bits val 1 0 = 0 → x.state ≠ .failed → (s.port (p + 8)).state ≠ .failed →
        Does (.lnkCfgWrite p val) s (fun r => r.rd .lnkCfg p = val &&& 0xFFF0003F ∧
          RegsBut [Reg.addr .lnkCfg p, Reg.addr .lnkStat p] s r ∧ Only [.regs] s r)) ∧
      (s.linkMode p ≠ 0 → bits val 1 0 = 1 ∨ bits val 1 0 = 2 →
        Does (.lnkCfgWrite p val) s (fun r => 0 < bits (r.reg (page + 0x18)) 31 16 ∧ RegsBut (errRegs page) s r ∧
          Only [.regs, .con, .host] s r)) ∧
      (s.linkMode p ≠ 0 → bits val 1 0 = 0 → x.state = .active → (s.port (lp + 8)).state = .off →
        Does (.lnkCfgWrite p val) s (fun r => r.fld .lnkCfg 1 0 p = 0 ∧ 0 < bits (r.reg (page + 0x18)) 31 16 ∧
          (x.retryBuf = [] → up .off r) ∧ (x.retryBuf ≠ [] → up .drain r ∧ (r.port lp).retryBuf = x.retryBuf)))) ∧
    (lp < 8 → x.state = .pll → (s.port (lp + 8)).state ≠ .pll →
      Does (.lnkPllLock p) s (fun r => up .detect r ∧ (r.port lp).lanes = 0 ∧ Only [.regs, .ports, .net] s r)) ∧
    (x.state = .detect → s.lanesSuffice lp lanes = true →
      Does (.lnkSignalDetect lp lanes) s (fun r => r.port lp = { x with state := .lock, ns := 0 } ∧
        ((s.port (otherHalf lp)).state ≠ .detect → rest r) ∧
        RegsBut [Reg.addr .lnkStat p] s r ∧ Only [.regs, .ports, .net] s r)) ∧
    (x.state = .lock → s.lanesSuffice lp lanes = true → s.testFailed p = 0 → s.tim.ref = true ∨ s.sup.xtal = true →
      Does (.lnkLaneLock lp ⟨lanes, ph⟩ inv) s (fun r => (r.port lp).state = .eq ∧
        (r.port lp).lanes = s.trainLanes lp lanes ∧
        (∀ k : Nat, (r.port lp).lost = some k → k ∈ s.dataLanes lp ∧ bit lanes k = false) ∧
        ((r.port lp).lost = none → rest r) ∧ Only [.regs, .ports, .flash, .sup, .net] s r)) ∧
    (s.trainLimit lp = some n → n ≤ x.ns →
      let tries := x.attempts + 1
      let lim := s.fld .lnkCfg 31 28 p
      Does (.lnkTrainTimeout lp) s (fun r => (r.port lp).attempts = tries ∧ rest r ∧
        (lim = 0 ∨ tries < lim → (r.port lp).state = .detect ∧ Only [.regs, .ports, .net] s r) ∧
        (lim ≠ 0 → lim ≤ tries → (r.port lp).state = .failed ∧ 0 < bits (r.reg (page + 0x18)) 31 16))) ∧
    (cellOk c = false →
      (x.receives = true → Does (.trainCell lp lane c order skew) s (fun r =>
        (r.rd .lnkLaneErr p lane).toNat = min 0xFFFFFFFF ((s.rd .lnkLaneErr p lane).toNat + 1) ∧
        r.port lp = { x with errs := (lane, 1, 0) :: x.errs } ∧ rest r ∧
        RegsBut [Reg.addr .lnkLaneErr p lane] s r ∧ Only [.regs, .ports] s r)) ∧
      (x.receives = false → Does (.trainCell lp lane c order skew) s (fun r => r = s))) ∧
    (cellOk c = true →
      (x.state = .eq → bits c 98 95 < 9 → bits c 94 88 ≠ 0 → bit c 88 = false →
        Table.get (fun _ => 0) x.txStatus (bits c 98 95) = 0 →
        Does (.trainCell lp lane c order skew) s (fun r => rest r ∧ r.taps p (bits c 98 95) =
          (tapSteps (s.taps p (bits c 98 95)) (bits c 94 93) (bits c 92 91) (bits c 90 89)).1)) ∧
      (x.state = .order → (∀ k < 9, order[k]? = some k) → skew ≤ 512 →
        Does (.trainCell lp lane c order skew) s (fun r => up .init r ∧ (r.port lp).reversed = false ∧
          ((s.port (otherHalf lp)).markerDeskew = false → r.fld .lnkStat 16 16 p = 0) ∧
          Only [.regs, .ports, .net] s r)) ∧
      (x.state = .init → bits c 111 108 = 6 → 0 < x.initSeen → c &&& initMask = x.lastInit &&& initMask →
        bits c 107 106 = s.linkMode p → bits c 105 104 = s.fld .lnkCfg 5 4 p → bits c 102 99 = 15 →
        x.lost = none →
        Does (.trainCell lp lane c order skew) s (fun r => up .active r ∧ (r.port lp).txSeq = 0 ∧
          (r.port lp).rxSeq = 0 ∧ (r.port lp).retryBuf = [] ∧ bit (r.reg (page + 0xC)) 1 = true ∧
          bit (r.rd (peerReg lp) p) 31 = true ∧ bits (r.rd (peerReg lp) p) 7 0 = bits c 127 120))) ∧
    (x.state = .lock → s.lanesSuffice lp lanes = true → s.testFailed p = 0 → s.tim.ref = false → s.sup.xtal = false →
      Does (.lnkLaneLock lp ⟨lanes, ph⟩ inv) s (fun r =>
        (1000 < bits s.free.1 15 0 → Only [.regs, .free] s r ∧
          ∀ k ∈ s.dataLanes lp, bits (r.rd .lnkLane p k) 31 30 = 0) ∧
        (bits s.free.1 15 0 ≤ 1000 → (r.port lp).state = .eq ∧ (r.port lp).lanes = s.trainLanes lp lanes ∧
          Only [.regs, .ports, .flash, .sup, .net, .free] s r)))

/-- The link layer. A good link packet in sequence reaches the quadrant, a bad one is counted and answered by a NAK; an
ACK cell frees the retry buffer up to the packet it names and gives credit; an ACK cell is sent when it is due; an
unacknowledged packet past ACK_US is sent again with all after it, and after 32 times the port goes down.
Lane sparing. A lane that trips asks the far end for lane 8 and the port swaps, or fails when lane 8 is taken; the
far end answers; the swap ends with the lane moved and a NAK, or after 2 ms in FAILED. Comma lock lost on a port
takes it back to DETECT, empties the retry buffer and answers UNREACHABLE (DEDUCED, assumption 51). Lane 8 is taken
from a half that only trains it. -/
def Obligations.LinkLayerAndSparing : Prop :=
  (
    ∀ (lp lane : Nat) (k : LinkPacket) (f1 f2 : QWord) (fs : List QWord) (cell : QWord) (u : Unacked)
      (l1 l2 : List Unacked) (s : State), s.Canonical → lp < 16 → lane < 9 →
      let x := s.port lp
      let p := lp % 8
      let rest (r : State) : Prop := ∀ q : Nat, q ≠ lp → r.port q = s.port q
      (x.up = true → k.good = true → k.seq = x.rxSeq → k.flits = f1 :: f2 :: fs →
        Does (.linkPacketReceive lp k) s (fun r =>
          r.port lp = { x with rxSeq := x.rxSeq + 1, rxAny := true, sinceAck := x.sinceAck + 1 } ∧ rest r ∧
          (k.vn = 0 → r.net = { s.net with
            quad := s.net.quad ++ [⟨some lp, readPacket f1 f2 ((fs.headD 0).setWidth 64)⟩] }) ∧
          (k.vn = 1 → r.net = { s.net with quadAns := s.net.quadAns ++ [⟨some lp, readAnswer f1 f2⟩] }) ∧
          Only [.ports, .net] s r)) ∧
      (x.up = true → k.good = false → x.nakFor ≠ some x.rxSeq →
        Does (.linkPacketReceive lp k) s (fun r =>
          r.net = { s.net with linkTx := s.net.linkTx ++ [(lp, 4, x.ackCell true)] } ∧
          r.port lp = { x with nakFor := some x.rxSeq, nakNs := 0, sinceAck := 0, sendNs := 0 } ∧ rest r ∧
          r.fld (cntReg lp) 15 0 p = min 0xFFFF (s.fld (cntReg lp) 15 0 p + 1) ∧ Only [.ports, .net, .regs] s r)) ∧
      (cellOk cell = true → x.up = true → x.state ≠ .drain → bit cell 115 = true → bit cell 114 = false →
        x.retryBuf = l1 ++ u :: l2 → u.pkt.seq.toNat = bits cell 127 116 → (∀ v ∈ l1, v.pkt.seq ≠ u.pkt.seq) →
        Does (.ackCell lp lane cell) s (fun r => r.port lp = { x with
            retryBuf := l2, ackNs := 0, freedExch := bits cell 101 90, freedAns := bits cell 89 78 } ∧
          rest r ∧ Only [.ports] s r)) ∧
      (cellOk cell = false → x.receives = true → Does (.ackCell lp lane cell) s (fun r =>
        (r.rd .lnkLaneErr p lane).toNat = min 0xFFFFFFFF ((s.rd .lnkLaneErr p lane).toNat + 1) ∧ rest r ∧
        r.port lp = { x with errs := (lane, 1, 0) :: x.errs } ∧ Only [.regs, .ports] s r)) ∧
      (x.up = true → 1000 ≤ x.sendNs ∨ 64 ≤ x.sinceAck →
        Does (.ackSend lp) s (fun r => r.net = { s.net with linkTx := s.net.linkTx ++ [(lp, 4, x.ackCell false)] } ∧
          r.port lp = { x with sinceAck := 0, sendNs := 0 } ∧ rest r ∧ Only [.ports, .net] s r)) ∧
      (x.state = .active ∨ x.state = .drain → x.retryBuf = u :: l2 → s.ackLimit lp ≤ x.ackNs →
        ((∀ v ∈ x.retryBuf, v.sends < 32) →
          Does (.ackTimeout lp) s (fun r => r.port lp = { x with
              ackNs := 0, retryBuf := x.retryBuf.map fun v => { v with sends := v.sends + 1 } } ∧ rest r ∧
            r.net.linkTx = s.net.linkTx ++ x.retryBuf.flatMap (fun v =>
              (lp, 2, v.pkt.head) :: v.pkt.flits.map fun f => (lp, 3, f)) ∧
            r.fld (cntReg lp) 31 16 p = min 0xFFFF (s.fld (cntReg lp) 31 16 p + x.retryBuf.length) ∧
            Only [.ports, .net, .regs] s r)) ∧
        (32 ≤ u.sends → Does (.ackTimeout lp) s (fun r => (r.port lp).state = .failed ∧ (r.port lp).retryBuf = [] ∧
          rest r ∧ 0 < bits (r.reg (portPage p 0 + 0x18)) 31 16 ∧
          bit (r.reg (portPage p 0 + 0xC)) 2 = true)))) ∧
  (
    ∀ (p lp lane errors : Nat) (cdr comma : Bool) (cell : QWord) (s : State), s.Canonical → p < 8 → lane < 9 →
      lp < 16 → p = lp % 8 →
      let x := s.port lp
      let half := lp / 8
      let page := portPage p 0
      let rest (r : State) : Prop := ∀ q : Nat, q ≠ lp → r.port q = s.port q
      let restTaken (r : State) : Prop := (∀ q : Nat, q ≠ lp → q ≠ otherHalf lp → r.port q = s.port q) ∧
        r.port (otherHalf lp) = { s.port (otherHalf lp) with
          lanes := (s.port (otherHalf lp)).lanes &&& 0xFF
          ready := (s.port (otherHalf lp)).ready &&& 0xFF
          farReady := (s.port (otherHalf lp)).farReady &&& 0xFF }
      let free : Prop := bit (s.rd .lnkSpare p) 31 = false ∧ s.spareTaken lp = false
      let down (r : State) : Prop := 0 < bits (r.reg (page + 0x18)) 31 16 ∧ bit (r.reg (page + 0xC)) 2 = true ∧
        (r.port lp).retryBuf = []
      (lp = s.laneOwner p lane → x.state = .active →
        (s.carriesLane lp lane = true →
          (free → cdr = true ∨ comma = true → Does (.laneTrip p lane ⟨cdr, comma, errors⟩) s (fun r =>
            (r.port lp).state = .swap ∧ (r.port lp).swapDetected = true ∧
            (r.port lp).swapLane = s.recvLogical lp lane ∧ (r.port lp).swapAcked = false ∧ restTaken r ∧
            r.net.linkTx = s.net.linkTx ++
              [(lp, 6, mkCell (2 ^ 95 + half * 2 ^ 94 + s.recvLogical lp lane * 2 ^ 90))])) ∧
          (bit (s.rd .lnkSpare p) 31 = true → cdr = true ∨ comma = true →
            Does (.laneTrip p lane ⟨cdr, comma, errors⟩) s (fun r =>
            (r.port lp).state = .failed ∧ down r ∧ rest r))) ∧
        (s.fld .lnkTimers 7 0 p = 0 → Does (.laneTrip p lane ⟨false, false, errors⟩) s (fun r =>
          (r.rd .lnkLaneErr p lane).toNat = min 0xFFFFFFFF ((s.rd .lnkLaneErr p lane).toNat + errors) ∧
          (r.port lp).state = .active ∧ rest r ∧
          RegsBut [Reg.addr .lnkLaneErr p lane] s r ∧ Only [.regs, .ports] s r))) ∧
      (cellOk cell = true →
        (bit cell 127 = true → x.state = .active → free →
          Does (.spareCell lp lane cell) s (fun r => (r.port lp).state = .swap ∧ (r.port lp).swapDetected = false ∧
            (r.port lp).swapLane = bits cell 125 122 ∧ restTaken r ∧ r.net.linkTx = s.net.linkTx ++
              [(lp, 6, mkCell (half * 2 ^ 94 + bits cell 125 122 * 2 ^ 90))])) ∧
        (bit cell 127 = false → x.state = .swap → bits cell 125 122 = x.swapLane →
          Does (.spareCell lp lane cell) s (fun r => r.port lp = { x with swapAcked := true } ∧ rest r ∧
            Only [.ports] s r))) ∧
      (x.state = .swap → x.swapAcked = true ∨ x.swapDetected = false → bit x.ready 8 = true → bit x.farReady 8 = true →
        s.spareLocked lp = true → x.swapSkew ≤ 65536 → x.swapNak = none → x.swapLane < 8 →
        Does (.swapDone lp) s (fun r => (r.port lp).state = .active ∧ (r.port lp).nakFor = some x.rxSeq ∧ restTaken r ∧
          (r.port lp).retryBuf = x.retryBuf ∧
          r.rd .lnkSpare p = BitVec.ofNat 32 (2 ^ 31 + half * 2 ^ 30 + x.swapLane) ∧
          r.net = { s.net with linkTx := s.net.linkTx ++ [(lp, 4, x.ackCell true)] } ∧
          bit (r.reg (page + 0xC)) 3 = true ∧ 0 < bits (r.reg (page + 0x18)) 31 16)) ∧
      (x.state = .swap → 2000000 < x.ns →
        Does (.swapTimeout lp) s (fun r => (r.port lp).state = .failed ∧ down r ∧ rest r)) ∧
      (x.state = .active →
        Does (.commaLockLost lp) s (fun r => (r.port lp).state = .detect ∧ (r.port lp).lanes = 0 ∧ down r ∧ rest r)))

/-- The hub quadrants. A packet at the end of its hops at its device is delivered, one with hops left goes through its
exit when that is ACTIVE and has credit, one without a port is recorded and answered UNREACHABLE; answers go back the
same way. A quadrant under self-test forwards nothing. The route table is written outside RUN; R379 lists IDLE, HALTING
and HALTED, and a write in RECOVER is taken too (DEDUCED, assumption 52). -/
def Obligations.HubQuadrants : Prop :=
  ∀ (e i lp : Nat) (hi : Bool) (val : Word) (q : QuadItem) (a : QuadAnswer) (s : State), s.Canonical →
    let p := q.pkt
    let p1 := q.pkt.arriveBy i
    let freed (r : State) (n : Nat) : Prop := (r.port i).rxFreedExch = (s.port i).rxFreedExch + n
    let errs (r : State) : Prop := 0 < bits (r.reg (nocPage + 0x18)) 31 16
    (s.net.quad = [q] → q.arrived = some i → s.underTest 162 = false →
      (p.hopAt 0 < 4 → p.next = p.count → p.dstDev = s.devId →
        Does .quadrantForward s (fun r => r.net = { s.net with quad := [], arrivals := s.net.arrivals ++ [p1] } ∧
          freed r (1 + p.flits.length) ∧ Only [.net, .ports] s r)) ∧
      (p.hopAt 0 < 4 → p.next ≠ p.count → p.exit = lp → (s.port lp).state = .active →
        s.mayEnter (some i) lp (1 + p.flits.length) false = true →
        Does .quadrantForward s (fun r => r.net.quad = [] ∧ r.net.arrivals = s.net.arrivals ∧
          (r.port lp).txSeq = (s.port lp).txSeq + 1 ∧
          (∃ u : Unacked, (r.port lp).retryBuf = (s.port lp).retryBuf ++ [u] ∧ u.sends = 1 ∧ u.pkt.good = true ∧
            u.pkt.vn = 0 ∧ u.pkt.seq = (s.port lp).txSeq ∧ u.pkt.flits = { p1 with next := p.next + 1 }.flits) ∧
          (r.rd .nocFwd).toNat = min 0xFFFFFFFF ((s.rd .nocFwd).toNat + 1) ∧ Only [.net, .ports, .regs] s r)) ∧
      (4 ≤ p.hopAt 0 ∨ (p.next = p.count ∧ p.dstDev ≠ s.devId) →
        Does .quadrantForward s (fun r => errs r ∧ r.net = { s.net with
          quad := [], quadAns := s.net.quadAns ++ [⟨none, answerTo p1 s.devId .unreachable 0⟩] })) ∧
      (p.hopAt 0 < 4 → p.next ≠ p.count → p.exit = lp → (s.port lp).state = .off →
        Does .quadrantForward s (fun r => errs r ∧ r.net = { s.net with
          quad := [], quadAns := s.net.quadAns ++ [⟨none, answerTo p1 s.devId .unreachable 0⟩] }))) ∧
    (s.net.quadAns = [a] → a.arrived = some i → s.underTest 162 = false →
      (a.ans.rcount = 0 →
        Does .answerForward s (fun r => r.net = { s.net with quadAns := [], answers := s.net.answers ++ [a.ans] } ∧
          (r.port i).rxFreedAns = (s.port i).rxFreedAns + 3 ∧ Only [.net, .ports] s r)) ∧
      (a.ans.rcount ≠ 0 → a.ans.retAt (a.ans.rcount - 1) = lp → (s.port lp).state = .active →
        s.mayEnter (some i) lp 3 true = true →
        Does .answerForward s (fun r => r.net.quadAns = [] ∧ r.net.answers = s.net.answers ∧
          (∃ u : Unacked, (r.port lp).retryBuf = (s.port lp).retryBuf ++ [u] ∧ u.pkt.vn = 1 ∧ u.pkt.good = true ∧
            u.pkt.flits = { a.ans with rcount := a.ans.rcount - 1 }.flits) ∧ Only [.net, .ports, .regs] s r)) ∧
      (a.ans.rcount ≠ 0 → a.ans.retAt (a.ans.rcount - 1) = lp → (s.port lp).state = .off →
        Does .answerForward s (fun r => errs r ∧ r.net = { s.net with quadAns := [] }))) ∧
    (s.reachable = true → s.srst (nocPage + 0x1000) = false → e < 256 →
      let reg : Reg := if hi then .nocRtHi else .nocRtLo
      (s.run.state ≠ .run → Does (.nocRtWrite hi e val) s (fun r => r.rd reg e = val &&& reg.row.mask ∧
        RegsBut [reg.addr e] s r ∧ Only [.regs] s r)) ∧
      (s.run.state = .run → Does (.nocRtWrite hi e val) s (fun r => errs r ∧ RegsBut (errRegs nocPage) s r ∧
        Only [.regs, .con, .host] s r))) ∧
    (s.underTest 162 = true → exec .quadrantForward s = .next s ∧ exec .answerForward s = .next s)

/-! ## Time (R385 to R417) -/

/-- Cells of the time service. An ACTIVE port sends the TIME and ANNOUNCE cells of its frames; a TIME cell received is
kept with its stamp, gives a delay sample when it names a cell sent, and moves the domain whose parent the port is; an
ANNOUNCE cell is kept as the port's neighbour. -/
def Obligations.SyncCells : Prop :=
  ∀ (lp d frame stamp full : Nat) (c : QWord) (e : Nat × Nat) (s : State), s.Canonical → lp < 16 → d < 2 →
    (s.port lp).state = .active →
    let y := (s.port lp).sync d
    let x1 := s.estAt d stamp
    let received : Prop := cellOk c = true ∧ bits c 125 125 = d
    let kept := { y with rx := ((bits c 119 112, bits c 111 72, bits c 71 64, x1) :: y.rx).take 4 }
    (frame % 64 = 32 * d →
      Does (.syncCellSend lp frame stamp) s (fun r =>
        r.net = { s.net with linkTx := s.net.linkTx ++ [(lp, 5, s.timeCellOf lp d x1)] } ∧
        r.port lp = (s.port lp).setSync d { y with
          txSeq := (y.txSeq + 1) % 256, sent := ((y.txSeq % 256, x1) :: y.sent).take 256 } ∧
        Only [.net, .ports] s r)) ∧
    (frame % 64 = 32 * d + 16 →
      Does (.syncCellSend lp frame stamp) s (fun r =>
        r.net = { s.net with linkTx := s.net.linkTx ++ [(lp, 5, s.announceCellOf lp d)] } ∧ Only [.net] s r)) ∧
    (received → bits c 127 126 = 0 →
      (bits c 55 32 = 0xFFFFFF → y.full = none →
        Does (.timeCell lp c stamp) s (fun r => r.port lp = (s.port lp).setSync d kept ∧ Only [.ports] s r)) ∧
      (bits c 55 32 ≠ 0xFFFFFF → y.full = none → y.sent.find? (fun q => q.1 = bits c 63 56) = some e →
        Does (.timeCell lp c stamp) s (fun r =>
          (r.port lp).delays = ((((x1 : Int) - (e.2 : Int) - ((bits c 55 32 * 4096 : Nat) : Int)) / 2) ::
            (s.port lp).delays).take 8 ∧ (r.port lp).sync d = kept ∧
          (7 ≤ (s.port lp).delays.length → bit (r.rd .timPortDelay lp) 31 = true))) ∧
      (s.refAbsent = false → bits c 55 32 = 0xFFFFFF → y.full = some full → s.domSource d = 1 →
        (s.dom d).parent = some lp →
        bit c 124 = true → (s.dom d).state = .search →
        Does (.timeCell lp c stamp) s (fun r => (r.dom d).state = .track ∧
          (r.dom d).est = BitVec.ofInt 104 ((s.dom d).est.toNat +
            ((nearest40 full (bits c 111 72) * 2 ^ 16 + bits c 71 64 * 256 + s.fld .timPortDelay 30 0 lp : Nat) -
              (x1 : Int)) * 2 ^ 24) ∧
          r.dom (1 - d) = s.dom (1 - d)))) ∧
    (received → bits c 127 126 = 1 →
      Does (.announceCell lp c) s (fun r =>
        let z := (r.port lp).sync d
        z.annValid = bit c 124 ∧ z.annHops = bits c 123 120 ∧ z.annMaster = c.extractLsb' 112 8 ∧
        z.annPriority = c.extractLsb' 104 8 ∧ z.rx = y.rx ∧ z.sent = y.sent ∧
        (∀ q : Nat, q ≠ lp → r.port q = s.port q)))

/-- Domains and the output. A followed domain without updates for LOSS_MS is lost, the loss of REFCLK100 loses both
domains, the output servo and the revert act on the followed domain, SET and REACQ and a change of SOURCE do what
R389 and R399 say, and a TSYNC edge carries out a pending SET. Times are as reads and stamps give them, so the loss
steps none. A FREE output enters HOLDOVER at the loss, and divisions drop the remainder (DEDUCED, assumption 53). -/
def Obligations.DomainsAndOutput : Prop :=
  ∀ (d : Nat) (val : Word) (s : State), s.Canonical → d < 2 →
    let x := s.dom d
    let recorded (r : State) : Prop := 0 < bits (r.reg (timPage + 0x18)) 31 16
    let busy (r : State) : Prop := recorded r ∧ RegsBut (errRegs timPage) s r ∧ Only [.regs, .con, .host] s r
    (x.follows = true → s.domSource d ≠ 3 → s.lossNs d ≤ x.sinceNs →
      Does (.domainLoss d) s (fun r => r.dom d = { x with state := .lost, good := 0, bad := 0, lockedNs := 0 } ∧
        r.dom (1 - d) = s.dom (1 - d) ∧ recorded r ∧ bit (r.reg (timPage + 0xC)) 2 = true)) ∧
    (s.followed = some d →
      let e : Int := (s.est16 d : Int) - s.out16
      Does .outputServoTick s (fun r => r.tim = { s.tim with
          rOut := x.rate + clampInt ((e * 2 ^ 24).tdiv 10000 / 2 ^ 7) s.slew, eOut := e } ∧ Only [.tim] s r)) ∧
    (s.followed = some (1 - s.pref) → s.revertNs ≠ 0 → (s.dom s.pref).state = .locked →
      s.revertNs ≤ (s.dom s.pref).lockedNs →
      Does .outputRevert s (fun r => r.tim.outState = followState s.pref ∧ r.tim.out = s.tim.out ∧
        r.tim.switches = min 0xFFFF (s.tim.switches + 1) ∧ recorded r ∧ bit (r.reg (timPage + 0xC)) 1 = true ∧
        r.tim.domA = s.tim.domA ∧ r.tim.domB = s.tim.domB)) ∧
    (s.tim.ref = true →
      Does .refclkLost s (fun r => r.tim.ref = false ∧ r.tim.refLost = true ∧ r.tim.outState = .holdover ∧
        r.outNow = s.outNow ∧ r.estNow d = s.estNow d ∧ r.tim.fires = [] ∧ recorded r ∧ r.trgSynced = false ∧
        (r.dom d).state = .lost ∧ (r.dom d).rate = x.rate)) ∧
    (s.reachable = true → s.srst timPage = false →
      (bit val 0 = true → bits val 3 2 = 0 →
        (s.tim.outState = .free → s.run.state ≠ .run →
          Does (.timCmdSet val) s (fun r => r.outNow = s.timSet ∧
            r.tim = { s.tim with out := r.tim.out } ∧ Only [.tim] s r)) ∧
        (s.tim.outState ≠ .free → Does (.timCmdSet val) s busy)) ∧
      (bit val 0 = true → bits val 3 2 = d + 1 →
        (s.domSource d = 2 → Does (.timCmdSet val) s (fun r => r.dom d = { x with setPending := true } ∧
          r.dom (1 - d) = s.dom (1 - d) ∧ Only [.tim] s r)) ∧
        (s.refAbsent = false → s.domSource d = 3 → bit val 1 = false →
          Does (.timCmdSet val) s (fun r => r.estNow d = s.timSet ∧
          (r.dom d).state = .locked ∧ (r.dom d).setPending = false ∧ r.dom (1 - d) = s.dom (1 - d))) ∧
        (s.domSource d < 2 → Does (.timCmdSet val) s busy)) ∧
      (bit val 4 = true →
        (s.run.state ≠ .run → s.lockedDom = none →
          Does (.timCmdReacq val) s (fun r => r.tim = { s.tim with outState := .free, valid := false, rOut := 0 } ∧
            Only [.tim] s r)) ∧
        (s.run.state ≠ .run → s.lockedDom = some d →
          Does (.timCmdReacq val) s (fun r => r.tim = { s.tim with
            out := x.est, outState := followState d, valid := true, rOut := 0 } ∧ Only [.tim] s r)) ∧
        (s.run.state = .run → Does (.timCmdReacq val) s busy)) ∧
      (s.refAbsent = false → bits val 31 30 = 3 → s.domSource d ≠ 3 →
        Does (.timDomCfgWrite d val) s (fun r => r.rd .timDomCfg d = val &&& 0xC000FFFF ∧
          (r.dom d).state = .search ∧ (r.dom d).hops = 0 ∧ (r.dom d).master = s.devId ∧
          (r.dom d).priority = val.extractLsb' 8 8 ∧ (r.dom d).est = x.est ∧ r.dom (1 - d) = s.dom (1 - d))) ∧
      (s.refAbsent = true → bits val 31 30 ≠ 0 →
        Does (.timDomCfgWrite d val) s busy)) ∧
    (s.refAbsent = false → s.tim.domA.setPending = true → s.domSource 0 = 3 → s.tim.domB.setPending = false →
      s.domSource 1 ≠ 2 →
      Does .tsyncEdge s (fun r => r.estNow 0 = s.timSet ∧ r.tim.domA.state = .locked ∧
        r.tim.domA.setPending = false ∧ r.tim.domB = s.tim.domB)) ∧
    (s.tim.domA.setPending = false → s.domSource 0 = 2 → s.tim.domA.state = .search →
      s.tim.domB.setPending = false → s.domSource 1 ≠ 2 → s.tim.captures = [] → bit (s.rd .timCapCfg) 10 = true →
      s.pageEn (timPage + 0x2000) = true →
      Does .tsyncEdge s (fun r => r.tim.domA = s.tim.domA ∧ r.tim.domB = s.tim.domB ∧
        (∃ n : Nat, r.tim.captures = [⟨n, 10, BitVec.ofNat 64 ((s.out16 - s.tsyncDelay) / 2 ^ 16),
          BitVec.ofNat 16 ((s.out16 - s.tsyncDelay) % 2 ^ 16)⟩]) ∧ Only [.tim, .regs, .host] s r))

/-- Native trigger lines, while page 1 takes work. A fire request of a synchronized device takes a slot for each
native line it names, a line sampled high is an event once, an event's actions are carried out at its time, and a
calibration sets the line's delay or records that it failed. Without synchronization a request that names any line
is TIM_UNSYNC (DEDUCED, assumption 54). VL2 on line 7, captures, and the time as software reads it. -/
def Obligations.TriggersAndCaptures : Prop :=
  (
    ∀ (line slot ps : Nat) (lines : BitVec 8) (s : State), s.Canonical → line < 8 →
      let page := timPage + 0x1000
      let recorded (r : State) : Prop := 0 < bits (r.reg (page + 0x18)) 31 16
      (s.reachable = true → s.srst page = false → s.trgOn = true → s.trgSynced = true →
        Does (.trgFire lines) s (fun r => (∀ q ∈ s.tim.fires, q ∈ r.tim.fires) ∧
          (∀ n < 8, bit lines n = true → s.native n = true → (n, s.fireSlot n) ∈ r.tim.fires) ∧
          (∀ q ∈ r.tim.fires, q ∈ s.tim.fires ∨ (q.2 = s.fireSlot q.1 ∧ bit lines q.1 = true ∧ s.native q.1 = true)) ∧
          r.tim = { s.tim with fires := r.tim.fires } ∧ Only [.tim] s r)) ∧
      (s.reachable = true → s.srst page = false → s.trgOn = true → s.trgSynced = false → lines ≠ 0 →
        Does (.trgFire lines) s (fun r => recorded r ∧ RegsBut (errRegs page) s r ∧ Only [.regs, .con, .host] s r)) ∧
      (s.trgOn = true → s.native line = true → s.trgSynced = true → (line, slot) ∉ s.tim.events →
        ns5 (10 * slot + 5) + steps5 (s.trgDelay line) ≤ s.out5 →
        Does (.trgSample line slot) s (fun r => r.tim = { s.tim with events := s.tim.events ++ [(line, slot)] } ∧
          bit (r.reg (page + 0xC)) 1 = true ∧ RegsBut [page + 0xC] s r ∧ Only [.tim, .regs, .host] s r)) ∧
      ((line, slot) ∈ s.tim.events → ns5 (10 * slot + s.trgLat) ≤ s.out5 →
        Does (.trgAct line slot) s (fun r => r.tim.events = s.tim.events.erase (line, slot)) ∧
        (s.rd .timTrgAct line = 1 → bit (s.rd .timCapCfg) line = true → s.pageEn (timPage + 0x2000) = true →
          s.tim.captures = [] →
          Does (.trgAct line slot) s (fun r => (∃ n : Nat, r.tim = { s.tim with
              events := s.tim.events.erase (line, slot), captures := [⟨n, line, BitVec.ofNat 64 (10 * slot), 0⟩] }) ∧
            bit (r.reg (timPage + 0x200C)) 1 = true ∧ Only [.tim, .regs, .host] s r)) ∧
        (s.rd .timTrgAct line = 4 → s.run.state = .run →
          Does (.trgAct line slot) s (fun r => r.tim = { s.tim with events := s.tim.events.erase (line, slot) } ∧
            r.run.state = .halting ∧ r.run.causes = s.run.causes ||| 0x40 ∧ Only [.tim, .run, .con] s r))) ∧
      (s.reachable = true → s.srst page = false →
        (s.trgOn = true → bit (s.rd .timTrgCfg) (16 + line) = false →
          Does (.trgCal line) s (fun r => r.tim = { s.tim with cal := some line } ∧ Only [.tim] s r)) ∧
        (s.trgOn = true → bit (s.rd .timTrgCfg) (16 + line) = true →
          Does (.trgCal line) s (fun r => recorded r ∧ RegsBut (errRegs page) s r ∧ Only [.regs, .con, .host] s r))) ∧
      (s.tim.cal = some line →
        (ps - 50 * s.trgHub ≤ 400000 →
          Does (.trgCalDone (some ps)) s (fun r => r.tim = { s.tim with cal := none } ∧
            r.rd .timTrgDelay line = BitVec.ofNat 32 (2 ^ 31 + (ps - 50 * s.trgHub + 50) / 100) ∧
            RegsBut [Reg.addr .timTrgDelay line] s r ∧ Only [.tim, .regs] s r)) ∧
        Does (.trgCalDone none) s (fun r => r.tim = { s.tim with cal := none } ∧ recorded r ∧
          RegsBut (errRegs page) s r ∧ Only [.tim, .regs, .con, .host] s r)) ∧
      (s.trgOn = false → exec (.trgFire lines) s = .next s ∧ exec (.trgCal line) s = .next s ∧
        exec (.trgSample line slot) s = .next s)) ∧
  (
    ∀ (w n : Nat) (val : Word) (c : Capture) (rest : List Capture) (s : State), s.Canonical →
      let page := timPage + 0x1000
      let fields (r : State) : Prop := r.rd .timVl2 = val &&& 0xC0000000 ∧ RegsBut [Reg.addr .timVl2] s r ∧
        Only [.regs, .tim] s r
      (s.vl2On = true →
        (500 ≤ w → w ≤ 2000 → Does (.vl2ArmPulse w) s (fun r => r.tim.vl2 = .armed ∧ r.run = s.run ∧
          (bit (s.rd .timCapCfg) 8 = true → s.pageEn (timPage + 0x2000) = true → s.tim.captures = [] →
            ∃ m : Nat, r.tim.captures =
              [⟨m, 8, BitVec.ofNat 64 (s.vl2Stamp w / 2 ^ 16), BitVec.ofNat 16 (s.vl2Stamp w % 2 ^ 16)⟩]))) ∧
        (w < 500 ∨ 2000 < w → w < 3000 → Does (.vl2ArmPulse w) s (fun r =>
          0 < bits (r.reg (page + 0x18)) 31 16 ∧ r.tim = s.tim ∧ RegsBut (errRegs page) s r ∧
          Only [.regs, .con, .host] s r)) ∧
        (3000 ≤ w → s.tim.vl2 = .armed → Does (.vl2FirePulse w) s (fun r => r.tim.vl2 = .fired ∧
          bit (r.reg (page + 0xC)) 1 = true ∧ (s.rd .timTrgAct 7 = 4 → s.run.state = .run →
            r.run.state = .halting ∧ bit r.run.causes 6 = true))) ∧
        (3000 ≤ w → s.tim.vl2 = .fired → Does (.vl2LineFall w) s (fun r =>
          r.tim = { s.tim with vl2 := .idle, vl2FallNs := some 0 } ∧ Only [.tim] s r))) ∧
      (s.vl2On = true → s.tim.vl2FallNs = some n → 10000 ≤ n → bit (s.rd .timVl2) 31 = true →
        bit (s.rd .timVl2) 30 = true →
        Does .vl2Rearm s (fun r => r.tim = { s.tim with
          vl2FallNs := none, vl2Drive := s.tim.vl2Drive ++ [1] } ∧ Only [.tim] s r)) ∧
      (s.reachable = true → s.srst page = false →
        (bit val 0 = true → bit val 31 = true → s.vl2On = true → Does (.vl2Arm val) s (fun r => fields r ∧
          r.tim = { s.tim with vl2Drive := s.tim.vl2Drive ++ [1] })) ∧
        (bit val 2 = true → s.vl2On = true → s.tim.vl2 = .armed → Does (.vl2Fire val) s (fun r => fields r ∧
          r.tim = { s.tim with vl2Drive := s.tim.vl2Drive ++ [2] })) ∧
        (bit val 2 = true → s.tim.vl2 ≠ .armed → Does (.vl2Fire val) s (fun r => fields r ∧ r.tim = s.tim)) ∧
        (bit val 1 = true → Does (.vl2Disarm val) s (fun r => fields r ∧ r.tim = { s.tim with vl2 := .idle }))) ∧
      (s.reachable = true →
        (s.tim.captures = c :: rest → Does (.timCapPop .bar0) s (fun r =>
          r.host.readData = [BitVec.ofNat 32 (2 ^ 31 + c.source % 16 * 2 ^ 16 + c.frac.toNat)] ∧
          r.rd64 .timCapLo .timCapHi = c.ns ∧
          r.tim.captures = (if s.pagePeek (timPage + 0x2000) then c :: rest else rest) ∧
          RegsBut [Reg.addr .timCapLo, Reg.addr .timCapHi] s r ∧ Only [.regs, .tim, .host] s r)) ∧
        (s.tim.captures = [] → Does (.timCapPop .bar0) s (fun r => r.host.readData = [0] ∧ Only [.host] s r)) ∧
        Does (.timCapStatRead .bar0) s (fun r =>
          r.host.readData = [setBits (s.rd .timCapStat) 8 0 s.tim.captures.length] ∧
          (s.pagePeek (timPage + 0x2000) = false → r.fld .timCapStat 31 16 = 0) ∧
          RegsBut [Reg.addr .timCapStat] s r ∧ Only [.regs, .host] s r) ∧
        Does (.timNowRead .bar0) s (fun r => r.host.readData = [BitVec.ofNat 32 s.outNs] ∧
          (s.pagePeek timPage = false → r.rd .timNowHi = BitVec.ofNat 32 (s.outNs / 2 ^ 32) ∧
            r.rd .timNowFr = BitVec.ofNat 32 (s.out16 % 2 ^ 16)) ∧
          RegsBut [Reg.addr .timNowHi, Reg.addr .timNowFr] s r ∧ Only [.regs, .host] s r)))

/-! ## Acquisition (R418 to R449) -/

/-- The acquisition engine. ARM takes it from IDLE to LIVE with its larder banks, STOP without SPILL to IDLE; in LIVE
the sequencer evaluates the oldest sampled batch, a branch with TRIG opens a segment; in WINDOW each batch is recorded
and the last one closes the segment; the re-arm opens the next one; software's pointer lets the next block spill. -/
def Obligations.AcquisitionRuns : Prop :=
  ∀ (val : Word) (e : Sample) (rest : List Sample) (g : Segment) (d : DirEntry) (s : State), s.Canonical →
    let a := s.acq
    let q := s.fld .acqSegCfg 15 0
    let refused (r : State) : Prop := 0 < bits (r.reg (acqPage + 0x18)) 31 16 ∧ RegsBut (errRegs acqPage) s r ∧
      Only [.regs, .con, .host] s r
    let held := s.tuConds e.batch (e.ext.map fun x => x.1)
    let outs := held.filter fun u =>
      max 1 (s.fld .acqTuCfg 15 0 u) ≤ min 0xFFFFFFFF ((s.rd .acqTuCount u).toNat + 1)
    let b0 := s.rd .acqSeqBr0 a.seq
    (s.reachable = true → s.srst acqPage = false →
      (bit val 0 = true → s.pageEn acqPage = true →
        (a.state = .idle → s.ldr.inService = true → s.acqBanks ≠ [] →
          Does (.acqArm val) s (fun r => r.acq.state = .live ∧
            r.acq.banks = (s.larderOf 5).filter (fun b => !bit (s.rd .memLown b) 31) ∧ r.acq.seq = 0 ∧
            r.acq.segment = 0 ∧ r.acq.blocks = [] ∧ r.acq.sampled = [] ∧
            r.fld .acqSpillDev 23 0 = s.fld .acqSpillHost 23 0 ∧ (∀ u < 16, r.rd .acqTuCount u = 0) ∧
            Only [.regs, .acq] s r)) ∧
        (a.state ≠ .idle ∨ s.ldr.inService = false ∨ s.acqBanks = [] → Does (.acqArm val) s refused)) ∧
      (bit val 1 = true →
        (a.state = .idle → Does (.acqStop val) s (fun r => r = s)) ∧
        (a.state ≠ .idle → bit (s.rd .acqCtrl) 25 = false →
          Does (.acqStop val) s (fun r => r.acq.state = .idle ∧ r.acq.sampled = [] ∧ r.acq.seg = none ∧
            bit (r.reg (acqPage + 0xC)) 2 = true ∧ r.mem.ddr = s.mem.ddr ∧ TilesSame s r))) ∧
      (bit (s.rd .acqCtrl) 25 = false →
        Does (.acqSpillHostWrite val) s (fun r => r.rd .acqSpillHost = val &&& 0xFFFFFF ∧
          RegsBut [Reg.addr .acqSpillHost] s r ∧ Only [.regs] s r)) ∧
      (bit (s.rd .acqCtrl) 25 = true → a.state ≠ .idle → a.blocks ≠ [] → s.acqItems 0x30 = false →
        s.internalUsed < 480 →
        (s.fld .acqSpillDev 23 0 + 1) % 2 ^ s.spillLog2 ≠ bits val 23 0 % 2 ^ s.spillLog2 →
        Does (.acqSpillHostWrite val) s (fun r => r.rd .acqSpillHost = val &&& 0xFFFFFF ∧
          s.svc.nextId ∈ r.svc.ready ∧ (∃ i ∈ r.svc.store, i.id = s.svc.nextId ∧ i.type = 0x30 ∧ i.source = .acq) ∧
          Only [.regs, .svc] s r))) ∧
    (a.state = .live → a.sampled = e :: rest → a.firstEval.isSome = true →
      s.isHalted = false ∨ a.seg = none →
      (held = [] →
        Does .acqEvaluate s (fun r => r.acq = { a with sampled := rest } ∧ Only [.acq] s r)) ∧
      (branchHolds b0 outs = true → bits b0 11 0 = 0 →
        Does .acqEvaluate s (fun r => r.acq = { a with sampled := rest, seq := bits b0 14 12 } ∧
          (∀ u ∈ held, (r.rd .acqTuCount u).toNat = min 0xFFFFFFFF ((s.rd .acqTuCount u).toNat + 1)) ∧
          (∀ u < 16, u ∉ held → r.rd .acqTuCount u = s.rd .acqTuCount u) ∧ Only [.acq, .regs] s r)) ∧
      (branchHolds b0 outs = true → bits b0 11 0 = 0x800 → 0 < q →
        Does .acqEvaluate s (fun r => r.acq.state = .window ∧ r.acq.seq = bits b0 14 12 ∧
          (∃ h : Segment, r.acq.seg = some h ∧ h.trigger = e.batch ∧ h.last = e.batch) ∧
          (∃ f ∈ r.acq.dirs, f.segment = a.segment ∧ f.trigger = e.batch) ∧ r.mem.ddr = s.mem.ddr ∧ TilesSame s r)) ∧
      (branchHolds b0 outs = true → bits b0 11 0 = 0x200 → s.run.state = .run → s.run.inBatch = true →
        Does .acqEvaluate s (fun r => r.run.state = .halting ∧ r.run.causes = s.run.causes ||| 0x20 ∧
          r.acq = { a with sampled := rest, seq := bits b0 14 12 }))) ∧
    (a.state = .window → a.sampled = e :: rest → a.seg = some g →
      (e.batch.toNat < g.trigger.toNat + q →
        Does .acqBatchRecord s (fun r => r.acq.state = .window ∧ r.acq.sampled = rest ∧
          (∃ h : Segment, r.acq.seg = some h ∧ h.trigger = g.trigger ∧ h.last = e.batch ∧ h.lastEnd = e.end16) ∧
          r.mem.ddr = s.mem.ddr ∧ TilesSame s r)) ∧
      (g.trigger.toNat + q ≤ e.batch.toNat →
        Does .acqBatchRecord s (fun r => r.acq.state = .rearm ∧ r.acq.seg = none ∧ r.acq.closed = a.closed + 1 ∧
          r.acq.seq = 0 ∧ (∀ u < 16, r.rd .acqTuCount u = 0) ∧ bit (r.reg (acqPage + 0xC)) 1 = true ∧
          r.mem.ddr = s.mem.ddr ∧ TilesSame s r))) ∧
    (a.state = .rearm → s.isHalted = false → a.dirs.find? (fun f => f.segment = a.segment) = some d →
      a.closed < s.segMax →
      Does .acqRearmDone s (fun r => r.acq.state = .live ∧ r.acq.segment = (a.segment + 1) % 65536 ∧
        r.acq.firstEval = none ∧
        r.rd .acqLastDeadB = BitVec.ofNat 32 (s.run.batch.toNat - d.trigger.toNat - 1) ∧
        r.rd .acqLastDeadNs = BitVec.ofNat 32 (min 0xFFFFFFFF ((s.out16 - d.stamp16) / 2 ^ 16)) ∧
        r.mem.ddr = s.mem.ddr ∧ TilesSame s r))
end

