-- ==== Sys2Proof/Laws/Table.lean ====
section
/-! SUPPORT. The laws of sparse tables and of memory: a read after a write, and the canonical form that every
operation keeps. -/

namespace Sys2Proof.Machine

variable {α : Type} {d : Nat → α}

/-- An empty table reads as its default everywhere. -/
@[simp] theorem Table.get_nil (k : Nat) : Table.get d [] k = d k := rfl

section
variable [DecidableEq α]

/-- Raising the bound from which keys are looked at keeps a table canonical downwards. -/
theorem Table.wfFrom_mono {lo hi : Nat} (h : lo ≤ hi) :
    ∀ {m : Table α}, Table.wfFrom d hi m = true → Table.wfFrom d lo m = true
  | [], _ => rfl
  | (a, v) :: rest, w => by
    simp only [Table.wfFrom, Bool.and_eq_true, decide_eq_true_eq] at w ⊢
    exact ⟨⟨by omega, w.1.2⟩, w.2⟩

/-- Below its first key a canonical table reads as its default. -/
theorem Table.get_below {k : Nat} :
    ∀ {m : Table α} {lo : Nat}, Table.wfFrom d lo m = true → k < lo → Table.get d m k = d k
  | [], _, _, _ => rfl
  | (a, v) :: rest, lo, w, h => by
    simp only [Table.wfFrom, Bool.and_eq_true, decide_eq_true_eq] at w
    have h1 : k ≠ a := by omega
    have h2 : k < a := by omega
    simp [Table.get, h1, h2]

theorem Table.wfFrom_set {k : Nat} {v : α} :
    ∀ {m : Table α} {lo : Nat}, Table.wfFrom d lo m = true → lo ≤ k →
      Table.wfFrom d lo (Table.set d m k v) = true
  | [], lo, _, h => by
    by_cases e : v = d k <;> simp [Table.set, Table.wfFrom, e, h]
  | (a, x) :: rest, lo, w, h => by
    simp only [Table.wfFrom, Bool.and_eq_true, decide_eq_true_eq] at w
    unfold Table.set
    split
    · rename_i e
      subst e
      split
      · exact Table.wfFrom_mono (by omega) w.2
      · simp_all [Table.wfFrom]
    · split
      · split
        · simp only [Table.wfFrom, Bool.and_eq_true, decide_eq_true_eq]
          exact ⟨w.1, w.2⟩
        · simp only [Table.wfFrom, Bool.and_eq_true, decide_eq_true_eq]
          exact ⟨⟨h, by assumption⟩, ⟨by omega, w.1.2⟩, w.2⟩
      · simp only [Table.wfFrom, Bool.and_eq_true, decide_eq_true_eq]
        exact ⟨w.1, Table.wfFrom_set w.2 (by omega)⟩

/-- Setting a key keeps the canonical form. -/
theorem Table.wf_set {m : Table α} {k : Nat} {v : α} (w : Table.wf d m = true) :
    Table.wf d (Table.set d m k v) = true :=
  Table.wfFrom_set w (Nat.zero_le k)

theorem Table.get_set_from {k j : Nat} {v : α} :
    ∀ {m : Table α} {lo : Nat}, Table.wfFrom d lo m = true →
      Table.get d (Table.set d m k v) j = if j = k then v else Table.get d m j
  | [], _, _ => by
    by_cases e : v = d k <;> by_cases f : j = k <;> simp [Table.set, Table.get, e, f]
  | (a, x) :: rest, _, w => by
    simp only [Table.wfFrom, Bool.and_eq_true, decide_eq_true_eq] at w
    have ih := Table.get_set_from (k := k) (j := j) (v := v) w.2
    unfold Table.set
    by_cases e : k = a
    · subst e
      by_cases g : v = d k
      · simp only [g, if_true]
        by_cases f : j = k
        · subst f; simpa using Table.get_below w.2 (Nat.lt_succ_self j)
        · by_cases l : j < k
          · simpa [f, Table.get, l] using Table.get_below w.2 (Nat.lt_succ_of_lt l)
          · simp [f, Table.get, l]
      · by_cases f : j = k <;> simp [g, f, Table.get]
    · by_cases l : k < a
      · by_cases g : v = d k
        · by_cases f : j = k
          · subst f; simp [e, l, g, Table.get]
          · simp [e, l, g, f]
        · by_cases f : j = k
          · subst f; simp [e, l, g, Table.get]
          · by_cases q : j < k
            · have h1 : j ≠ a := by omega
              have h2 : j < a := by omega
              simp [e, l, g, f, Table.get, q, h1, h2]
            · simp [e, l, g, f, Table.get, q]
      · by_cases f : j = a
        · have h1 : j ≠ k := by omega
          simp [e, l, f, Table.get, Ne.symm e]
        · by_cases q : j < a
          · have h1 : j ≠ k := by omega
            simp [e, l, f, q, h1, Table.get]
          · simp [e, l, f, q, Table.get, ih]

/-- A read after a write of a canonical table gives the value written, and every other key reads as before. -/
theorem Table.get_set {m : Table α} {k j : Nat} {v : α} (w : Table.wf d m = true) :
    Table.get d (Table.set d m k v) j = if j = k then v else Table.get d m j :=
  Table.get_set_from w

/-- Leaving out entries keeps the canonical form. -/
theorem Table.wfFrom_filter (p : Nat × α → Bool) :
    ∀ {m : Table α} {lo : Nat}, Table.wfFrom d lo m = true → Table.wfFrom d lo (m.filter p) = true
  | [], _, _ => rfl
  | (a, x) :: rest, lo, w => by
    simp only [Table.wfFrom, Bool.and_eq_true, decide_eq_true_eq] at w
    by_cases g : p (a, x) = true
    · simp only [List.filter, g, Table.wfFrom, Bool.and_eq_true, decide_eq_true_eq]
      exact ⟨w.1, Table.wfFrom_filter p w.2⟩
    · simp only [List.filter, Bool.not_eq_true] at g ⊢
      simp only [g]
      exact Table.wfFrom_mono (by omega) (Table.wfFrom_filter p w.2)

theorem Table.wf_filter (p : Nat × α → Bool) {m : Table α} (w : Table.wf d m = true) :
    Table.wf d (m.filter p) = true := Table.wfFrom_filter p w

/-- Clearing a range of keys keeps the canonical form. -/
theorem Table.wf_clear {m : Table α} (lo hi : Nat) (w : Table.wf d m = true) :
    Table.wf d (Table.clear m lo hi) = true := Table.wf_filter _ w

theorem Table.get_filter_from (p : Nat → Bool) {k : Nat} :
    ∀ {m : Table α} {lo : Nat}, Table.wfFrom d lo m = true →
      Table.get d (m.filter fun e => p e.1) k = if p k then Table.get d m k else d k
  | [], _, _ => by simp
  | (a, x) :: rest, lo, w => by
    simp only [Table.wfFrom, Bool.and_eq_true, decide_eq_true_eq] at w
    have ih := Table.get_filter_from p (k := k) w.2
    by_cases g : p a = true
    · simp only [List.filter, g]
      by_cases e : k = a
      · subst e; simp [Table.get, g]
      · by_cases l : k < a
        · simp [Table.get, e, l]
        · simp [Table.get, e, l, ih]
    · have g' : p a = false := by simpa using g
      simp only [List.filter, g']
      rw [ih]
      by_cases e : k = a
      · subst e; simp [g']
      · by_cases l : k < a
        · simp [Table.get, e, l, Table.get_below w.2 (Nat.lt_succ_of_lt l)]
        · simp [Table.get, e, l]

/-- After clearing [lo, hi) the keys in it read as the default, every other key as before. -/
theorem Table.get_clear {m : Table α} {lo hi k : Nat} (w : Table.wf d m = true) :
    Table.get d (Table.clear m lo hi) k = if lo ≤ k ∧ k < hi then d k else Table.get d m k := by
  have h := Table.get_filter_from (fun a => decide (a < lo) || decide (hi ≤ a)) (k := k) w
  unfold Table.clear
  rw [h]
  by_cases a : lo ≤ k <;> by_cases b : k < hi <;> simp [a, b]

end

/-! ## Memory -/

/-- A byte written reads back, and every other byte reads as before. -/
theorem Memory.read_write {m : Memory} {a b : Nat} {v : Byte} (w : Memory.wf m = true) :
    Memory.read (Memory.write m a v) b = if b = a then v else Memory.read m b := Table.get_set w

/-- Writing a byte keeps the canonical form. -/
theorem Memory.wf_write {m : Memory} {a : Nat} {v : Byte} (w : Memory.wf m = true) :
    Memory.wf (Memory.write m a v) = true := Table.wf_set w

/-- Writing bytes keeps the canonical form. -/
theorem Memory.wf_writeBytes : ∀ {l : List Byte} {m : Memory} {a : Nat}, Memory.wf m = true →
    Memory.wf (Memory.writeBytes m a l) = true
  | [], _, _, w => w
  | _ :: _, _, _, w => by
    unfold Memory.writeBytes
    exact Memory.wf_writeBytes (Memory.wf_write w)

/-- After bytes are written from a on, the bytes there read as written and all others as before. -/
theorem Memory.read_writeBytes : ∀ {l : List Byte} {m : Memory} {a b : Nat}, Memory.wf m = true →
    Memory.read (Memory.writeBytes m a l) b =
      if a ≤ b ∧ b < a + l.length then l.getD (b - a) 0 else Memory.read m b
  | [], m, a, b, _ => by
    simp only [Memory.writeBytes, List.length_nil, Nat.add_zero]
    rw [if_neg (by omega)]
  | x :: l, m, a, b, w => by
    simp only [Memory.writeBytes, List.length_cons]
    rw [Memory.read_writeBytes (Memory.wf_write w), Memory.read_write w]
    by_cases h : a + 1 ≤ b ∧ b < a + 1 + l.length
    · have e : b - a = (b - (a + 1)) + 1 := by omega
      rw [if_pos h, if_pos (by omega), e]; simp
    · rw [if_neg h]
      by_cases g : b = a
      · subst g; simp
      · rw [if_neg g, if_neg (by omega)]

/-- Zeroing a range keeps the canonical form. -/
theorem Memory.wf_zero {m : Memory} (a n : Nat) (w : Memory.wf m = true) :
    Memory.wf (Memory.zero m a n) = true := Table.wf_clear _ _ w

/-- After zeroing, the bytes of the range read 0 and all others as before. -/
theorem Memory.read_zero {m : Memory} {a n b : Nat} (w : Memory.wf m = true) :
    Memory.read (Memory.zero m a n) b = if a ≤ b ∧ b < a + n then 0 else Memory.read m b := Table.get_clear w

/-- As many bytes are read as are asked for. -/
@[simp] theorem Memory.readBytes_length (m : Memory) : ∀ (n a : Nat), (Memory.readBytes m a n).length = n
  | 0, _ => rfl
  | n + 1, a => by simp [Memory.readBytes, Memory.readBytes_length m n]

/-- Byte i of a range is the byte at its address. -/
theorem Memory.readBytes_getD (m : Memory) : ∀ (n a i : Nat), i < n →
    (Memory.readBytes m a n).getD i 0 = Memory.read m (a + i)
  | n + 1, a, 0, _ => by simp [Memory.readBytes]
  | n + 1, a, i + 1, h => by
    have := Memory.readBytes_getD m n (a + 1) i (by omega)
    simp only [Memory.readBytes, List.getD_cons_succ]
    rw [this]; congr 1; omega

/-- Two memories that read the same on a range give the same bytes. -/
theorem Memory.readBytes_congr {m q : Memory} : ∀ (n a : Nat),
    (∀ i < n, Memory.read m (a + i) = Memory.read q (a + i)) → Memory.readBytes m a n = Memory.readBytes q a n
  | 0, _, _ => rfl
  | n + 1, a, h => by
    have h0 := h 0 (by omega)
    have h1 := Memory.readBytes_congr (m := m) (q := q) n (a + 1) fun i hi => by
      have := h (i + 1) (by omega)
      rwa [show a + (i + 1) = a + 1 + i by omega] at this
    simp only [Nat.add_zero] at h0
    simp only [Memory.readBytes, h0, h1]

/-- Bytes written read back. -/
theorem Memory.readBytes_writeBytes {m : Memory} (w : Memory.wf m = true) : ∀ {l : List Byte} {a : Nat},
    Memory.readBytes (Memory.writeBytes m a l) a l.length = l := by
  intro l a
  apply List.ext_getElem (by simp)
  intro i h1 h2
  have h : i < l.length := h2
  have := Memory.readBytes_getD (Memory.writeBytes m a l) l.length a i h
  rw [Memory.read_writeBytes w, if_pos (by omega)] at this
  simpa [List.getD_eq_getElem?_getD, List.getElem?_eq_getElem h1, List.getElem?_eq_getElem h2] using this

/-! ## Byte order -/

@[simp] theorem leBytes_length : ∀ (n v : Nat), (leBytes n v).length = n
  | 0, _ => rfl
  | n + 1, v => by simp [leBytes, leBytes_length n]

/-- The bytes of a number spell it, modulo their width. -/
theorem leNat_leBytes : ∀ (n v : Nat), leNat (leBytes n v) = v % 256 ^ n
  | 0, v => by simp [leBytes, leNat, Nat.mod_one]
  | n + 1, v => by
    have e : 256 ^ (n + 1) = 256 * 256 ^ n := by rw [Nat.pow_succ, Nat.mul_comm]
    simp only [leBytes, leNat, leNat_leBytes n, BitVec.toNat_ofNat, e, Nat.mod_mul]

/-- A number written as n bytes reads back, modulo their width. -/
theorem Memory.readNat_writeNat {m : Memory} (w : Memory.wf m = true) (a n v : Nat) :
    Memory.readNat (Memory.writeNat m a n v) a n = v % 256 ^ n := by
  have := Memory.readBytes_writeBytes w (l := leBytes n v) (a := a)
  simp only [leBytes_length] at this
  simp [Memory.readNat, Memory.writeNat, this, leNat_leBytes]

end Sys2Proof.Machine
end

