-- ==== Sys2Proof/Laws/Canonical.lean ====
section
/-! SUPPORT. A check that decides, for a state written out, that everything stored stands in canonical form, and a
rule for requests that the encryption engine passes as plaintext. -/

namespace Sys2Proof.Machine

/-- What a table reads at a key is its default there or the value of an entry. -/
theorem Table.get_or {α : Type} {d : Nat → α} {k : Nat} :
    ∀ {m : Table α}, Table.get d m k = d k ∨ ∃ e ∈ m, Table.get d m k = e.2
  | [] => Or.inl rfl
  | (a, v) :: rest => by
    unfold Table.get
    split
    · exact Or.inr ⟨(a, v), by simp, rfl⟩
    · split
      · exact Or.inl rfl
      · rcases Table.get_or (d := d) (k := k) (m := rest) with h | ⟨e, he, h⟩
        · exact Or.inl h
        · exact Or.inr ⟨e, by simp [he], h⟩

/-- The check for one tile. -/
def Tile.canonicalCheck (x : Tile) : Bool :=
  Memory.wf x.pantry && Table.wf (fun _ => false) x.thenHalf && Table.wf (fun _ => none) x.nowHalf &&
  Table.wf (fun _ => false) x.dirty0 && Table.wf (fun _ => false) x.dirty1 &&
  Table.wf (fun _ => 0) x.wuReg && Table.wf (fun _ => 0) x.tap && Table.wf (fun _ => 0) x.flags &&
  Table.wf (fun _ => 0) x.mbx && Table.wf (fun _ => 0) x.qData && Table.wf (fun _ => 0) x.qHead &&
  Table.wf (fun _ => 0) x.qCount && Table.wf (fun _ => 0) x.bpCode && Table.wf (fun _ => 0) x.wuCode &&
  Table.wf (fun _ => 0) x.ctrl && Table.wf (fun _ => 0) x.dest && Table.wf (fun _ => 0) x.tmpl &&
  Table.wf (fun _ => 0) x.probeList

theorem Tile.canonical_of_check {x : Tile} (h : x.canonicalCheck = true) : x.Canonical := by
  simp only [Tile.canonicalCheck, Bool.and_eq_true] at h
  obtain ⟨⟨⟨⟨⟨⟨⟨⟨⟨⟨⟨⟨⟨⟨⟨⟨⟨a, b⟩, c⟩, d⟩, e⟩, f⟩, g⟩, h⟩, i⟩, j⟩, k⟩, l⟩, m⟩, n⟩, o⟩, p⟩, q⟩, r⟩ := h
  exact ⟨a, b, c, d, e, f, g, h, i, j, k, l, m, n, o, p, q, r⟩

/-- The check for a whole state. -/
def State.canonicalCheck (s : State) : Bool :=
  Table.wf regInit s.regs && Table.wf (fun _ => Tile.reset) s.tiles && s.tiles.all (fun e => e.2.canonicalCheck) &&
  Memory.wf s.mem.larder && Memory.wf s.mem.ddr && Table.wf (fun _ => LogicalPort.reset) s.ports &&
  Table.wf (fun _ => none) s.svc.engines && Table.wf (fun _ => none) s.enc.slots &&
  Table.wf (fun _ => none) s.led.sensors && Table.wf (fun _ => []) s.host.porter

/-- A state that passes the check is canonical. -/
theorem State.canonical_of_check {s : State} (h : s.canonicalCheck = true) : s.Canonical := by
  simp only [State.canonicalCheck, Bool.and_eq_true] at h
  obtain ⟨⟨⟨⟨⟨⟨⟨⟨⟨a, b⟩, c⟩, d⟩, e⟩, f⟩, g⟩, h⟩, i⟩, j⟩ := h
  refine ⟨a, b, fun k => Tile.canonical_of_check ?_, d, e, f, g, h, i, j⟩
  rcases Table.get_or (d := fun _ => Tile.reset) (m := s.tiles) (k := k) with r | ⟨p, hp, r⟩
  · have : s.tile k = Tile.reset := r
    rw [this]; decide
  · have : s.tile k = p.2 := r
    rw [this]; exact List.all_eq_true.mp c p hp

/-- Region 0 is enabled over [0, hi), within the usable DDR and without INTEGRITY; queue q has the key slot 0, no
key change is in force there, the engine, which no self-test slice tests, and every channel take requests, and the
rights of the region grant what class cls asks for. -/
def State.plainCheck (s : State) (cls q hi : Nat) (rd wr : Bool) : Bool :=
  let w := s.rd .encRgnCtrl 0
  !s.enc.integrityHalt && decide (s.qkey q = 0) && !s.slotLocked 0 && rgnEn w && !rgnInteg w &&
    rightsOk w cls rd wr && decide (s.fld .encRgnBase 21 0 0 = 0) &&
    decide (hi ≤ s.fld .encRgnLimit 21 0 0 * 2 ^ 20) && decide (hi ≤ s.ddrCap) && s.pageEn encPage &&
    !s.underTest 164 && (List.range (2 ^ s.chanLog2)).all fun c => s.pageEn (chanPage c)

/-- Requests below hi of a state that passes the check are plaintext requests. -/
theorem State.plain_of_check {s : State} {r : Requester} {q lo hi : Nat} {rd wr : Bool}
    (h : s.plainCheck r.cls q hi rd wr = true) : s.Plain r q lo hi rd wr := by
  simp only [State.plainCheck, Bool.and_eq_true, Bool.not_eq_true', decide_eq_true_eq, List.all_eq_true] at h
  obtain ⟨⟨⟨⟨⟨⟨⟨⟨⟨⟨⟨halt, key⟩, lock⟩, en⟩, integ⟩, rights⟩, base⟩, limit⟩, cap⟩, engine⟩, test⟩, chans⟩ := h
  refine ⟨halt, key, lock, fun a _ ha => ?_⟩
  have hr : s.region a = some 0 := by
    have : a / 2 ^ 20 ≤ s.fld .encRgnLimit 21 0 0 := by omega
    have e : List.range 32 = 0 :: List.range' 1 31 := by decide
    unfold State.region
    rw [e, List.find?_cons_of_pos]
    simp only [Bool.and_eq_true, decide_eq_true_eq]
    exact ⟨⟨en, by rw [base]; exact Nat.zero_le _⟩, this⟩
  have hc : ¬ s.ddrCap ≤ a := by omega
  refine ⟨by simp [State.encRefuse, hc, hr, rights, State.slotValid], by simp [State.integ, hr, integ], ?_⟩
  have hch : s.ddrChannel a ∈ List.range (2 ^ s.chanLog2) :=
    List.mem_range.mpr (Nat.mod_lt _ (Nat.two_pow_pos _))
  simp [State.engineTakes, engine, test, chans _ hch]

end Sys2Proof.Machine
end

