-- ==== Sys2Proof/Laws/State.lean ====
section
/-! SUPPORT. What each update of State leaves alone, field by field, and what it stores. -/

namespace Sys2Proof.Machine


/-! ## A register stored -/

@[simp] theorem State.setReg_pending (s : State) (a : Nat) (v : Word) :
    (s.setReg a v).pending = s.pending := rfl
@[simp] theorem State.setReg_tiles (s : State) (a : Nat) (v : Word) :
    (s.setReg a v).tiles = s.tiles := rfl
@[simp] theorem State.setReg_ldr (s : State) (a : Nat) (v : Word) :
    (s.setReg a v).ldr = s.ldr := rfl
@[simp] theorem State.setReg_run (s : State) (a : Nat) (v : Word) :
    (s.setReg a v).run = s.run := rfl
@[simp] theorem State.setReg_svc (s : State) (a : Nat) (v : Word) :
    (s.setReg a v).svc = s.svc := rfl
@[simp] theorem State.setReg_led (s : State) (a : Nat) (v : Word) :
    (s.setReg a v).led = s.led := rfl
@[simp] theorem State.setReg_enc (s : State) (a : Nat) (v : Word) :
    (s.setReg a v).enc = s.enc := rfl
@[simp] theorem State.setReg_mem (s : State) (a : Nat) (v : Word) :
    (s.setReg a v).mem = s.mem := rfl
@[simp] theorem State.setReg_net (s : State) (a : Nat) (v : Word) :
    (s.setReg a v).net = s.net := rfl
@[simp] theorem State.setReg_ports (s : State) (a : Nat) (v : Word) :
    (s.setReg a v).ports = s.ports := rfl
@[simp] theorem State.setReg_tim (s : State) (a : Nat) (v : Word) :
    (s.setReg a v).tim = s.tim := rfl
@[simp] theorem State.setReg_acq (s : State) (a : Nat) (v : Word) :
    (s.setReg a v).acq = s.acq := rfl
@[simp] theorem State.setReg_prf (s : State) (a : Nat) (v : Word) :
    (s.setReg a v).prf = s.prf := rfl
@[simp] theorem State.setReg_sup (s : State) (a : Nat) (v : Word) :
    (s.setReg a v).sup = s.sup := rfl
@[simp] theorem State.setReg_pins (s : State) (a : Nat) (v : Word) :
    (s.setReg a v).pins = s.pins := rfl
@[simp] theorem State.setReg_chain (s : State) (a : Nat) (v : Word) :
    (s.setReg a v).chain = s.chain := rfl
@[simp] theorem State.setReg_con (s : State) (a : Nat) (v : Word) :
    (s.setReg a v).con = s.con := rfl
@[simp] theorem State.setReg_jtag (s : State) (a : Nat) (v : Word) :
    (s.setReg a v).jtag = s.jtag := rfl
@[simp] theorem State.setReg_host (s : State) (a : Nat) (v : Word) :
    (s.setReg a v).host = s.host := rfl
@[simp] theorem State.setReg_bst (s : State) (a : Nat) (v : Word) :
    (s.setReg a v).bst = s.bst := rfl
@[simp] theorem State.setReg_fuses (s : State) (a : Nat) (v : Word) :
    (s.setReg a v).fuses = s.fuses := rfl
@[simp] theorem State.setReg_flash (s : State) (a : Nat) (v : Word) :
    (s.setReg a v).flash = s.flash := rfl
@[simp] theorem State.setReg_freeCtr (s : State) (a : Nat) (v : Word) :
    (s.setReg a v).freeCtr = s.freeCtr := rfl

/-! ## A named register stored -/

@[simp] theorem State.wr_pending (s : State) (r : Reg) (v : Word) (i j k : Nat) :
    (s.wr r v i j k).pending = s.pending := rfl
@[simp] theorem State.wr_tiles (s : State) (r : Reg) (v : Word) (i j k : Nat) :
    (s.wr r v i j k).tiles = s.tiles := rfl
@[simp] theorem State.wr_ldr (s : State) (r : Reg) (v : Word) (i j k : Nat) :
    (s.wr r v i j k).ldr = s.ldr := rfl
@[simp] theorem State.wr_run (s : State) (r : Reg) (v : Word) (i j k : Nat) :
    (s.wr r v i j k).run = s.run := rfl
@[simp] theorem State.wr_svc (s : State) (r : Reg) (v : Word) (i j k : Nat) :
    (s.wr r v i j k).svc = s.svc := rfl
@[simp] theorem State.wr_led (s : State) (r : Reg) (v : Word) (i j k : Nat) :
    (s.wr r v i j k).led = s.led := rfl
@[simp] theorem State.wr_enc (s : State) (r : Reg) (v : Word) (i j k : Nat) :
    (s.wr r v i j k).enc = s.enc := rfl
@[simp] theorem State.wr_mem (s : State) (r : Reg) (v : Word) (i j k : Nat) :
    (s.wr r v i j k).mem = s.mem := rfl
@[simp] theorem State.wr_net (s : State) (r : Reg) (v : Word) (i j k : Nat) :
    (s.wr r v i j k).net = s.net := rfl
@[simp] theorem State.wr_ports (s : State) (r : Reg) (v : Word) (i j k : Nat) :
    (s.wr r v i j k).ports = s.ports := rfl
@[simp] theorem State.wr_tim (s : State) (r : Reg) (v : Word) (i j k : Nat) :
    (s.wr r v i j k).tim = s.tim := rfl
@[simp] theorem State.wr_acq (s : State) (r : Reg) (v : Word) (i j k : Nat) :
    (s.wr r v i j k).acq = s.acq := rfl
@[simp] theorem State.wr_prf (s : State) (r : Reg) (v : Word) (i j k : Nat) :
    (s.wr r v i j k).prf = s.prf := rfl
@[simp] theorem State.wr_sup (s : State) (r : Reg) (v : Word) (i j k : Nat) :
    (s.wr r v i j k).sup = s.sup := rfl
@[simp] theorem State.wr_pins (s : State) (r : Reg) (v : Word) (i j k : Nat) :
    (s.wr r v i j k).pins = s.pins := rfl
@[simp] theorem State.wr_chain (s : State) (r : Reg) (v : Word) (i j k : Nat) :
    (s.wr r v i j k).chain = s.chain := rfl
@[simp] theorem State.wr_con (s : State) (r : Reg) (v : Word) (i j k : Nat) :
    (s.wr r v i j k).con = s.con := rfl
@[simp] theorem State.wr_jtag (s : State) (r : Reg) (v : Word) (i j k : Nat) :
    (s.wr r v i j k).jtag = s.jtag := rfl
@[simp] theorem State.wr_host (s : State) (r : Reg) (v : Word) (i j k : Nat) :
    (s.wr r v i j k).host = s.host := rfl
@[simp] theorem State.wr_bst (s : State) (r : Reg) (v : Word) (i j k : Nat) :
    (s.wr r v i j k).bst = s.bst := rfl
@[simp] theorem State.wr_fuses (s : State) (r : Reg) (v : Word) (i j k : Nat) :
    (s.wr r v i j k).fuses = s.fuses := rfl
@[simp] theorem State.wr_flash (s : State) (r : Reg) (v : Word) (i j k : Nat) :
    (s.wr r v i j k).flash = s.flash := rfl
@[simp] theorem State.wr_freeCtr (s : State) (r : Reg) (v : Word) (i j k : Nat) :
    (s.wr r v i j k).freeCtr = s.freeCtr := rfl

/-! ## A tile stored -/

@[simp] theorem State.setTile_pending (s : State) (t : Nat) (x : Tile) :
    (s.setTile t x).pending = s.pending := rfl
@[simp] theorem State.setTile_regs (s : State) (t : Nat) (x : Tile) :
    (s.setTile t x).regs = s.regs := rfl
@[simp] theorem State.setTile_ldr (s : State) (t : Nat) (x : Tile) :
    (s.setTile t x).ldr = s.ldr := rfl
@[simp] theorem State.setTile_run (s : State) (t : Nat) (x : Tile) :
    (s.setTile t x).run = s.run := rfl
@[simp] theorem State.setTile_svc (s : State) (t : Nat) (x : Tile) :
    (s.setTile t x).svc = s.svc := rfl
@[simp] theorem State.setTile_led (s : State) (t : Nat) (x : Tile) :
    (s.setTile t x).led = s.led := rfl
@[simp] theorem State.setTile_enc (s : State) (t : Nat) (x : Tile) :
    (s.setTile t x).enc = s.enc := rfl
@[simp] theorem State.setTile_mem (s : State) (t : Nat) (x : Tile) :
    (s.setTile t x).mem = s.mem := rfl
@[simp] theorem State.setTile_net (s : State) (t : Nat) (x : Tile) :
    (s.setTile t x).net = s.net := rfl
@[simp] theorem State.setTile_ports (s : State) (t : Nat) (x : Tile) :
    (s.setTile t x).ports = s.ports := rfl
@[simp] theorem State.setTile_tim (s : State) (t : Nat) (x : Tile) :
    (s.setTile t x).tim = s.tim := rfl
@[simp] theorem State.setTile_acq (s : State) (t : Nat) (x : Tile) :
    (s.setTile t x).acq = s.acq := rfl
@[simp] theorem State.setTile_prf (s : State) (t : Nat) (x : Tile) :
    (s.setTile t x).prf = s.prf := rfl
@[simp] theorem State.setTile_sup (s : State) (t : Nat) (x : Tile) :
    (s.setTile t x).sup = s.sup := rfl
@[simp] theorem State.setTile_pins (s : State) (t : Nat) (x : Tile) :
    (s.setTile t x).pins = s.pins := rfl
@[simp] theorem State.setTile_chain (s : State) (t : Nat) (x : Tile) :
    (s.setTile t x).chain = s.chain := rfl
@[simp] theorem State.setTile_con (s : State) (t : Nat) (x : Tile) :
    (s.setTile t x).con = s.con := rfl
@[simp] theorem State.setTile_jtag (s : State) (t : Nat) (x : Tile) :
    (s.setTile t x).jtag = s.jtag := rfl
@[simp] theorem State.setTile_host (s : State) (t : Nat) (x : Tile) :
    (s.setTile t x).host = s.host := rfl
@[simp] theorem State.setTile_bst (s : State) (t : Nat) (x : Tile) :
    (s.setTile t x).bst = s.bst := rfl
@[simp] theorem State.setTile_fuses (s : State) (t : Nat) (x : Tile) :
    (s.setTile t x).fuses = s.fuses := rfl
@[simp] theorem State.setTile_flash (s : State) (t : Nat) (x : Tile) :
    (s.setTile t x).flash = s.flash := rfl
@[simp] theorem State.setTile_freeCtr (s : State) (t : Nat) (x : Tile) :
    (s.setTile t x).freeCtr = s.freeCtr := rfl

/-! ## A port stored -/

@[simp] theorem State.setPort_pending (s : State) (lp : Nat) (x : LogicalPort) :
    (s.setPort lp x).pending = s.pending := rfl
@[simp] theorem State.setPort_regs (s : State) (lp : Nat) (x : LogicalPort) :
    (s.setPort lp x).regs = s.regs := rfl
@[simp] theorem State.setPort_tiles (s : State) (lp : Nat) (x : LogicalPort) :
    (s.setPort lp x).tiles = s.tiles := rfl
@[simp] theorem State.setPort_ldr (s : State) (lp : Nat) (x : LogicalPort) :
    (s.setPort lp x).ldr = s.ldr := rfl
@[simp] theorem State.setPort_run (s : State) (lp : Nat) (x : LogicalPort) :
    (s.setPort lp x).run = s.run := rfl
@[simp] theorem State.setPort_svc (s : State) (lp : Nat) (x : LogicalPort) :
    (s.setPort lp x).svc = s.svc := rfl
@[simp] theorem State.setPort_led (s : State) (lp : Nat) (x : LogicalPort) :
    (s.setPort lp x).led = s.led := rfl
@[simp] theorem State.setPort_enc (s : State) (lp : Nat) (x : LogicalPort) :
    (s.setPort lp x).enc = s.enc := rfl
@[simp] theorem State.setPort_mem (s : State) (lp : Nat) (x : LogicalPort) :
    (s.setPort lp x).mem = s.mem := rfl
@[simp] theorem State.setPort_net (s : State) (lp : Nat) (x : LogicalPort) :
    (s.setPort lp x).net = s.net := rfl
@[simp] theorem State.setPort_tim (s : State) (lp : Nat) (x : LogicalPort) :
    (s.setPort lp x).tim = s.tim := rfl
@[simp] theorem State.setPort_acq (s : State) (lp : Nat) (x : LogicalPort) :
    (s.setPort lp x).acq = s.acq := rfl
@[simp] theorem State.setPort_prf (s : State) (lp : Nat) (x : LogicalPort) :
    (s.setPort lp x).prf = s.prf := rfl
@[simp] theorem State.setPort_sup (s : State) (lp : Nat) (x : LogicalPort) :
    (s.setPort lp x).sup = s.sup := rfl
@[simp] theorem State.setPort_pins (s : State) (lp : Nat) (x : LogicalPort) :
    (s.setPort lp x).pins = s.pins := rfl
@[simp] theorem State.setPort_chain (s : State) (lp : Nat) (x : LogicalPort) :
    (s.setPort lp x).chain = s.chain := rfl
@[simp] theorem State.setPort_con (s : State) (lp : Nat) (x : LogicalPort) :
    (s.setPort lp x).con = s.con := rfl
@[simp] theorem State.setPort_jtag (s : State) (lp : Nat) (x : LogicalPort) :
    (s.setPort lp x).jtag = s.jtag := rfl
@[simp] theorem State.setPort_host (s : State) (lp : Nat) (x : LogicalPort) :
    (s.setPort lp x).host = s.host := rfl
@[simp] theorem State.setPort_bst (s : State) (lp : Nat) (x : LogicalPort) :
    (s.setPort lp x).bst = s.bst := rfl
@[simp] theorem State.setPort_fuses (s : State) (lp : Nat) (x : LogicalPort) :
    (s.setPort lp x).fuses = s.fuses := rfl
@[simp] theorem State.setPort_flash (s : State) (lp : Nat) (x : LogicalPort) :
    (s.setPort lp x).flash = s.flash := rfl
@[simp] theorem State.setPort_freeCtr (s : State) (lp : Nat) (x : LogicalPort) :
    (s.setPort lp x).freeCtr = s.freeCtr := rfl

/-! ## A fresh free word taken -/

@[simp] theorem State.free_pending (s : State) :
    (s.free.2).pending = s.pending := rfl
@[simp] theorem State.free_regs (s : State) :
    (s.free.2).regs = s.regs := rfl
@[simp] theorem State.free_tiles (s : State) :
    (s.free.2).tiles = s.tiles := rfl
@[simp] theorem State.free_ldr (s : State) :
    (s.free.2).ldr = s.ldr := rfl
@[simp] theorem State.free_run (s : State) :
    (s.free.2).run = s.run := rfl
@[simp] theorem State.free_svc (s : State) :
    (s.free.2).svc = s.svc := rfl
@[simp] theorem State.free_led (s : State) :
    (s.free.2).led = s.led := rfl
@[simp] theorem State.free_enc (s : State) :
    (s.free.2).enc = s.enc := rfl
@[simp] theorem State.free_mem (s : State) :
    (s.free.2).mem = s.mem := rfl
@[simp] theorem State.free_net (s : State) :
    (s.free.2).net = s.net := rfl
@[simp] theorem State.free_ports (s : State) :
    (s.free.2).ports = s.ports := rfl
@[simp] theorem State.free_tim (s : State) :
    (s.free.2).tim = s.tim := rfl
@[simp] theorem State.free_acq (s : State) :
    (s.free.2).acq = s.acq := rfl
@[simp] theorem State.free_prf (s : State) :
    (s.free.2).prf = s.prf := rfl
@[simp] theorem State.free_sup (s : State) :
    (s.free.2).sup = s.sup := rfl
@[simp] theorem State.free_pins (s : State) :
    (s.free.2).pins = s.pins := rfl
@[simp] theorem State.free_chain (s : State) :
    (s.free.2).chain = s.chain := rfl
@[simp] theorem State.free_con (s : State) :
    (s.free.2).con = s.con := rfl
@[simp] theorem State.free_jtag (s : State) :
    (s.free.2).jtag = s.jtag := rfl
@[simp] theorem State.free_host (s : State) :
    (s.free.2).host = s.host := rfl
@[simp] theorem State.free_bst (s : State) :
    (s.free.2).bst = s.bst := rfl
@[simp] theorem State.free_fuses (s : State) :
    (s.free.2).fuses = s.fuses := rfl
@[simp] theorem State.free_flash (s : State) :
    (s.free.2).flash = s.flash := rfl

/-! ## Data returned to the master that reads -/

@[simp] theorem State.answer_pending (s : State) (v : List Word) :
    (s.answer v).pending = s.pending := rfl
@[simp] theorem State.answer_regs (s : State) (v : List Word) :
    (s.answer v).regs = s.regs := rfl
@[simp] theorem State.answer_tiles (s : State) (v : List Word) :
    (s.answer v).tiles = s.tiles := rfl
@[simp] theorem State.answer_ldr (s : State) (v : List Word) :
    (s.answer v).ldr = s.ldr := rfl
@[simp] theorem State.answer_run (s : State) (v : List Word) :
    (s.answer v).run = s.run := rfl
@[simp] theorem State.answer_svc (s : State) (v : List Word) :
    (s.answer v).svc = s.svc := rfl
@[simp] theorem State.answer_led (s : State) (v : List Word) :
    (s.answer v).led = s.led := rfl
@[simp] theorem State.answer_enc (s : State) (v : List Word) :
    (s.answer v).enc = s.enc := rfl
@[simp] theorem State.answer_mem (s : State) (v : List Word) :
    (s.answer v).mem = s.mem := rfl
@[simp] theorem State.answer_net (s : State) (v : List Word) :
    (s.answer v).net = s.net := rfl
@[simp] theorem State.answer_ports (s : State) (v : List Word) :
    (s.answer v).ports = s.ports := rfl
@[simp] theorem State.answer_tim (s : State) (v : List Word) :
    (s.answer v).tim = s.tim := rfl
@[simp] theorem State.answer_acq (s : State) (v : List Word) :
    (s.answer v).acq = s.acq := rfl
@[simp] theorem State.answer_prf (s : State) (v : List Word) :
    (s.answer v).prf = s.prf := rfl
@[simp] theorem State.answer_sup (s : State) (v : List Word) :
    (s.answer v).sup = s.sup := rfl
@[simp] theorem State.answer_pins (s : State) (v : List Word) :
    (s.answer v).pins = s.pins := rfl
@[simp] theorem State.answer_chain (s : State) (v : List Word) :
    (s.answer v).chain = s.chain := rfl
@[simp] theorem State.answer_con (s : State) (v : List Word) :
    (s.answer v).con = s.con := rfl
@[simp] theorem State.answer_jtag (s : State) (v : List Word) :
    (s.answer v).jtag = s.jtag := rfl
@[simp] theorem State.answer_bst (s : State) (v : List Word) :
    (s.answer v).bst = s.bst := rfl
@[simp] theorem State.answer_fuses (s : State) (v : List Word) :
    (s.answer v).fuses = s.fuses := rfl
@[simp] theorem State.answer_flash (s : State) (v : List Word) :
    (s.answer v).flash = s.flash := rfl
@[simp] theorem State.answer_freeCtr (s : State) (v : List Word) :
    (s.answer v).freeCtr = s.freeCtr := rfl

/-! ## What is stored -/

/-- A register reads back what was stored in it, and every other register reads as before. -/
theorem State.reg_setReg {s : State} {a b : Nat} {v : Word} (w : Table.wf regInit s.regs = true) :
    (s.setReg a v).reg b = if b = a then v else s.reg b := Table.get_set w

/-- Storing a register keeps the registers canonical. -/
theorem State.wf_setReg {s : State} {a : Nat} {v : Word} (w : Table.wf regInit s.regs = true) :
    Table.wf regInit (s.setReg a v).regs = true := Table.wf_set w

/-- A named register reads back what was stored in it. -/
theorem State.rd_wr {s : State} {r : Reg} {v : Word} {i j k : Nat} (w : Table.wf regInit s.regs = true) :
    (s.wr r v i j k).rd r i j k = v := by
  simp [State.rd, State.wr, State.reg_setReg w]

/-- Storing a named register changes only the register at its address. -/
theorem State.reg_wr {s : State} {r : Reg} {v : Word} {i j k b : Nat} (w : Table.wf regInit s.regs = true) :
    (s.wr r v i j k).reg b = if b = r.addr i j k then v else s.reg b := State.reg_setReg w

/-- A tile reads back what was stored, and every other tile reads as before. -/
theorem State.tile_setTile {s : State} {t k : Nat} {x : Tile}
    (w : Table.wf (fun _ => Tile.reset) s.tiles = true) :
    (s.setTile t x).tile k = if k = t then x else s.tile k := Table.get_set w

/-- Storing a tile keeps the tiles canonical. -/
theorem State.wf_setTile {s : State} {t : Nat} {x : Tile} (w : Table.wf (fun _ => Tile.reset) s.tiles = true) :
    Table.wf (fun _ => Tile.reset) (s.setTile t x).tiles = true := Table.wf_set w

/-- A port reads back what was stored, and every other port reads as before. -/
theorem State.port_setPort {s : State} {lp q : Nat} {x : LogicalPort}
    (w : Table.wf (fun _ => LogicalPort.reset) s.ports = true) :
    (s.setPort lp x).port q = if q = lp then x else s.port q := Table.get_set w

/-- Storing a port keeps the ports canonical. -/
theorem State.wf_setPort {s : State} {lp : Nat} {x : LogicalPort}
    (w : Table.wf (fun _ => LogicalPort.reset) s.ports = true) :
    Table.wf (fun _ => LogicalPort.reset) (s.setPort lp x).ports = true := Table.wf_set w

/-- Tiles read the same in states with the same tiles. -/
theorem State.tile_congr {s r : State} (h : r.tiles = s.tiles) (t : Nat) : r.tile t = s.tile t := by
  simp [State.tile, h]

/-- Registers read the same in states with the same registers. -/
theorem State.reg_congr {s r : State} (h : r.regs = s.regs) (a : Nat) : r.reg a = s.reg a := by
  simp [State.reg, h]

/-- Storing a register leaves every tile alone. -/
@[simp] theorem State.setReg_tile (s : State) (a : Nat) (v : Word) (t : Nat) : (s.setReg a v).tile t = s.tile t := rfl

/-- Storing a tile leaves every register alone. -/
@[simp] theorem State.setTile_reg (s : State) (t : Nat) (x : Tile) (a : Nat) : (s.setTile t x).reg a = s.reg a := rfl

end Sys2Proof.Machine
end

