-- ==== Sys2Proof/Laws/Ops.lean ====
section
/-! SUPPORT. What the shared operations of Machine/Ops.lean can do, said once for each. -/

namespace Sys2Proof.Machine

/-! ## Parts left alone -/

theorem Only.refl (l : List Part) (s : State) : Only l s s :=
  ⟨rfl, fun p _ => by cases p <;> rfl⟩

theorem Part.same_trans {s t r : State} {p : Part} (h : p.same s t) (g : p.same t r) : p.same s r := by
  cases p <;> exact Eq.trans g h

/-- What two steps leave alone together. -/
theorem Only.trans {l : List Part} {s t r : State} (h : Only l s t) (g : Only l t r) : Only l s r :=
  ⟨g.1.trans h.1, fun p hp => Part.same_trans (h.2 p hp) (g.2 p hp)⟩

/-- Naming more parts says less. -/
theorem Only.mono {l m : List Part} {s t : State} (h : Only l s t) (sub : ∀ p ∈ l, p ∈ m) : Only m s t :=
  ⟨h.1, fun p hp => h.2 p fun hl => hp (sub p hl)⟩

theorem RegsBut.refl (l : List Nat) (s : State) : RegsBut l s s := fun _ _ => rfl

theorem RegsBut.trans {l : List Nat} {s t r : State} (h : RegsBut l s t) (g : RegsBut l t r) : RegsBut l s r :=
  fun a ha => (g a ha).trans (h a ha)

theorem RegsBut.mono {l m : List Nat} {s t : State} (h : RegsBut l s t) (sub : ∀ a ∈ l, a ∈ m) : RegsBut m s t :=
  fun a ha => h a fun hl => ha (sub a hl)

/-- States with the same registers agree on all of them. -/
theorem RegsBut.of_eq {l : List Nat} {s t : State} (h : t.regs = s.regs) : RegsBut l s t :=
  fun a _ => State.reg_congr h a

/-! ## Guards -/

/-- A guarded command answers a next state only where its unit exists, and then as the command itself. -/
@[simp] theorem guardUnit_next {ok : Bool} {k : Out} {t : State} :
    guardUnit ok k = .next t ↔ ok = true ∧ k = .next t := by
  cases ok <;> simp [guardUnit]

theorem onTile_next {t : Nat} {k : Out} {r : State} :
    onTile t k = .next r ↔ t < 136 ∧ k = .next r := by
  rw [onTile, guardUnit_next, decide_eq_true_iff, numTiles]

/-- An event that is not due leaves the state as it is. -/
@[simp] theorem whenDue_next {due : Bool} {s t r : State} :
    whenDue due s t = .next r ↔ r = if due then t else s := by
  simp [whenDue, eq_comm]

/-- A register write acts when the page is reached and not being reset, and is dropped otherwise. -/
theorem onWrite_next {page : Nat} {s r : State} {k : Out} :
    onWrite page s k = .next r ↔
      (s.reachable = true ∧ s.srst page = false ∧ k = .next r) ∨
      ((s.reachable = false ∨ s.srst page = true) ∧ r = s) := by
  cases h : s.reachable <;> cases g : s.srst page <;> simp [onWrite, h, g, eq_comm]

/-- A register read answers 0 through a path that does not reach the page, and as the register's read
otherwise. -/
theorem onRead_next {page : Nat} {via : Via} {s r : State} {k : Out} :
    onRead page via s k = .next r ↔
      ((via == .i2c || s.reachable) && !s.hidden page via) = true ∧ k = .next r ∨
      ((via == .i2c || s.reachable) && !s.hidden page via) = false ∧ r = s.answer [0] := by
  cases h : ((via == .i2c || s.reachable) && !s.hidden page via) <;> simp [onRead, h, eq_comm]

/-! ## Console, interrupts and errors -/

theorem State.sayLine_only (s : State) (l : List Byte) : Only [.con] s (s.sayLine l) := by
  refine ⟨?_, fun p hp => ?_⟩
  · unfold State.sayLine; split <;> rfl
  · unfold State.sayLine; split <;> cases p <;> first | rfl | simp at hp

theorem State.event_only (s : State) (c : Nat) (f : List (List Byte)) : Only [.con] s (s.event c f) := by
  unfold State.event
  split
  · exact State.sayLine_only _ _
  · exact Only.refl _ _

@[simp] theorem State.event_regs (s : State) (c : Nat) (f : List (List Byte)) : (s.event c f).regs = s.regs :=
  (State.event_only s c f).2 .regs (by simp)

@[simp] theorem State.event_reg (s : State) (c : Nat) (f : List (List Byte)) (a : Nat) :
    (s.event c f).reg a = s.reg a := State.reg_congr (State.event_regs s c f) a

/-- A message changes what is sent or pending on the PCIe side, and nothing else. -/
theorem State.msix_only (s : State) (v : Nat) : Only [.host] s (s.msix v) := by
  refine ⟨?_, fun p hp => ?_⟩
  · unfold State.msix; split
    · split <;> rfl
    · rfl
  · unfold State.msix; split
    · split <;> cases p <;> first | rfl | simp at hp
    · cases p <;> first | rfl | simp at hp

theorem State.setReg_only (s : State) (a : Nat) (v : Word) : Only [.regs] s (s.setReg a v) :=
  ⟨rfl, fun p hp => by cases p <;> first | rfl | simp at hp⟩

/-- Storing a register leaves every other register alone. -/
theorem State.setReg_regsBut {s : State} (w : Table.wf regInit s.regs = true) (a : Nat) (v : Word) :
    RegsBut [a] s (s.setReg a v) := fun b hb => by
  rw [State.reg_setReg w, if_neg (by simpa using hb)]

/-- Raising causes of a page changes PG_INT_STAT of the page and what is sent. -/
theorem State.raise_only (s : State) (page : Nat) (m : Word) : Only [.regs, .host] s (s.raise page m) := by
  have h : Only [.regs, .host] s (s.setReg (page + 0xC) (s.reg (page + 0xC) ||| m)) :=
    (State.setReg_only _ _ _).mono (by simp)
  unfold State.raise
  dsimp only
  split
  · exact h.trans ((State.msix_only _ _).mono (by simp))
  · exact h

theorem State.raise_regs (s : State) (page : Nat) (m : Word) :
    (s.raise page m).regs = (s.setReg (page + 0xC) (s.reg (page + 0xC) ||| m)).regs := by
  unfold State.raise
  dsimp only
  split
  · exact (State.msix_only _ _).2 .regs (by simp)
  · rfl

theorem State.wf_raise {s : State} (w : Table.wf regInit s.regs = true) (page : Nat) (m : Word) :
    Table.wf regInit (s.raise page m).regs = true := by
  rw [State.raise_regs]; exact State.wf_setReg w

/-- The causes raised are set beside those that were, and no other register changes. -/
theorem State.reg_raise {s : State} (w : Table.wf regInit s.regs = true) (page a : Nat) (m : Word) :
    (s.raise page m).reg a = if a = page + 0xC then s.reg a ||| m else s.reg a := by
  rw [State.reg_congr (State.raise_regs s page m), State.reg_setReg w]
  split
  · rename_i h; rw [h]
  · rfl

/-- An alert bit changes GLB_ALERT and nothing else. -/
theorem State.alert_only (s : State) (i : Nat) (b : Bool) : Only [.regs] s (s.alert i b) :=
  State.setReg_only _ _ _

/-- Recording an error changes registers, the console and what is sent. -/
theorem State.err_only (s : State) (page code info : Nat) : Only [.regs, .con, .host] s (s.err page code info) := by
  have e1 : ∀ (t : State) (a : Nat) (v : Word), Only [.regs, .con, .host] t (t.setReg a v) :=
    fun t a v => (State.setReg_only t a v).mono (by simp)
  have e2 : ∀ t : State, Only [.regs, .con, .host] t (t.cause page 0) :=
    fun t => (State.raise_only t _ _).mono (by simp)
  unfold State.err
  dsimp only
  split
  · exact ((e1 _ _ _).trans ((e1 _ _ _).trans ((State.event_only _ _ _).mono (by simp)))).trans (e2 _)
  · exact (e1 _ _ _).trans (e2 _)

theorem State.wf_err {s : State} (w : Table.wf regInit s.regs = true) (page code info : Nat) :
    Table.wf regInit (s.err page code info).regs = true := by
  unfold State.err
  dsimp only
  split
  · exact State.wf_raise (by rw [State.event_regs]; exact State.wf_setReg (State.wf_setReg w)) _ _
  · exact State.wf_raise (State.wf_setReg w) _ _

/-- Recording an error changes only PG_INT_STAT, PG_ERR_STAT and PG_ERR_INFO of its page. -/
theorem State.err_regsBut {s : State} (w : Table.wf regInit s.regs = true) (page code info : Nat) :
    RegsBut (errRegs page) s (s.err page code info) := by
  intro a ha
  simp only [errRegs, List.mem_cons, List.not_mem_nil, or_false, not_or] at ha
  unfold State.err
  dsimp only
  split
  · rw [State.cause, State.reg_raise (by rw [State.event_regs]; exact State.wf_setReg (State.wf_setReg w)),
      if_neg ha.1, State.event_reg, State.reg_setReg (State.wf_setReg w), if_neg ha.2.2, State.reg_setReg w,
      if_neg ha.2.1]
  · rw [State.cause, State.reg_raise (State.wf_setReg w), if_neg ha.1, State.reg_setReg w, if_neg ha.2.1]

/-- The first error of a page stands in PG_ERR_STAT with COUNT 1. -/
theorem State.err_first {s : State} (w : Table.wf regInit s.regs = true) {page : Nat} (code info : Nat)
    (h : bits (s.reg (page + 0x18)) 31 16 = 0) :
    (s.err page code info).reg (page + 0x18) = BitVec.ofNat 32 (0x10000 + code) ∧
    (s.err page code info).reg (page + 0x1C) = BitVec.ofNat 32 info := by
  unfold State.err
  simp only [h, if_true]
  have w2 := State.wf_setReg (a := page + 0x1C) (v := BitVec.ofNat 32 info)
    (State.wf_setReg (a := page + 0x18) (v := BitVec.ofNat 32 (0x10000 + code)) w)
  constructor
  · rw [State.cause, State.reg_raise (by rw [State.event_regs]; exact w2), if_neg (by omega), State.event_reg,
      State.reg_setReg (State.wf_setReg w), if_neg (by omega), State.reg_setReg w, if_pos rfl]
  · rw [State.cause, State.reg_raise (by rw [State.event_regs]; exact w2), if_neg (by omega), State.event_reg,
      State.reg_setReg (State.wf_setReg w), if_pos rfl]

/-! ## Run state -/

/-- A change of the run state changes run control and the console. -/
theorem State.setRun_only (s : State) (r : RunState) : Only [.run, .con] s (s.setRun r) := by
  unfold State.setRun
  split
  · exact Only.refl _ _
  · exact Only.trans (t := { s with run := { s.run with state := r } })
      ⟨rfl, fun p hp => by cases p <;> first | rfl | simp at hp⟩ ((State.event_only _ _ _).mono (by simp))

/-- A halt request changes run control, the requests that a pause keeps, and the console. -/
theorem State.haltRequest_only (s : State) (c : Nat) : Only [.run, .con, .prf] s (s.haltRequest c) := by
  unfold State.haltRequest
  split
  · exact Only.refl _ _
  · exact Only.refl _ _
  · exact ⟨rfl, fun p hp => by cases p <;> first | rfl | simp at hp⟩
  · exact Only.trans (t := { s with run := { s.run with causes := s.run.causes ||| causeBit c } })
      ⟨rfl, fun p hp => by cases p <;> first | rfl | simp at hp⟩ ((State.setRun_only _ _).mono (by simp))
  · exact ⟨rfl, fun p hp => by cases p <;> first | rfl | simp at hp⟩

/-- A read that clears changes its register and the data returned. -/
theorem State.readClear_only (s : State) (page : Nat) (via : Via) (r : Reg) (m : Word) (i j : Nat) :
    Only [.regs, .host] s (s.readClear page via r m i j) := by
  have h : ∀ (t : State) (v : List Word), Only [.regs, .host] t (t.answer v) :=
    fun t v => ⟨rfl, fun p hp => by cases p <;> first | rfl | simp at hp⟩
  unfold State.readClear
  simp only
  split
  · exact h _ _
  · exact ((State.setReg_only _ _ _).mono (by simp)).trans (h _ _)

/-! ## Time between base ticks (R386, R388) -/

/-- The base ticks of REFCLK100 that go back are what the AON time base then interpolates. -/
theorem aonBase_interp (x : BitVec 104) (n : Nat) :
    x - BitVec.ofNat 104 (n / 16 * (10 * 2 ^ 40)) + BitVec.ofNat 104 (n * (5 * 2 ^ 37)) =
      x + BitVec.ofNat 104 (n % 16 * (5 * 2 ^ 37)) := by
  have h : n * (5 * 2 ^ 37) = n % 16 * (5 * 2 ^ 37) + n / 16 * (10 * 2 ^ 40) := by omega
  rw [h, BitVec.ofNat_add]
  ring

/-- Output time takes no step when the time base passes to AON. -/
theorem State.toAonBase_outNow {s : State} (h : s.tim.ref = true) : s.toAonBase.outNow = s.outNow := by
  simp only [State.outNow, State.interp, State.toAonBase, h, if_true, Bool.false_eq_true, if_false]
  exact aonBase_interp _ _

end Sys2Proof.Machine
end

