-- ==== Sys2Proof/Tests/Slice0.lean ====
section
/-! SUPPORT. Tests: one ill-formed term for each check of WellFormed, small tests of single steps on values taken
from the spec, and for every statement that has hypotheses a state and operands that meet them, clause by clause. -/

namespace Sys2Proof.Tests

set_option Elab.async false

open Sys2Proof Sys2Proof.Machine

/-! ## States for tests -/

/-- A register put among others, keys rising. -/
def ins (k : Nat) (v : Word) : Table Word → Table Word
  | [] => [(k, v)]
  | (a, x) :: rest => if k = a then (k, v) :: rest else if k < a then (k, v) :: (a, x) :: rest else (a, x) :: ins k v rest

/-- A state with registers put to values that are not their reset values. -/
def put (s : State) (l : List (Nat × Word)) : State :=
  { s with regs := l.foldl (fun m e => ins e.1 e.2 m) s.regs }

/-- A device after start-up, idle, with 1 GiB of plaintext DDR under region 0 that every class may use. -/
def up : State :=
  put { State.reset with sup := { Supply.reset with power := .running, pcieUp := true, stepPllOn := true } }
    [(Reg.addr .memCapUse, 1024), (Reg.addr .encRgnCtrl, 0x8000FFFF), (Reg.addr .encRgnLimit, 0x3FF)]

/-- An image in service. -/
def served (s : State) : State :=
  { s with ldr := { Loader.reset with state := .service, inService := true, setReset := false, image := some ⟨1, 0, 1, false, 0, 0, 0, 0, 0, 0⟩ } }

/-- A device in a batch of a run, with tile 0 serving virtual tile 0. -/
def running (x : Tile) : State :=
  put { served up with
    run := { RunCtl.reset with state := .run, inBatch := true }
    tiles := [(0, { x with vtile := some 0, phase := .exec })] } [(Reg.addr .glbVmap 0, 0x80000000)]

/-- Tile 0 at step 5 of a batch. -/
def t5 : Tile := { Tile.reset with step := 5 }

/-- Operand fields of a word unit instruction that reads registers 1 and 2 and writes register 7. -/
def fs : WuFields := ⟨false, false, 7, 1, 2, 3, 0, 0, 0, 0, 0, 0, 0⟩


/-- Registers 1 and 2 of word unit 3 of tile 0, and an entry of each kind in its destination table. -/
def t5r : Tile := { t5 with
  wuReg := [(769, 0x80000005), (770, 3), (771, 0x12345678)]
  dest := [(1, 0x4000000000000206), (2, 0x8000000000000200), (3, 0xC000000000000206), (4, 0xC000000001000206)] }

/-- Operands for EXT, INS and MRG: pos 4, w 8. -/
def fx : WuFields := { fs with p1 := 4, p2 := 8 }

/-- A full retry buffer. -/
def aPkt : Packet := ⟨1, 0, 1, 1, 0, 0, 0, 0, 0, 0, 0, .flag, 0, 4, 2, 0, 3⟩
def tFull : Tile := { t5r with retry := List.replicate 32 ⟨aPkt, .held⟩ }

/-- A pantry store of word unit 3 that is due, and the tile that owns its bank. -/
def aStore : PanAccess := ⟨3, 3, .st, 0x104, 4, 0xAABBCCDD, 0, 7, false⟩
def ownBank0 (s : State) : State := put s [(Reg.addr .tilPanOwn 0 0, 0x00000100)]
def tStore : Tile := { t5r with accesses := [aStore] }

/-- A product that has become due, with its tap. -/
def aResult : WuResult := ⟨3, 5, 8, 0x11112222, some 0x33334444, 0x33334444, true⟩
def tResult : Tile := { t5r with results := [aResult] }

/-- A tile whose flag 9 holds 3, that waits for 2 of it in step 5. -/
def tWait : Tile := { t5 with
  flags := [(9, 3)], hold := some ⟨.wait, 9, 2, 100⟩, ctrl := [(5, 0x10248000)] }
def held9 (k : HoldKind) (ns : Nat) : Hold := ⟨k, 9, 2, ns⟩
def tHold (k : HoldKind) (ns : Nat) : Tile := { t5r with hold := some ⟨k, 9, 2, ns⟩, ctrl := [(5, 0x30100000)] }

/-- Packets for tile 0. -/
def pMbx : Packet := { aPkt with dstDev := 0, count := 0, next := 0, kind := .mailbox, index := 63, flag := 1023, data := 0xFEDC }
def pQue : Packet := { pMbx with kind := .queue, index := 5 }
def ans0 : Answer := ⟨0, 1, 0, 0, 0, 0, 0, .accepted, 2, 0⟩
def withNet (s : State) (n : Network) : State := { s with net := n }
/-- A due access of word unit 3, alone in the tile, in words of bank 0 that the tile owns. -/
def acc (op : PanOp) (addr : BitVec 20) (size : Nat) : PanAccess := ⟨3, 3, op, addr, size, 0xAABBCCDD, 0x55667788, 7, true⟩
def accTile (p : PanAccess) : Tile :=
  { t5r with accesses := [p], pantry := [(0, 0x31), (3, 0x34), (0x104, 0x11), (0x105, 0x12), (0x107, 0x14), (0x108, 0x21), (0x10B, 0x24)] }
def accOwned (p : PanAccess) : State := ownBank0 (running (accTile p))
/-- Destination entries: an own virtual tile that is not served, and a mailbox, a flag and a queue of device 1. -/
def tDest : Tile := { t5r with dest := [(5, 0x40000000000C0A06), (6, 0x4000000001120380), (7, 0x8000000001120380), (8, 0xC000000001000206)] }
def routed (s : State) : State := put s [(Reg.addr .nocRtLo 1, 0xC), (Reg.addr .nocRtHi 1, 0x82000000)]
/-- A remote packet for tile 0, tagged `n`; the tile's exchange batch is 41. -/
def arriving (n : Nat) (f : Tile → Tile) : State :=
  withNet (running (f { t5 with xbatch := 41 })) { Network.reset with arrivals := [{ pMbx with tag := BitVec.ofNat 64 n }] }

/-- A running device with something in its memories, a key, an active port and read temperatures. -/
def busy : State :=
  let s := running t5r
  { s with
    mem := { s.mem with ddr := [(3, 0x11), (64, 0x22), (200, 0x33)], larder := [(5, 9), (524288, 4)] }
    ports := [(2, { LogicalPort.reset with state := .active })]
    enc := { s.enc with slots := [(1, some ⟨1, 2⟩)], kt := some 3 }
    led := { s.led with sensors := (List.range 48).map fun k => (k, some (400 - (k : Int))) } }

def withSup (s : State) (p : Power) (f : Supply → Supply) : State := { s with sup := f { s.sup with power := p } }
def idle (s : State) : State := { s with run := { s.run with state := .halted, inBatch := false, resumable := true } }
def starting : State :=
  withSup { up with chain := { up.chain with stable := true } } .starting fun p =>
    { p with ns := 1000000000, autoload := true, pcieRetry := true, pcieUp := false, pcieNs := 20000000 }
def bootBits (s : State) (w : Word) : State := put s [(Reg.addr .glbBootStat, w)]
def onChain (s : State) (c : Chain) : State := { s with chain := c }
def chain7 : Chain := { Chain.reset with id := 7, valid := true, stable := true }
def masked (s : State) (l pend : List Nat) : State := { s with host := { s.host with masked := l, pendingBits := pend } }
def withPorter (s : State) (l : List (Nat × List (Nat × Nat × Nat × Bool))) (d : List (Nat × Nat)) : State :=
  { s with host := { s.host with porter := l, drains := d } }
def criItem : SvcItem := ⟨4, .crier, 0x60, 0, 9, 0, 0, true, 0, 0, some 1, some 2, some 3, none, [], 0, .ready, 0, false, 0, 0⟩
def withSvc (s : State) (v : Service) : State := { s with svc := v }
def aDesc : Descriptor := ⟨0x1000, 0x80010, 4, 7, 0, true, true, 1, false⟩
def larder1Porter (s : State) : State :=
  put s [(Reg.addr .memLown 1, 0x00000303), (Reg.addr .pciPorterTail 3, 6), (Reg.addr .pciPorterHead 3, 5)]
def coldOnes (s : State) (v : Int) : State := { s with led := { s.led with sensors := [(0, some v)] } }

/-- An item of the supervisor queue or of a tile, running on engine 5. -/
def supItem (ty : Byte) (w0 w1 t0 t1 t2 : DWord) : SvcItem :=
  ⟨7, .sup, ty, 0, 9, w0, w1, true, 0, 0, some t0, some t1, some t2, none, [], 0xAB, .running 5, 0, false, 0, 0⟩
def tileItem (ty : Byte) (t0 : DWord) : SvcItem :=
  { supItem ty (2 ^ 34 + 9 * 2 ^ 43 + 5 * 2 ^ 53 + 2 * 2 ^ 59) 0 t0 0 0 with source := .tile 0, batch := 0, tmplNo := 3 }
def onEng (s : State) (i : SvcItem) : State :=
  { s with svc := { Service.reset with nextId := 9, store := [i], engines := [(5, some i.id)] } }
def rings (s : State) : State :=
  put s [(Reg.addr .svcXoutBaseLo 2, 0x1001), (Reg.addr .svcXinBaseLo 2, 0x2001),
    (Reg.addr .svcXoutPtr 2, 0x0001000F), (Reg.addr .svcXinPtr 2, 0x0005000F)]
def fullRing (s : State) : State :=
  put s [(Reg.addr .svcXoutBaseLo 2, 0x1001), (Reg.addr .svcXoutPtr 2, 0x0000000F)]
def parkedItem : SvcItem := { tileItem 0x10 1 with stage := .parked 2 }
def parkedIn : SvcItem := { tileItem 0x11 1 with stage := .parked 2 }
def parkOn (s : State) (i : SvcItem) : State :=
  { s with svc := { Service.reset with nextId := 9, store := [i], parkOrder := [i.id] } }
def cachedLine : CacheLine := ⟨3, 0x1234, true, 0, 0, 3⟩
def withCache (s : State) (l : List CacheLine) : State := { s with svc := { s.svc with cache := l } }
def cacheBank0 (s : State) : State := put s [(Reg.addr .memLown 0, 0x600)]
def leadTok : Token := ⟨0x55, 0, 0, 0, 3, 0x0400001001, true⟩
def tok1 : Token := ⟨0x66, 0, 0, 1, 3, 0x0400003001, false⟩
def openItem : SvcItem := { tileItem 0x01 5 with w0 := 0x400003001, stage := .collecting, t1 := none, t2 := none, tokVt := [] }
def withTok (s : State) (tk : Token) (l : List SvcItem) : State :=
  { s with svc := { Service.reset with nextId := 9, tokens := [tk], store := l } }
def cpl0 : HostCpl := ⟨7, 0xAB, 3, 0x1122334455667788⟩
def cpl1 : HostCpl := ⟨8, 1, 0, 2⟩
def qWord0 : Nat := Reg.addr .svcHqDesc 0 0
def fullQueue (s : State) : State :=
  { s with svc := { Service.reset with nextId := 99, store := List.replicate 64 { supItem 1 0 0 0 0 0 with stage := .done } } }
def aDir : DirEntry := ⟨6, 40, 2 ^ 40, true, false, false, false, some 1, 2, none, 0, 0⟩
def liveAcq (s : State) (a : Acq) : State :=
  put { s with acq := { a with state := .live, banks := [1] } }
    [(Reg.addr .acqSpillBaseLo, 0x8000), (Reg.addr .acqDirBaseLo, 0x4001), (Reg.addr .acqSpillDev, 1023)]
def devItem (ty : Byte) (src : SvcSource) (w1 : DWord) : SvcItem := { supItem ty 0 w1 8 0xFFFFFFFF 77 with source := src }
def halting (s : State) : State :=
  { s with run := { s.run with state := .halting, inBatch := false, causes := 2, resumable := true } }
def wdg (s : State) (act : Word) (ns : Nat) : State :=
  put { s with run := { s.run with wdgNs := ns }, pins := { s.pins with dioDrive := 5 } } [(Reg.addr .wdgCfg, 0x80000000 ||| act)]

/-- A device between two batches, with a ledger level that covers the next one. -/
def between (level : Int) (hold : Option Nat) : State :=
  put { busy with
    run := { busy.run with inBatch := false, batch := 41 }
    led := { busy.led with level := level, est := 7, holdNs := hold } }
    [(Reg.addr .prfCtrl, 0), (Reg.addr .pwrStarveLimit, 5)]
def resting : State := running { t5r with
  vtile := some 0, phase := .resting, step := 9
  nowHalf := [(2051, some true), (3000, some false)], thenHalf := [(2052, true), (3000, true)]
  tap := [(3, 5)], flags := [(9, 3)], qCount := [(1, 2)], mbxValid := 1 }
def atEnd : State := { resting with tiles := resting.tiles.map fun e => (e.1, { e.2 with phase := .resting }) }
def win (space block : Nat) : State :=
  put (idle busy) [(Reg.addr .tilWinSel 0 7, BitVec.ofNat 32 (space * 2 ^ 28 + block))]
def winRun : State := put busy [(Reg.addr .tilWinSel 0 7, 0x50000000)]
def off (s : State) : State := { s with sup := { s.sup with power := .shutdown } }
def slice150 : SliceResult := ⟨1, 950, 50000, 0, [], []⟩
def testing (ns : Nat) : State :=
  { idle busy with bst := { Selftest.reset with slice := some 150, single := true, ns := ns } }
def counted (s : State) : State :=
  put s [(Reg.addr .tilPrbMarks 0, 7), (Reg.addr .tilDpStall 0, 8), (Reg.addr .svcEngItems 17, 9),
    (Reg.addr .runAcmpCount 7, 3), (Reg.addr .memChCe 7, 4), (Reg.addr .lnkCntA 7, 5), (Reg.addr .lnkCntB 7, 0x60007),
    (Reg.addr .lnkLaneErr 7 8, 6), (Reg.addr .nocFwd, 1), (Reg.addr .pwrPaceHolds, 2), (Reg.addr .pwrPaceTime, 3),
    (Reg.addr .timPaceOverrun, 4), (Reg.addr .acqDropped, 5), (Reg.addr .acqExtLost, 6), (Reg.addr .prfDiscard, 0x70008),
    (Reg.addr .criStat, 0x90000)]
/-- An image header of `n` frames: full (0) or partial (1). -/
def hdrBytes (type n : Nat) : List Byte :=
  leBytes 4 0x494B544F ++ leBytes 2 1 ++ leBytes 2 0x9128 ++ [1, 0, 1, BitVec.ofNat 8 type, 0, 0, 0, 0, 0, 0, 0, 0] ++
    leBytes 4 n ++ leBytes 8 0x1122334455667788 ++ List.replicate 32 0
def hdrOf (p : Bool) (n : Nat) : Header := ⟨1, 0, 1, p, 0, 0, 0, 0, n, 0x1122334455667788⟩
/-- A halted device whose loader is at work; device ID 7 is image device 0, larder banks 4 and 5 stage frames. -/
def loading (st : LdrState) (p : Bool) (buf : List Byte) : State :=
  put { onChain (idle busy) chain7 with
    ldr := { busy.ldr with
      state := st, buf := buf, hdr := some (hdrOf p 2), image := some (hdrOf false 2), shadowOk := true, inService := p || st == .header
      stageBanks := [4, 5], perTileSeen := false, frames := 0, done := false } }
    [(Reg.addr .ldrDevmap 0, 7), (Reg.addr .glbVmap 0, 0x80000000), (Reg.addr .ldrShadowLo, 1), (Reg.addr .ldrCtrl, 1),
      (Reg.addr .memLown 4, 0x200), (Reg.addr .memLown 5, 0x200), (Reg.addr .ldrGapLimit, 100)]
def atState (st : LdrState) : State := { loading st false [] with ldr := { (loading st false []).ldr with state := st } }
def ctrlFrame : List Byte := [0, 2, 0, 0] ++ leBytes 4 0 ++ List.replicate 8 0 ++ leBytes 4 0xF0000000 ++ List.replicate 4092 0
def withLdr (s : State) (f : Loader → Loader) : State := { s with ldr := f s.ldr }
def trailer : List Byte := leBytes 4 0x454B544F ++ leBytes 4 2 ++ leBytes 4 0 ++ leBytes 4 0x12345678
/-- In CHECK with a recipe of one step, END. -/
def checking (p : Bool) : State :=
  let s := loading .check p []
  { s with
    tiles := [(0, { Tile.reset with vtile := some 0, depth := 1, ctrl := [(0, 0xF0000000)] })]
    mem := { s.mem with larder := [(2097155, 0xF0), (2101248, 1)] }
    ldr := { s.ldr with
      trailer := trailer, crc := 0x12345678 ^^^ 0xFFFFFFFF, frames := 2, seen := [(0, 2, 0), (0, 5, 0)]
      staged := if p then [⟨0, 2, 0, 2097152⟩, ⟨0, 5, 0, 2101248⟩] else [] } }
def gap (s : State) : State := withLdr s fun l => { l with gapNs := 100001 }

/-- Proofs in DDR at 256 MiB, 64 MiB each of undo and input log. -/
def proofs (s : State) : State :=
  put s [(Reg.addr .prfCtrl, 0x80000000), (Reg.addr .prfSize, 0x00400100), (Reg.addr .prfBaseLo, 0x10000000)]
def withPrf (s : State) (f : Proofs → Proofs) : State := { s with prf := f s.prf }
def aProof : Proof := ⟨5, 1, 3⟩
def prfItem (ty : Byte) : SvcItem := ⟨4, .proofs, ty, 0, 0, 0, 0, true, 0, 0, none, none, none, none, [], 0, .running 5, 0, false, 0, 0⟩
def t5d : Tile :=
  { t5r with
    pantry := [(64, 0x5A), (600, 0x5B)], dirty0 := [(1, true), (9, true)], dirty1 := [(1, true)]
    thenHalf := [(3, true), (4097, true)] }
/-- A proof item of tile 0 on engine 5, alone or beside another. -/
def proofItem (ty : Byte) (more : List SvcItem) (st : PrfState) : State :=
  let s := proofs (running t5d)
  withPrf { s with
    run := { s.run with state := .halted, inBatch := false }
    mem := { s.mem with ddr := [(268435459, 0x11), (268435459 + 4473088, 0x22), (268435459 + 5669008, 0x33)] }
    svc := { Service.reset with nextId := 9, store := prfItem ty :: more, engines := [(5, some 4)] } } fun p =>
    { p with state := st, restoring := some aProof, cur := some aProof, target := 0 }
def saving (f : Proofs → Proofs) : State :=
  withPrf { proofs busy with run := { busy.run with state := .halted, inBatch := false, batch := 77 } } fun p =>
    f { p with state := .saving, target := 1, mark := 9, cur := some ⟨3, 0, 1⟩ }
def sleepy : State :=
  withPrf { proofs (idle busy) with
    run := { (idle busy).run with sleepCfg := 0x80000001, resumableNs := 1000000 } } fun p => { p with cur := some aProof, undoNext := 9 }
def saveAt (sz : Word) : State :=
  withPrf (put { proofs busy with run := { busy.run with inBatch := false } } [(Reg.addr .prfSize, sz)]) fun p =>
    { p with saveDue := true, cur := some aProof, undoNext := 9 }
def restorable : State :=
  withPrf (withCache (idle busy) [cachedLine]) fun p => { p with cur := some aProof, prev := some ⟨4, 0, 2⟩ }
def noRestore : State := withPrf (idle busy) fun p => p
/-- A run with tiles 0 and 7 mapped in GLB_VMAP. -/
def faulty (c : Option Proof) : State :=
  withPrf (put (proofs busy) [(Reg.addr .glbVmap 0, 0x80000000), (Reg.addr .glbVmap 1, 0x80000007)]) fun p => { p with cur := c }
def paused : State :=
  withPrf { busy with run := { busy.run with state := .recover } } fun p =>
    { p with awaiting := true, redo := true, pauseNs := 1000000 }
def hot (b : Bool) : State := { busy with led := { busy.led with thermOver := b, pThUw := if b then 40000000 else 300000000, ePrev := some 3 } }
def resty : State :=
  put { idle busy with run := { (idle busy).run with haltedNs := 9000000000 } , mem := { busy.mem with scrubNs := 10 ^ 18, chIdleNs := [(7, 9000000000)], larderIdleNs := [(63, 9000000000)] } }
    [(Reg.addr .pwrIdle, 0x00020001), (Reg.addr .memChCfg 7, 0x80000000), (Reg.addr .memLown 63, 0x307), (Reg.addr .memRetCfg, 5), (Reg.addr .memScrub, 0x80000000), (Reg.addr .memCapInst, 0x4004)]
def banks : State :=
  { idle busy with tiles := (idle busy).tiles.map fun e => (e.1, { e.2 with pantry := [(65536, 3), (131072, 4)] }) }
def pendBank (s : State) (l : Bool) (b : Nat) (clear : Bool) : State :=
  let w : Word := 0x80000000
  { put s [(if l then Reg.addr .memLown b else Reg.addr .tilPanOwn 0 b, w)] with
    mem := { s.mem with handovers := [⟨l, 0, b, 3, 7, clear⟩] } }
def keyed (v : BitVec 512) : State := { busy with enc := { busy.enc with keyData := v } }
def lockedKeys (s : State) : State := { s with enc := { s.enc with bg := .rekey, bgOld := 1, bgNew := 2 } }
def carved : State := put busy [(Reg.addr .memCapUse, 896), (Reg.addr .encRgnBase 5, 2), (Reg.addr .encRgnLimit 5, 9)]
def bgRun (f : Crypt → Crypt) : State := { carved with enc := f carved.enc }
def withPort (s : State) (lp : Nat) (x : LogicalPort) : State := { s with ports := [(lp, x)] }
def portIn (st : LinkState) : LogicalPort :=
  { LogicalPort.reset with state := st, ns := 5000001, lanes := 0x0FF, rxSeq := 7, txSeq := 9, sendNs := 1000, sinceAck := 3, ackNs := 16000 }
/-- Port 2 in mode 1, or 2 for its half 1, in a state of its link. -/
def linked (lp : Nat) (x : LogicalPort) : State :=
  let s : State := if lp < 8 then withPort busy lp x else
    { busy with ports := [(lp - 8, { LogicalPort.reset with split := true }), (lp, { x with split := true })] }
  put s [(Reg.addr .lnkCfg (lp % 8), if lp < 8 then 0x40000035 else 0x40000036)]
def aLink (vn : Nat) : LinkPacket :=
  let k : LinkPacket := ⟨7, BitVec.ofNat 2 vn, 2, 0, 0, [0x07050100000000000000000000000000, 5]⟩
  { k with crc := k.crcNow }
def sent (seq : Nat) (sends : Nat) : Unacked := ⟨{ aLink 0 with seq := BitVec.ofNat 12 seq }, sends⟩
def initCell (mode : Nat) : QWord :=
  mkCell (9 * 2 ^ 88 + 6 * 2 ^ 76 + mode * 2 ^ 74 + 3 * 2 ^ 72 + 15 * 2 ^ 67)
def laneOn (s : State) (p lane : Nat) : State := put s [(Reg.addr .lnkLane p lane, 0x03000000)]
def swapping : LogicalPort :=
  { portIn .swap with swapLane := 3, swapAcked := true, swapDetected := true, ready := 0x1FF, farReady := 0x1FF }
/-- A packet at port 3's quadrant, and an answer. -/
def hub (q : List QuadItem) (a : List QuadAnswer) (st : LinkState) : State :=
  { busy with
    net := { Network.reset with quad := q, quadAns := a }
    ports := [(2, { portIn st with ns := 0 }), (3, portIn .active)] }
def qPkt (f : Packet → Packet) : QuadItem :=
  ⟨some 3, f { pMbx with dstDev := 0xFF, srcDev := 1, count := 2, next := 1, hop := 0b010011, rcount := 1, ret := 5 }⟩
def qAns (n : Nat) : QuadAnswer := ⟨some 3, { ans0 with rcount := n, ret := 0x2 }⟩

def dm (st : DomState) : Domain :=
  { Domain.reset with state := st, est := 1000000900 * 2 ^ 40, rate := 5, sinceNs := 10000000, lockedNs := 4000000000, parent := some 2 }
/-- Domain A fed by a link, domain B by TSYNC, at output time 1 s. -/
def timed (a b : Domain) (o : OutState) : State :=
  put { busy with
    tim := { TimeKeeper.reset with ref := true, domA := a, domB := b, outState := o, out := 1000000000 * 2 ^ 40, valid := true } }
    [(Reg.addr .timDomCfg 0, 0x4000800A), (Reg.addr .timDomCfg 1, 0x8000800A), (Reg.addr .timSetLo, 77)]
def sourced (s : State) (a b : Word) : State := put s [(Reg.addr .timDomCfg 0, a), (Reg.addr .timDomCfg 1, b)]
def withTim (s : State) (f : TimeKeeper → TimeKeeper) : State := { s with tim := f s.tim }
def synced : State := put (timed (dm .locked) (dm .search) .followA) [(Reg.addr .timTrgCfg, 0x00FF0190)]
def vl2 (v : Vl2State) : State :=
  withTim (put synced [(Reg.addr .timTrgCfg, 0x80FF0190)]) fun t => { t with vl2 := v }
def evented (act : Word) : State :=
  withTim (put synced (if act = 1 then [] else [(Reg.addr .timTrgAct 3, act)])) fun t => { t with events := [(2, 1000), (3, 1000)] }
/-- The acquisition in a state, with unit 3 on external trigger 0 and one sampled batch. -/
def acqs (st : AcqState) (br : Word) (ext : List (Nat × DWord)) : State :=
  let s := liveAcq busy { Acq.reset with
    sampled := [⟨41, 2 ^ 41, ext, false⟩, ⟨42, 2 ^ 42, [], false⟩], firstEval := some 40, blocks := [3], segment := 6
    seg := some ⟨40, 38, 40, 2 ^ 40, 0, [], [], [], [], []⟩, dirs := [aDir] }
  put { s with acq := { s.acq with state := st }, run := { s.run with batch := 43 } }
    ((if br = 0 then [] else [(Reg.addr .acqSeqBr0 0, br)]) ++ [(Reg.addr .acqTuCfg 3, 0x50000000), (Reg.addr .acqSegCfg, 2), (Reg.addr .memLown 3, 0x500),
      (Reg.addr .acqTuCount 5, 9)])

/-! ## Single steps, on the worked cases of the spec -/

/-- The state after a command. -/
def after (c : Instr) (s : State) : State := match exec c s with | .next r => r | _ => State.reset

/-- Tile 0 executing step `n` with something more. -/
def stepAt (n : Nat) (f : Tile → Tile) : State := running (f { Tile.reset with step := n })

/-- "Encoding one instruction": BP 9 computes then-half bit 3 XOR BP 17's last output; the instruction of step 5 writes position 5. -/
theorem test_bp_encoding :
    ((after (.tileStep 0) (stepAt 5 fun x => { x with
      bpCode := [(5 * 512 + 9, 0x6666007047F87F04)], thenHalf := [(9 * 1024 + 3, true)] })).tile 0).nowHalf =
      [(9 * 1024 + 5, some true)] := by decide +kernel

/-- "A toggle flip-flop", batch k + 1: q is 1 and en 1, so position 6 of BP 40 is written with 0. -/
theorem test_toggle :
    ((after (.tileStep 0) (stepAt 6 fun x => { x with
      bpCode := [(6 * 512 + 40, 0x666600D033F87F04)], thenHalf := [(40 * 1024 + 6, true)], bus := 2 ^ 12 })).tile 0).nowHalf =
      [(40 * 1024 + 6, some false)] := by decide +kernel

/-- "Two control words": 0x101C_4000 is a WAIT on flag 7 with count 1. -/
theorem test_wait_word :
    ((after (.tileStep 0) (stepAt 5 fun x => { x with ctrl := [(5, 0x101C4000)] })).tile 0).hold = some ⟨.wait, 7, 1, 0⟩ := by
  decide +kernel

/-- "Two control words": 0x3040_0000 is a SEND through entry 4 with its data from the spine. -/
theorem test_send_word :
    (after (.tileStep 0) (stepAt 5 fun x => { x with
      ctrl := [(5, 0x30400000)], dest := [(4, 0x4000000000000206)], spine := 0xAB })).net.loc.map
      (fun p => (p.dstVt, p.kind, p.flag, p.index, p.data)) = [(0, .mailbox, 4, 3, 0xAB)] := by decide +kernel

/-- "Three tiles on two devices": entries 3 and 4 of tile P. -/
theorem test_destination_entries :
    (destDevice 0x40000000000C0A06, destVtile 0x40000000000C0A06, destFlag 0x40000000000C0A06,
      destIndex 0x40000000000C0A06) = (0, 6, 20, 3) ∧
    (destDevice 0x4000000001120380, destVtile 0x4000000001120380, destFlag 0x4000000001120380,
      destIndex 0x4000000001120380) = (1, 9, 7, 0) ∧ kindOf (destKind 0x4000000001120380) = .mailbox := by decide +kernel

/-- "Spine, word unit and taps": WU 3 adds 0x100 to 0x5A in step 11; register 20 holds 0x15A from step 15 on. -/
theorem test_add_from_spine :
    ((after (.add 0 3 { fs with tap := true, dst := 20, am := 1, bm := 3, imm := 0x100 })
      (stepAt 11 fun x => { x with spine := 0x5A })).tile 0).results.map (fun r => (r.wu, r.due, r.dst, r.lo, r.tap)) =
      [(3, 15, 20, 0x15A, true)] := by decide +kernel

/-- "An unaligned 32-bit load and store": the LD of step 20, in step 22. -/
theorem test_unaligned_load :
    ((after (.pantryAccess 0) (put (stepAt 22 fun x => { x with
      pantry := (List.range 8).map fun k => (0x38004 + k, BitVec.ofNat 8 (0x11 * (k + 1)))
      accesses := [⟨2, 20, .ld, 0x38006, 4, 0, 0, 10, false⟩] }) [(Reg.addr .tilPanOwn 0 3, 0x100)])).tile 0).results.map (fun r => (r.due, r.dst, r.lo)) =
      [(24, 10, 0x22114433)] := by decide +kernel

/-- The same case: the ST of step 30 writes 0xD4 to 0x3_8006 and 0xC3 to 0x3_8007. -/
theorem test_unaligned_store :
    ((after (.pantryAccess 0) (put (stepAt 32 fun x => { x with
      accesses := [⟨2, 30, .st, 0x38006, 4, 0xA1B2C3D4, 0, 0, false⟩] }) [(Reg.addr .tilPanOwn 0 3, 0x100)])).tile 0).pantry =
      [(0x38006, 0xD4), (0x38007, 0xC3)] := by decide +kernel

/-- "A 1 MiB write to DDR with one failed channel": channel E failed, CODE 0x08. -/
theorem test_descriptor_status : descStatus 0x08 0x10 = 0x00100801 := by decide +kernel

/-- "A board in slot 3": the head of the chain takes ID 48 and is STABLE. -/
theorem test_chain_head :
    let r := after .chainHead { up with pins := { up.pins with idbase := 3 }, sup := { up.sup with ns := 200000 } }
    r.devId = 48 ∧ r.chain.stable = true := by decide +kernel

/-- "Decoding one address": channel B, address 0x0000_0008_0002_0008 in it. -/
theorem test_channel_of_address :
    let s := put up [(Reg.addr .memCapInst, 0x8800)]
    s.ddrChannel 0x4000100108 = 1 ∧ s.chanAddr 0x4000100108 = 0x800020008 := by decide +kernel

/-- "A model rekeyed across a warm reset": the tag of the line at 0x0000_0040_0010_0108. -/
theorem test_tag_address :
    (put State.reset [(Reg.addr .memCapUse, 1792 * 1024)]).tagAddr 0x4000100108 = 0x1C800020020 := by decide +kernel

/-- "A model cache bank given to a porter": MEM_LOWN[47] stands at 0x0009_00FC; the write begins a handover. -/
theorem test_handover :
    let r := after (.ownHandover true 0 47 0x00010305) (put up [(Reg.addr .memLown 47, 0x600)])
    Reg.addr .memLown 47 = 0x900FC ∧ r.rd .memLown 47 = 0x80010600 ∧
      r.mem.handovers = [⟨true, 0, 47, 3, 5, true⟩] := by decide +kernel

/-- "A route across five devices": the route table's entry 94. -/
theorem test_route_entry :
    let p := List.replicate (16 * 94) 0 ++ [1, 5, 1, 2, 2, 5, 6, 0, 0, 0, 0, 0, 0, 0, 0, 0]
    let r := (withLdr up fun l => { l with devmap := [(94, 94)] }).putRoute p 94
    r.rd .nocRtLo 94 = 0x00035488 ∧ r.rd .nocRtHi 94 = 0x86000000 := by decide +kernel

/-- "One trigger across three devices": FIRE at 1,000,003.00 ns takes slot 100,003. -/
theorem test_fire_slot :
    (withTim (put up [(Reg.addr .timTrgDelay 2, 64), (Reg.addr .timTrgHub, 40)]) fun t =>
      { t with out := 1000003 * 2 ^ 40 }).fireSlot 2 = 100003 := by decide +kernel

/-- "A bench supply with too much path resistance": 149.3 W at 4.20 V, 163.8 W at 4.60 V. -/
theorem test_input_limit :
    (after (.vinMeasure 4200) up).led.pInUw / 100000 = 1493 ∧ (after (.vinMeasure 4600) up).led.pInUw / 100000 = 1637 := by
  decide +kernel

/-- "One image at 12 V, at 4.5 V and under a host cap": the guard after an estimate of 137,563 nJ at 160 W is 2,202
NCLK cycles, 1,376.25 ns (the model rounds up to whole nanoseconds). -/
theorem test_peak_guard :
    ({ up with led := { up.led with pInUw := 160000000, uncore := [600000000] } } : State).guardFor 137563 = 1377 := by
  decide +kernel

/-- "One segment on an OTK9128-20": the dead time of a re-arm, 48 batches and 41,690 ns. -/
theorem test_dead_time :
    let s := liveAcq busy { Acq.reset with dirs := [{ aDir with trigger := 10000, stamp16 := 5000000 * 2 ^ 16 }], segment := 6 }
    let r := after .acqRearmDone (withTim { s with acq := { s.acq with state := .rearm }, run := { s.run with batch := 10049 } }
      fun t => { t with out := 5041690 * 2 ^ 40 })
    r.rd .acqLastDeadB = 48 ∧ r.rd .acqLastDeadNs = 41690 := by decide +kernel

/-- "A pantry error during batch 150,000": with INTERVAL 16 proofs are taken at 65,536 and 131,072. -/
theorem test_proof_interval :
    let s := put up [(Reg.addr .prfCtrl, 0x80000010)]
    s.scheduled 65536 = true ∧ s.scheduled 131072 = true ∧ s.scheduled 131073 = false := by decide +kernel

/-! ## Well-formedness: one ill-formed term for each check, which the check refuses -/

def illFormed0 : List Instr :=
  [.vdioBankChange 4 0, .ddrTrainLimit 8 0 0, .registerWrite (.mem false) ⟨2 ^ 26, none⟩ 0 0,
   .registerWrite (.mem false) ⟨0, some 136⟩ 0 0, .registerWrite .config ⟨4096, none⟩ 4 0, .registerWrite .config ⟨2, none⟩ 4 0,
   .registerWrite .config ⟨0, none⟩ 0 0, .pageDisable 1, .pageReset 1,
   .pageResetDone 1, .drainLimitExpiry 1, .pgIntStatWrite 1 0,
   .pgIntEnWrite 1 0, .pgErrClr 1 0, .bar2Read (2 ^ 36) 1 .clean,
   .bar2Write ⟨2 ^ 36, .clean⟩ [0], .pciPorterTailWrite 8 0, .porterDescriptor 8 aDesc none [],
   .porterDescriptorDone 8, .svcHqSubmit 2 0, .svcHqCplRead 2 .bar0,
   .svcXoutPtrWrite 16 0, .svcXinPtrWrite 16 0, .svcXchEnWrite 16 false 0,
   .dispatch 18, .mread 18 .clean, .mwrite 18 .clean,
   .mrmw 18 .clean, .xout 18 .clean, .xin 18 .clean,
   .cfill 18 .clean, .cevict 18, .tspill 18 .clean,
   .tcompact 18 .clean, .psave 18 .clean, .prestore 18 .clean,
   .scrub 18 [] [], .crier 18, .tileStep 136,
   .wuNop 136 0 fs, .wuNop 0 16 fs, .mov 136 0 fs]
def illFormed1 : List Instr :=
  [.wuNop 0 16 fs, .mov 136 0 fs, .mov 0 16 fs,
   .add 136 0 fs, .add 0 16 fs, .sub 136 0 fs,
   .sub 0 16 fs, .and 136 0 fs, .and 0 16 fs,
   .or 136 0 fs, .or 0 16 fs, .xor 136 0 fs,
   .xor 0 16 fs, .cmp 136 0 fs, .cmp 0 16 fs,
   .sel 136 0 fs, .sel 0 16 fs, .shl 136 0 fs,
   .shl 0 16 fs, .shr 136 0 fs, .shr 0 16 fs,
   .sar 136 0 fs, .sar 0 16 fs, .ror 136 0 fs,
   .ror 0 16 fs, .ext 136 0 fs, .ext 0 16 fs,
   .ins 136 0 fs, .ins 0 16 fs, .mrg 136 0 fs,
   .mrg 0 16 fs, .mulu 136 0 fs, .mulu 0 16 fs,
   .muls 136 0 fs, .muls 0 16 fs, .ld 136 0 fs,
   .ld 0 16 fs, .ldh 136 0 fs, .ldh 0 16 fs,
   .st 136 0 fs, .st 0 16 fs, .sth 136 0 fs]
def illFormed2 : List Instr :=
  [.st 0 16 fs, .sth 136 0 fs, .sth 0 16 fs,
   .pantryAccess 136, .wuResultVisible 136, .nop 136,
   .wait 136 0 0, .wait 0 1024 0, .wait 0 0 16,
   .waitRelease 136, .rest 136 0 0, .rest 0 1024 0,
   .rest 0 0 16, .signal 136 0 0, .signal 0 128 0,
   .signal 0 0 1024, .send 136 0 0 0 0, .send 0 256 0 0 0,
   .send 0 0 2 0 0, .send 0 0 0 16 0, .send 0 0 0 0 256,
   .enq 136 0 0 0 0, .enq 0 256 0 0 0, .enq 0 0 2 0 0,
   .enq 0 0 0 16 0, .enq 0 0 0 0 256, .deq 136 0 0,
   .deq 0 64 0, .deq 0 0 64, .svc 136 0 0 0 0 0,
   .svc 0 256 0 0 0 0, .svc 0 0 2 0 0 0, .svc 0 0 0 16 0 0,
   .svc 0 0 0 0 256 0, .svc 0 0 0 0 0 4, .mark 136 0,
   .endStep 136, .retryBufferFree 136, .waitTimeout 136,
   .restTimeout 136, .packetResend 136 0, .packetResend 0 256]
def illFormed3 : List Instr :=
  [.packetResend 136 0, .packetResend 0 256, .nocRtWrite false 256 0,
   .thermalTrip 48 0, .ddrIdleSelfRefresh 8, .larderRetain 64,
   .ownHandover true 0 64 0, .ownHandover false 136 0 0, .ownHandover false 0 16 0,
   .handoverComplete true 0 64, .handoverComplete false 136 0, .handoverComplete false 0 16,
   .encRgnCtrlWrite 32 0, .lnkCfgWrite 8 0, .lnkPllLock 8,
   .lnkSignalDetect 16 0, .lnkLaneLock 16 ⟨0, 0⟩ 0, .lnkTrainTimeout 16,
   .trainCell 16 0 0 [] 0, .trainCell 0 9 0 [] 0, .linkPacketReceive 16 (aLink 0),
   .ackCell 16 0 0, .ackCell 0 9 0, .ackSend 16,
   .ackTimeout 16, .laneTrip 8 0 ⟨true, true, 0⟩, .laneTrip 0 9 ⟨true, true, 0⟩,
   .spareCell 16 0 0, .spareCell 0 9 0, .swapTimeout 16,
   .swapDone 16, .commaLockLost 16, .syncCellSend 16 0 0,
   .timeCell 16 0 0, .announceCell 16 0, .domainLoss 2,
   .trgSample 8 0, .trgAct 8 0, .trgCal 8,
   .tilPrbMarksRead 136 .bar0, .runAcmpCountRead 8 .bar0, .runBcmpCtrlWrite 4 0]
def illFormed4 : List Instr :=
  [.runAcmpCountRead 8 .bar0, .runBcmpCtrlWrite 4 0, .runAcmpCtrlWrite 8 0,
   .criValWrite 32 0, .tilWinWrite 136 8 0 0, .tilWinWrite 0 7 0 0,
   .tilWinWrite 0 16 0 0, .tilWinWrite 0 8 512 0, .tilWinRead 136 8 0,
   .tilWinRead 0 7 0, .tilWinRead 0 16 0, .tilWinRead 0 8 512,
   .recoveryPause (.tileUe 136 0 0 0), .recoveryPause (.tileUe 0 5 0 0), .recoveryPause (.tileUe 0 3 0 0),
   .recoveryPause (.tileUe 0 0 64 0), .recoveryPause (.tileUe 0 0 0 32768), .recoveryPause (.tileCheck 136 0),
   .recoveryPause (.engine 18), .recoveryPause (.larderBank 64 0), .recoveryPause (.larderBank 0 8192),
   .tilDpStallRead 136 .bar0, .svcEngItemsRead 18 .bar0, .memChCeRead 8 .bar0,
   .lnkCntRead 8 false .bar0, .lnkLaneErrRead 8 0 .bar0, .lnkLaneErrRead 0 9 .bar0,
   .msixUnmask (some 256), .pageEnable 1, .timDomCfgWrite 2 0]

theorem test_wf_refuses_each_ill_formed_term :
    (illFormed0 ++ illFormed1 ++ illFormed2 ++ illFormed3 ++ illFormed4).all (fun i => !i.wf) = true := by decide +kernel

/-! ## Witnesses: the queue and every command -/

theorem wit_EmptyQueueTicks : up.pending = [] ∧ up.aon = true ∧ State.reset.pending = [] ∧ State.reset.aon = false := by
  decide +kernel

theorem wit_WellFormedCommandsComplete : (Instr.add 135 15 fs).wf = true ∧ Instr.batchEnd.wf = true := by decide +kernel

theorem wit_AbsentUnitFaults : (Instr.add 136 0 fs).wf = false ∧ (Instr.mulu 0 16 fs).wf = false ∧
    (Instr.mread 18 .clean).wf = false ∧ (Instr.porterDescriptorDone 8).wf = false ∧ pageExists 0x1 = false := by
  decide +kernel

theorem wit_CommandsKeepQueueAndFuses :
    exec .outputRevert { up with pending := [.batchEnd] } = .next { up with pending := [.batchEnd] } := by rfl

theorem wit_StepKeepsCanonical : ({ up with pending := [.outputRevert] } : State).Canonical ∧
    step { up with pending := [.outputRevert] } = .next up :=
  ⟨State.canonical_of_check (by decide +kernel), by rfl⟩

/-! ## Witnesses: tiles and packets -/

theorem wit_WordUnitResults : (
    let t : Nat := 0
    let u : Nat := 3
    let s : State := running t5r
    s.Canonical ∧ t < 136 ∧ u < 16 ∧ s.stepping t = true) ∧
  (
    let t : Nat := 0
    let u : Nat := 3
    let f : WuFields := { fs with cc := 5, sa := 2, sb := 1 }
    let s : State := running t5r
    let x := s.tile t
    let a := x.inA u f
    let b := x.inB u f false
    let cc := f.cc.toNat
    let holds := (cc = 0 ∧ a.1 = b.1) ∨ (cc = 1 ∧ a.1 ≠ b.1) ∨ (cc = 2 ∧ a.1.toNat < b.1.toNat) ∨
      (cc = 3 ∧ b.1.toNat ≤ a.1.toNat) ∨ (cc = 4 ∧ a.1.toInt < b.1.toInt) ∨ (cc = 5 ∧ b.1.toInt ≤ a.1.toInt)
    s.Canonical ∧ t < 136 ∧ u < 16 ∧ s.stepping t = true ∧ holds) ∧
  (
    let t : Nat := 0
    let u : Nat := 3
    let f : WuFields := { fs with cc := 2 }
    let s : State := running t5r
    let x := s.tile t
    let a := x.inA u f
    let b := x.inB u f false
    let cc := f.cc.toNat
    let holds := (cc = 0 ∧ a.1 = b.1) ∨ (cc = 1 ∧ a.1 ≠ b.1) ∨ (cc = 2 ∧ a.1.toNat < b.1.toNat) ∨
      (cc = 3 ∧ b.1.toNat ≤ a.1.toNat) ∨ (cc = 4 ∧ a.1.toInt < b.1.toInt) ∨ (cc = 5 ∧ b.1.toInt ≤ a.1.toInt)
    s.Canonical ∧ t < 136 ∧ u < 16 ∧ s.stepping t = true ∧ ¬ holds ∧ cc < 6) ∧
  (
    let t : Nat := 0
    let u : Nat := 3
    let f : WuFields := { fs with cc := 6 }
    let s : State := running t5r
    let cc := f.cc.toNat
    s.Canonical ∧ t < 136 ∧ u < 16 ∧ s.stepping t = true ∧ 6 ≤ cc) :=
  ⟨⟨(State.canonical_of_check (by decide +kernel)), by decide +kernel⟩,
   ⟨(State.canonical_of_check (by decide +kernel)), by decide +kernel⟩,
   ⟨(State.canonical_of_check (by decide +kernel)), by decide +kernel⟩,
   ⟨(State.canonical_of_check (by decide +kernel)), by decide +kernel⟩⟩

theorem wit_WordUnitFieldsAndProducts : (
    let t : Nat := 0
    let u : Nat := 3
    let s : State := running t5r
    s.Canonical ∧ t < 136 ∧ u < 16 ∧ s.stepping t = true) ∧
  (
    let t : Nat := 0
    let u : Nat := 3
    let s : State := running t5r
    s.Canonical ∧ t < 136 ∧ u < 16 ∧ s.stepping t = true) :=
  ⟨⟨(State.canonical_of_check (by decide +kernel)), by decide +kernel⟩,
   ⟨(State.canonical_of_check (by decide +kernel)), by decide +kernel⟩⟩

theorem wit_PantryAccesses : (
    let t : Nat := 0
    let u : Nat := 3
    let s : State := running t5r
    s.Canonical ∧ t < 136 ∧ u < 16 ∧ s.stepping t = true) ∧
  (
    let t : Nat := 0
    let u : Nat := 3
    let f : WuFields := { fs with imm := 0xFFFFF, bm := 3 }
    let s : State := running t5r
    s.Canonical ∧ t < 136 ∧ u < 16 ∧ s.stepping t = true ∧ f.tap = false ∧ f.am ≠ 3 ∧ f.cc.toNat < 6) ∧
  (
    let t : Nat := 0
    let s : State := ownBank0 (running tStore)
    s.Canonical ∧ t < 136 ∧ s.stepping t = true) ∧
  (
    let t : Nat := 0
    let p : PanAccess := acc .ld 0x106 4
    let s : State := accOwned (acc .ld 0x106 4)
    let q := p.addr.toNat / 4
    let owned (w : Nat) : Prop := s.tileOwns t (w / 2 ^ 14) = true
    s.Canonical ∧ t < 136 ∧ s.stepping t = true ∧ (s.tile t).accesses = [p] ∧ p.step + 2 ≤ (s.tile t).step ∧ p.wu < 16 ∧ p.size ≤ 4 ∧ p.op = .ld ∧ owned q) ∧
  (
    let t : Nat := 0
    let p : PanAccess := acc .ldh 0x104 4
    let s : State := running (accTile (acc .ldh 0x104 4))
    let k := p.addr.toNat % 4
    s.Canonical ∧ t < 136 ∧ s.stepping t = true ∧ (s.tile t).accesses = [p] ∧ p.step + 2 ≤ (s.tile t).step ∧ p.wu < 16 ∧ p.size ≤ 4 ∧ p.op = .ldh ∧ k = 0) ∧
  (
    let t : Nat := 0
    let p : PanAccess := acc .ldh 0x105 4
    let s : State := accOwned (acc .ldh 0x105 4)
    let q := p.addr.toNat / 4
    let k := p.addr.toNat % 4
    let q1 := (q + 1) % 2 ^ 18
    let owned (w : Nat) : Prop := s.tileOwns t (w / 2 ^ 14) = true
    s.Canonical ∧ t < 136 ∧ s.stepping t = true ∧ (s.tile t).accesses = [p] ∧ p.step + 2 ≤ (s.tile t).step ∧ p.wu < 16 ∧ p.size ≤ 4 ∧ p.op = .ldh ∧ 0 < k ∧ owned q1) ∧
  (
    let t : Nat := 0
    let p : PanAccess := acc .st 0x106 4
    let s : State := accOwned (acc .st 0x106 4)
    let q := p.addr.toNat / 4
    let owned (w : Nat) : Prop := s.tileOwns t (w / 2 ^ 14) = true
    s.Canonical ∧ t < 136 ∧ s.stepping t = true ∧ (s.tile t).accesses = [p] ∧ p.step + 2 ≤ (s.tile t).step ∧ p.wu < 16 ∧ p.size ≤ 4 ∧ p.op = .st ∧ owned q) ∧
  (
    let t : Nat := 0
    let p : PanAccess := acc .sth 0x106 3
    let s : State := accOwned (acc .sth 0x106 3)
    let q := p.addr.toNat / 4
    let k := p.addr.toNat % 4
    let q1 := (q + 1) % 2 ^ 18
    let owned (w : Nat) : Prop := s.tileOwns t (w / 2 ^ 14) = true
    s.Canonical ∧ t < 136 ∧ s.stepping t = true ∧ (s.tile t).accesses = [p] ∧ p.step + 2 ≤ (s.tile t).step ∧ p.wu < 16 ∧ p.size ≤ 4 ∧ p.op = .sth ∧ 4 < k + p.size ∧ owned q1) ∧
  (
    let t : Nat := 0
    let p : PanAccess := acc .sth 0x104 4
    let s : State := running (accTile (acc .sth 0x104 4))
    let k := p.addr.toNat % 4
    s.Canonical ∧ t < 136 ∧ s.stepping t = true ∧ (s.tile t).accesses = [p] ∧ p.step + 2 ≤ (s.tile t).step ∧ p.wu < 16 ∧ p.size ≤ 4 ∧ p.op = .sth ∧ k + p.size ≤ 4) ∧
  (
    let t : Nat := 0
    let p : PanAccess := acc .ld 0x106 4
    let s : State := running (accTile (acc .ld 0x106 4))
    let q := p.addr.toNat / 4
    let owned (w : Nat) : Prop := s.tileOwns t (w / 2 ^ 14) = true
    s.Canonical ∧ t < 136 ∧ s.stepping t = true ∧ (s.tile t).accesses = [p] ∧ p.step + 2 ≤ (s.tile t).step ∧ p.wu < 16 ∧ p.size ≤ 4 ∧ p.op = .ld ∧ ¬ owned q) ∧
  (
    let t : Nat := 0
    let p : PanAccess := acc .ldh 0x105 4
    let s : State := running (accTile (acc .ldh 0x105 4))
    let q := p.addr.toNat / 4
    let k := p.addr.toNat % 4
    let q1 := (q + 1) % 2 ^ 18
    let owned (w : Nat) : Prop := s.tileOwns t (w / 2 ^ 14) = true
    s.Canonical ∧ t < 136 ∧ s.stepping t = true ∧ (s.tile t).accesses = [p] ∧ p.step + 2 ≤ (s.tile t).step ∧ p.wu < 16 ∧ p.size ≤ 4 ∧ p.op = .ldh ∧ 0 < k ∧ ¬ owned q1) ∧
  (
    let t : Nat := 0
    let p : PanAccess := acc .st 0x105 4
    let s : State := running (accTile (acc .st 0x105 4))
    let q := p.addr.toNat / 4
    let owned (w : Nat) : Prop := s.tileOwns t (w / 2 ^ 14) = true
    s.Canonical ∧ t < 136 ∧ s.stepping t = true ∧ (s.tile t).accesses = [p] ∧ p.step + 2 ≤ (s.tile t).step ∧ p.wu < 16 ∧ p.size ≤ 4 ∧ p.op = .st ∧ ¬ owned q) ∧
  (
    let t : Nat := 0
    let p : PanAccess := acc .sth 0x107 4
    let s : State := running (accTile (acc .sth 0x107 4))
    let q := p.addr.toNat / 4
    let k := p.addr.toNat % 4
    let q1 := (q + 1) % 2 ^ 18
    let owned (w : Nat) : Prop := s.tileOwns t (w / 2 ^ 14) = true
    s.Canonical ∧ t < 136 ∧ s.stepping t = true ∧ (s.tile t).accesses = [p] ∧ p.step + 2 ≤ (s.tile t).step ∧ p.wu < 16 ∧ p.size ≤ 4 ∧ p.op = .sth ∧ 4 < k + p.size ∧ ¬ owned q1) :=
  ⟨⟨(State.canonical_of_check (by decide +kernel)), by decide +kernel⟩,
   ⟨(State.canonical_of_check (by decide +kernel)), by decide +kernel⟩,
   ⟨(State.canonical_of_check (by decide +kernel)), by decide +kernel⟩,
   ⟨(State.canonical_of_check (by decide +kernel)), by decide +kernel⟩,
   ⟨(State.canonical_of_check (by decide +kernel)), by decide +kernel⟩,
   ⟨(State.canonical_of_check (by decide +kernel)), by decide +kernel⟩,
   ⟨(State.canonical_of_check (by decide +kernel)), by decide +kernel⟩,
   ⟨(State.canonical_of_check (by decide +kernel)), by decide +kernel⟩,
   ⟨(State.canonical_of_check (by decide +kernel)), by decide +kernel⟩,
   ⟨(State.canonical_of_check (by decide +kernel)), by decide +kernel⟩,
   ⟨(State.canonical_of_check (by decide +kernel)), by decide +kernel⟩,
   ⟨(State.canonical_of_check (by decide +kernel)), by decide +kernel⟩,
   ⟨(State.canonical_of_check (by decide +kernel)), by decide +kernel⟩⟩

theorem wit_DueResultsBecomeVisible : (
    let t : Nat := 0
    let s : State := running tResult
    s.Canonical ∧ t < 136 ∧ s.stepping t = true) :=
  ⟨(State.canonical_of_check (by decide +kernel)), by decide +kernel⟩

theorem wit_ReservedOperandCode : (
    let code : Nat := 0x7EF
    ((0x680 < code ∧ code < 0x7F0) ∨ (0x7FB < code ∧ code < 0x800))) :=
  by decide +kernel

theorem wit_TileStepRunsProcessors : (
    let t : Nat := 0
    let s : State := running { t5r with bpCode := [(2560, 0x0000F001F8800001)], bus := 1 }
    s.Canonical ∧ t < 136 ∧ s.stepping t = true ∧ s.prf.replay = [] ∧ (s.tile t).ctrlWord (s.tile t).step = 0 ∧ (s.tile t).step < 1023 ∧ (s.tile t).results = [] ∧ (s.tile t).accesses = []) :=
  ⟨(State.canonical_of_check (by decide +kernel)), by decide +kernel⟩

theorem wit_FlagsHoldAndRelease : (
    let t : Nat := 0
    let flag : Nat := 9
    let count : Nat := 3
    let s : State := running { t5 with flags := [(9, 3)] }
    let x := s.tile t
    s.Canonical ∧ t < 136 ∧ flag < 1024 ∧ count < 16 ∧ s.stepping t = true ∧ 0 < count ∧ count ≤ x.flag flag) ∧
  (
    let t : Nat := 0
    let flag : Nat := 9
    let count : Nat := 4
    let s : State := running { t5 with flags := [(9, 3)] }
    let x := s.tile t
    s.Canonical ∧ t < 136 ∧ flag < 1024 ∧ count < 16 ∧ s.stepping t = true ∧ x.flag flag < count) ∧
  (
    let t : Nat := 0
    let flag : Nat := 9
    let count : Nat := 0
    let s : State := running { t5 with flags := [(9, 3)] }
    s.Canonical ∧ t < 136 ∧ flag < 1024 ∧ count < 16 ∧ s.stepping t = true ∧ count = 0) ∧
  (
    let t : Nat := 0
    let flag : Nat := 9
    let count : Nat := 2
    let s : State := running tWait
    let x := s.tile t
    let h : Hold := held9 .wait 100
    let op : Nat := 1
    s.Canonical ∧ t < 136 ∧ flag < 1024 ∧ count < 16 ∧ s.executing t = true ∧ x.hold = some h ∧ h.flag = flag ∧ h.count = count ∧ ((h.kind = .wait ∧ op = 1) ∨ (h.kind = .rest ∧ op = 8)) ∧ 0 < count ∧ count ≤ x.flag flag ∧ x.step < 1023 ∧ s.prf.replay = [] ∧ x.ctrlWord x.step = BitVec.ofNat 32 (op * 2 ^ 28 + flag * 2 ^ 18 + count * 2 ^ 14)) :=
  ⟨⟨(State.canonical_of_check (by decide +kernel)), by decide +kernel⟩,
   ⟨(State.canonical_of_check (by decide +kernel)), by decide +kernel⟩,
   ⟨(State.canonical_of_check (by decide +kernel)), by decide +kernel⟩,
   ⟨(State.canonical_of_check (by decide +kernel)), by decide +kernel⟩⟩

theorem wit_ControlWordsSendPackets : (
    let t : Nat := 0
    let vt : Nat := 0
    let flag : Nat := 1023
    let entry : Nat := 1
    let src : Nat := 0
    let wu : Nat := 3
    let reg : Nat := 255
    let s : State := running t5r
    s.Canonical ∧ t < 136 ∧ vt < 128 ∧ flag < 1024 ∧ entry < 256 ∧ src < 2 ∧ wu < 16 ∧ reg < 256 ∧ s.stepping t = true ∧ (s.ptile vt).isSome = true) ∧
  (
    let t : Nat := 0
    let vt : Nat := 0
    let flag : Nat := 1023
    let entry : Nat := 1
    let src : Nat := 0
    let wu : Nat := 3
    let reg : Nat := 255
    let s : State := running t5r
    let x := s.tile t
    let e := x.destEntry entry
    let own : Prop := destDevice e = s.devId ∧ (s.ptile (destVtile e)).isSome = true
    s.Canonical ∧ t < 136 ∧ vt < 128 ∧ flag < 1024 ∧ entry < 256 ∧ src < 2 ∧ wu < 16 ∧ reg < 256 ∧ s.stepping t = true ∧ x.retry.length < 32 ∧ own ∧ destKind e = 1) ∧
  (
    let t : Nat := 0
    let vt : Nat := 0
    let flag : Nat := 1023
    let entry : Nat := 2
    let src : Nat := 0
    let wu : Nat := 3
    let reg : Nat := 255
    let s : State := running t5r
    let x := s.tile t
    let e := x.destEntry entry
    let own : Prop := destDevice e = s.devId ∧ (s.ptile (destVtile e)).isSome = true
    s.Canonical ∧ t < 136 ∧ vt < 128 ∧ flag < 1024 ∧ entry < 256 ∧ src < 2 ∧ wu < 16 ∧ reg < 256 ∧ s.stepping t = true ∧ x.retry.length < 32 ∧ own ∧ destKind e = 2) ∧
  (
    let t : Nat := 0
    let vt : Nat := 0
    let flag : Nat := 1023
    let entry : Nat := 3
    let src : Nat := 0
    let wu : Nat := 3
    let reg : Nat := 255
    let s : State := running t5r
    let x := s.tile t
    let e := x.destEntry entry
    let own : Prop := destDevice e = s.devId ∧ (s.ptile (destVtile e)).isSome = true
    s.Canonical ∧ t < 136 ∧ vt < 128 ∧ flag < 1024 ∧ entry < 256 ∧ src < 2 ∧ wu < 16 ∧ reg < 256 ∧ s.stepping t = true ∧ x.retry.length < 32 ∧ own ∧ destKind e = 3) ∧
  (
    let t : Nat := 0
    let vt : Nat := 0
    let flag : Nat := 1023
    let entry : Nat := 2
    let src : Nat := 0
    let wu : Nat := 3
    let reg : Nat := 255
    let s : State := running t5r
    let x := s.tile t
    let e := x.destEntry entry
    s.Canonical ∧ t < 136 ∧ vt < 128 ∧ flag < 1024 ∧ entry < 256 ∧ src < 2 ∧ wu < 16 ∧ reg < 256 ∧ s.stepping t = true ∧ x.retry.length < 32 ∧ destKind e ≠ 3) ∧
  (
    let t : Nat := 0
    let vt : Nat := 0
    let flag : Nat := 1023
    let entry : Nat := 1
    let src : Nat := 0
    let wu : Nat := 3
    let reg : Nat := 255
    let s : State := running tFull
    let x := s.tile t
    s.Canonical ∧ t < 136 ∧ vt < 128 ∧ flag < 1024 ∧ entry < 256 ∧ src < 2 ∧ wu < 16 ∧ reg < 256 ∧ s.stepping t = true ∧ 32 ≤ x.retry.length) ∧
  (
    let t : Nat := 0
    let vt : Nat := 0
    let flag : Nat := 1023
    let entry : Nat := 0
    let src : Nat := 0
    let wu : Nat := 3
    let reg : Nat := 255
    let s : State := running t5r
    let x := s.tile t
    let e := x.destEntry entry
    s.Canonical ∧ t < 136 ∧ vt < 128 ∧ flag < 1024 ∧ entry < 256 ∧ src < 2 ∧ wu < 16 ∧ reg < 256 ∧ s.stepping t = true ∧ x.retry.length < 32 ∧ (destKind e = 0 ∨ destKind e = 3)) ∧
  (
    let t : Nat := 0
    let vt : Nat := 0
    let flag : Nat := 1023
    let entry : Nat := 5
    let src : Nat := 0
    let wu : Nat := 3
    let reg : Nat := 255
    let s : State := running tDest
    let x := s.tile t
    let e := x.destEntry entry
    s.Canonical ∧ t < 136 ∧ vt < 128 ∧ flag < 1024 ∧ entry < 256 ∧ src < 2 ∧ wu < 16 ∧ reg < 256 ∧ s.stepping t = true ∧ x.retry.length < 32 ∧ destDevice e = s.devId ∧ s.ptile (destVtile e) = none) ∧
  (
    let t : Nat := 0
    let vt : Nat := 9
    let flag : Nat := 1023
    let entry : Nat := 1
    let src : Nat := 0
    let wu : Nat := 3
    let reg : Nat := 255
    let s : State := running t5r
    s.Canonical ∧ t < 136 ∧ vt < 128 ∧ flag < 1024 ∧ entry < 256 ∧ src < 2 ∧ wu < 16 ∧ reg < 256 ∧ s.stepping t = true ∧ s.ptile vt = none) ∧
  (
    let t : Nat := 0
    let vt : Nat := 0
    let flag : Nat := 1023
    let entry : Nat := 6
    let src : Nat := 0
    let wu : Nat := 3
    let reg : Nat := 255
    let count : Nat := 2
    let half : BitVec 12 := 0
    let hops : BitVec 36 := 0x00C
    let s : State := routed (running tDest)
    let x := s.tile t
    let e := x.destEntry entry
    let remote : Prop := destDevice e ≠ s.devId ∧ x.retry = [] ∧ s.prf.replay = []
    s.Canonical ∧ t < 136 ∧ vt < 128 ∧ flag < 1024 ∧ entry < 256 ∧ src < 2 ∧ wu < 16 ∧ reg < 256 ∧ s.stepping t = true ∧ remote ∧ s.route (destDevice e) = some (count, half, hops) ∧ destKind e = 1) ∧
  (
    let t : Nat := 0
    let vt : Nat := 0
    let flag : Nat := 1023
    let entry : Nat := 7
    let src : Nat := 0
    let wu : Nat := 3
    let reg : Nat := 255
    let count : Nat := 2
    let half : BitVec 12 := 0
    let hops : BitVec 36 := 0x00C
    let s : State := routed (running tDest)
    let x := s.tile t
    let e := x.destEntry entry
    let remote : Prop := destDevice e ≠ s.devId ∧ x.retry = [] ∧ s.prf.replay = []
    s.Canonical ∧ t < 136 ∧ vt < 128 ∧ flag < 1024 ∧ entry < 256 ∧ src < 2 ∧ wu < 16 ∧ reg < 256 ∧ s.stepping t = true ∧ remote ∧ s.route (destDevice e) = some (count, half, hops) ∧ destKind e = 2) ∧
  (
    let t : Nat := 0
    let vt : Nat := 0
    let flag : Nat := 1023
    let entry : Nat := 8
    let src : Nat := 0
    let wu : Nat := 3
    let reg : Nat := 255
    let count : Nat := 2
    let half : BitVec 12 := 0
    let hops : BitVec 36 := 0x00C
    let s : State := routed (running tDest)
    let x := s.tile t
    let e := x.destEntry entry
    let remote : Prop := destDevice e ≠ s.devId ∧ x.retry = [] ∧ s.prf.replay = []
    s.Canonical ∧ t < 136 ∧ vt < 128 ∧ flag < 1024 ∧ entry < 256 ∧ src < 2 ∧ wu < 16 ∧ reg < 256 ∧ s.stepping t = true ∧ remote ∧ s.route (destDevice e) = some (count, half, hops) ∧ destKind e = 3) ∧
  (
    let t : Nat := 0
    let vt : Nat := 0
    let flag : Nat := 1023
    let entry : Nat := 6
    let src : Nat := 0
    let wu : Nat := 3
    let reg : Nat := 255
    let s : State := running tDest
    let x := s.tile t
    let e := x.destEntry entry
    let remote : Prop := destDevice e ≠ s.devId ∧ x.retry = [] ∧ s.prf.replay = []
    s.Canonical ∧ t < 136 ∧ vt < 128 ∧ flag < 1024 ∧ entry < 256 ∧ src < 2 ∧ wu < 16 ∧ reg < 256 ∧ s.stepping t = true ∧ remote ∧ s.route (destDevice e) = none ∧ (destKind e = 1 ∨ destKind e = 2)) ∧
  (
    let t : Nat := 0
    let vt : Nat := 0
    let flag : Nat := 1023
    let entry : Nat := 8
    let src : Nat := 0
    let wu : Nat := 3
    let reg : Nat := 255
    let s : State := running tDest
    let x := s.tile t
    let e := x.destEntry entry
    let remote : Prop := destDevice e ≠ s.devId ∧ x.retry = [] ∧ s.prf.replay = []
    s.Canonical ∧ t < 136 ∧ vt < 128 ∧ flag < 1024 ∧ entry < 256 ∧ src < 2 ∧ wu < 16 ∧ reg < 256 ∧ s.stepping t = true ∧ remote ∧ s.route (destDevice e) = none ∧ destKind e = 3) :=
  ⟨⟨(State.canonical_of_check (by decide +kernel)), by decide +kernel⟩,
   ⟨(State.canonical_of_check (by decide +kernel)), by decide +kernel⟩,
   ⟨(State.canonical_of_check (by decide +kernel)), by decide +kernel⟩,
   ⟨(State.canonical_of_check (by decide +kernel)), by decide +kernel⟩,
   ⟨(State.canonical_of_check (by decide +kernel)), by decide +kernel⟩,
   ⟨(State.canonical_of_check (by decide +kernel)), by decide +kernel⟩,
   ⟨(State.canonical_of_check (by decide +kernel)), by decide +kernel⟩,
   ⟨(State.canonical_of_check (by decide +kernel)), by decide +kernel⟩,
   ⟨(State.canonical_of_check (by decide +kernel)), by decide +kernel⟩,
   ⟨(State.canonical_of_check (by decide +kernel)), by decide +kernel⟩,
   ⟨(State.canonical_of_check (by decide +kernel)), by decide +kernel⟩,
   ⟨(State.canonical_of_check (by decide +kernel)), by decide +kernel⟩,
   ⟨(State.canonical_of_check (by decide +kernel)), by decide +kernel⟩,
   ⟨(State.canonical_of_check (by decide +kernel)), by decide +kernel⟩⟩

theorem wit_ControlWordsAct : (
    let t : Nat := 0
    let q : Nat := 63
    let slot : Nat := 63
    let tmpl : Nat := 255
    let token : Nat := 3
    let s : State := running t5r
    s.Canonical ∧ t < 136 ∧ q < 64 ∧ slot < 64 ∧ tmpl < 256 ∧ token < 4 ∧ s.stepping t = true) ∧
  (
    let t : Nat := 0
    let q : Nat := 63
    let slot : Nat := 63
    let tmpl : Nat := 255
    let token : Nat := 3
    let s : State := running { t5r with qCount := [(63, 1)], qHead := [(63, 15)], qData := [(1023, 0xABCD)] }
    let x := s.tile t
    s.Canonical ∧ t < 136 ∧ q < 64 ∧ slot < 64 ∧ tmpl < 256 ∧ token < 4 ∧ s.stepping t = true ∧ 0 < x.qLen q) ∧
  (
    let t : Nat := 0
    let q : Nat := 63
    let slot : Nat := 63
    let tmpl : Nat := 255
    let token : Nat := 3
    let s : State := running t5r
    let x := s.tile t
    s.Canonical ∧ t < 136 ∧ q < 64 ∧ slot < 64 ∧ tmpl < 256 ∧ token < 4 ∧ s.stepping t = true ∧ x.qLen q = 0) ∧
  (
    let t : Nat := 0
    let q : Nat := 63
    let slot : Nat := 63
    let tmpl : Nat := 255
    let token : Nat := 3
    let s : State := running t5r
    let x := s.tile t
    s.Canonical ∧ t < 136 ∧ q < 64 ∧ slot < 64 ∧ tmpl < 256 ∧ token < 4 ∧ s.stepping t = true ∧ x.retry.length < 32 ∧ s.svcAccepts t tmpl token = true) ∧
  (
    let t : Nat := 0
    let q : Nat := 63
    let slot : Nat := 63
    let tmpl : Nat := 255
    let token : Nat := 3
    let s : State := put (running { t5r with probes := 1 }) [(Reg.addr .acqCtrl, 0x08000000)]
    let x := s.tile t
    s.Canonical ∧ t < 136 ∧ q < 64 ∧ slot < 64 ∧ tmpl < 256 ∧ token < 4 ∧ s.stepping t = true ∧ bit (s.rd .acqCtrl) 27 = true ∧ x.probes ≠ 0 ∧ (x.marks.filter fun m => m.batch = s.run.batch).length < 64 ∧ x.marks.length < 2048 ∧ (∀ m ∈ x.marks, m.batch = s.run.batch → m.step ≠ x.step)) ∧
  (
    let t : Nat := 0
    let q : Nat := 63
    let slot : Nat := 63
    let tmpl : Nat := 255
    let token : Nat := 3
    let s : State := running t5r
    let x := s.tile t
    s.Canonical ∧ t < 136 ∧ q < 64 ∧ slot < 64 ∧ tmpl < 256 ∧ token < 4 ∧ s.stepping t = true ∧ (bit (s.rd .acqCtrl) 27 = false ∨ x.probes = 0)) ∧
  (
    let t : Nat := 0
    let q : Nat := 63
    let slot : Nat := 63
    let tmpl : Nat := 255
    let token : Nat := 3
    let s : State := running t5r
    s.Canonical ∧ t < 136 ∧ q < 64 ∧ slot < 64 ∧ tmpl < 256 ∧ token < 4 ∧ s.stepping t = true ∧ s.prf.replay = []) :=
  ⟨⟨(State.canonical_of_check (by decide +kernel)), by decide +kernel⟩,
   ⟨(State.canonical_of_check (by decide +kernel)), by decide +kernel⟩,
   ⟨(State.canonical_of_check (by decide +kernel)), by decide +kernel⟩,
   ⟨(State.canonical_of_check (by decide +kernel)), by decide +kernel⟩,
   ⟨(State.canonical_of_check (by decide +kernel)), by decide +kernel⟩,
   ⟨(State.canonical_of_check (by decide +kernel)), by decide +kernel⟩,
   ⟨(State.canonical_of_check (by decide +kernel)), by decide +kernel⟩⟩

theorem wit_HoldLimitsStopTheDevice : (
    let t : Nat := 0
    let h : Hold := held9 .wait 100000001
    let s : State := put (running (tHold .wait 100000001)) [(Reg.addr .tilWaitLimit 0, 100000000)]
    s.Canonical ∧ t < 136 ∧ s.executing t = true ∧ (s.tile t).hold = some h ∧ h.kind = .wait ∧ (s.rd .tilWaitLimit t).toNat ≠ 0 ∧ (s.rd .tilWaitLimit t).toNat < h.ns) ∧
  (
    let t : Nat := 0
    let h : Hold := held9 .rest 100001
    let s : State := put (running (tHold .rest 100001)) [(Reg.addr .tilRestLimit 0, 100)]
    s.Canonical ∧ t < 136 ∧ s.executing t = true ∧ (s.tile t).hold = some h ∧ h.kind = .rest ∧ (s.rd .tilRestLimit t).toNat ≠ 0 ∧ (s.rd .tilRestLimit t).toNat * 1000 < h.ns) ∧
  (
    let t : Nat := 0
    let h : Hold := held9 .retry 0
    let s : State := running (tHold .retry 0)
    let x := s.tile t
    let w := x.ctrlWord x.step
    let op := bits w 31 28
    s.Canonical ∧ t < 136 ∧ s.executing t = true ∧ (s.tile t).hold = some h ∧ h.kind = .retry ∧ x.retry.length < 32 ∧ x.step < 1023 ∧ (op = 3 ∨ op = 4 ∨ (op = 6 ∧ s.svcAccepts t (bits w 27 20) (bits w 6 5) = true))) :=
  ⟨⟨(State.canonical_of_check (by decide +kernel)), by decide +kernel⟩,
   ⟨(State.canonical_of_check (by decide +kernel)), by decide +kernel⟩,
   ⟨(State.canonical_of_check (by decide +kernel)), by decide +kernel⟩⟩

theorem wit_FlagIncrementSaturates : (
    let t : Nat := 0
    let p : Packet := pMbx
    let s : State := running { t5 with flags := [(1023, 15)] }
    s.Canonical ∧ t < 136 ∧ p.flag < 1024) ∧
  (
    let t : Nat := 0
    let p : Packet := pMbx
    let s : State := running { t5 with flags := [(1023, 15)] }
    let g : Nat := 4
    s.Canonical ∧ t < 136 ∧ p.flag < 1024 ∧ g ≠ p.flag) ∧
  (
    let t : Nat := 0
    let p : Packet := pMbx
    let s : State := running { t5 with flags := [(1023, 14)] }
    let x := s.tile t
    s.Canonical ∧ t < 136 ∧ p.flag < 1024 ∧ x.flag p.flag < 15) ∧
  (
    let t : Nat := 0
    let p : Packet := pMbx
    let s : State := running { t5 with flags := [(1023, 15)] }
    let x := s.tile t
    s.Canonical ∧ t < 136 ∧ p.flag < 1024 ∧ x.flag p.flag = 15) ∧
  (
    let t : Nat := 0
    let p : Packet := pMbx
    let s : State := running { t5 with flags := [(1023, 15)] }
    let x := s.tile t
    let errs (s : State) : Word := s.reg (tilePage t 1 + 0x18)
    s.Canonical ∧ t < 136 ∧ p.flag < 1024 ∧ x.flag p.flag = 15 ∧ bits (errs s) 31 16 = 0) :=
  ⟨⟨(State.canonical_of_check (by decide +kernel)), by decide +kernel⟩,
   ⟨(State.canonical_of_check (by decide +kernel)), by decide +kernel⟩,
   ⟨(State.canonical_of_check (by decide +kernel)), by decide +kernel⟩,
   ⟨(State.canonical_of_check (by decide +kernel)), by decide +kernel⟩,
   ⟨(State.canonical_of_check (by decide +kernel)), by decide +kernel⟩⟩

theorem wit_PacketsAndAnswersArrive : (
    let t : Nat := 0
    let p : Packet := pMbx
    let s : State := withNet (running t5) { Network.reset with loc := [pMbx] }
    s.Canonical ∧ t < 136 ∧ p.kind = .mailbox ∧ p.index < 64) ∧
  (
    let t : Nat := 0
    let p : Packet := pMbx
    let s : State := withNet (running t5) { Network.reset with loc := [pMbx] }
    s.Canonical ∧ t < 136 ∧ p.kind = .mailbox ∧ p.index < 64 ∧ s.ldr.setReset = false) ∧
  (
    let t : Nat := 0
    let p : Packet := pMbx
    let s : State := withLdr (withNet (running t5) { Network.reset with loc := [pMbx] }) fun l => { l with setReset := true }
    s.Canonical ∧ t < 136 ∧ p.kind = .mailbox ∧ p.index < 64 ∧ s.ldr.setReset = true) ∧
  (
    let t : Nat := 0
    let s : State := withLdr (withNet (running t5) { Network.reset with loc := [pMbx] }) fun l => { l with setReset := true }
    s.Canonical ∧ t < 136 ∧ s.ldr.setReset = true) ∧
  (
    let t : Nat := 0
    let p : Packet := pQue
    let s : State := withNet (running t5) { Network.reset with loc := [pMbx] }
    let len := (s.tile t).qLen p.index
    s.Canonical ∧ t < 136 ∧ p.kind = .queue ∧ len < 16) ∧
  (
    let t : Nat := 0
    let p : Packet := pMbx
    let s : State := withNet (running t5) { Network.reset with loc := [pMbx] }
    let rest : List Packet := []
    s.Canonical ∧ t < 136 ∧ s.net.loc = p :: rest ∧ s.ptile p.dstVt = some t) ∧
  (
    let t : Nat := 0
    let p : Packet := pMbx
    let s : State := withNet (running t5) { Network.reset with arrivals := [pMbx] }
    let rest : List Packet := []
    s.Canonical ∧ t < 136 ∧ s.net.arrivals = p :: rest ∧ s.ptile p.dstVt = some t ∧ s.run.state ≠ .recover ∧ p.tag = (s.tile t).xbatch ∧ (s.tile t).phase ≠ .batchEnd ∧ (s.tile t).power ≠ .sleep) ∧
  (
    let t : Nat := 0
    let a : Answer := ans0
    let s : State := withNet (running { t5 with retry := [⟨aPkt, .awaiting false⟩] }) { Network.reset with answers := [ans0] }
    let rest : List Answer := []
    let e : RetryEntry := ⟨aPkt, .awaiting false⟩
    s.Canonical ∧ t < 136 ∧ s.net.answers = a :: rest ∧ s.ptile a.srcVt = some t ∧ a.outcome = .accepted ∧ (s.tile t).retry = [e] ∧ e.pkt.entry = a.entry ∧ e.pkt.tag.setWidth 16 = a.tag ∧ (∃ b : Bool, e.stage = .awaiting b) ∧ s.prf.awaiting = false) ∧
  (
    let t : Nat := 0
    let s : State := put (running { t5 with retry := [⟨aPkt, .refused 160⟩] }) [(Reg.addr .nocRtLo 1, 0xC), (Reg.addr .nocRtHi 1, 0x82000000)]
    let e : RetryEntry := ⟨aPkt, .refused 160⟩
    let n : Nat := 160
    let count : Nat := 2
    let half : BitVec 12 := 0
    let hops : BitVec 36 := 0x00C
    s.Canonical ∧ t < 136 ∧ (s.tile t).retry = [e] ∧ e.stage = .refused n ∧ 160 ≤ n ∧ e.pkt.entry < 256 ∧ s.route e.pkt.dstDev = some (count, half, hops)) ∧
  (
    let t : Nat := 0
    let p : Packet := { pMbx with tag := 42 }
    let s : State := arriving 42 fun x => x
    let rest : List Packet := []
    let x := s.tile t
    let now := x.xbatch.toNat
    s.Canonical ∧ t < 136 ∧ s.net.arrivals = p :: rest ∧ s.ptile p.dstVt = some t ∧ s.run.state ≠ .recover ∧ x.power ≠ .sleep ∧ x.rack.length < 64 ∧ (p.tag.toNat = now + 1 ∨ (p.tag.toNat = now ∧ x.phase = .batchEnd))) ∧
  (
    let t : Nat := 0
    let p : Packet := { pMbx with tag := 43 }
    let s : State := arriving 43 fun x => x
    let rest : List Packet := []
    let x := s.tile t
    let now := x.xbatch.toNat
    s.Canonical ∧ t < 136 ∧ s.net.arrivals = p :: rest ∧ s.ptile p.dstVt = some t ∧ (s.run.state = .recover ∨ now + 2 ≤ p.tag.toNat ∨ (p.tag.toNat = now + 1 ∧ (64 ≤ x.rack.length ∨ x.power = .sleep)))) ∧
  (
    let t : Nat := 0
    let p : Packet := { pMbx with tag := 40 }
    let s : State := arriving 40 fun x => x
    let rest : List Packet := []
    let x := s.tile t
    let now := x.xbatch.toNat
    s.Canonical ∧ t < 136 ∧ s.net.arrivals = p :: rest ∧ s.ptile p.dstVt = some t ∧ s.run.state ≠ .recover ∧ p.tag.toNat < now) ∧
  (
    let t : Nat := 0
    let p : Packet := { pMbx with dstVt := 9 }
    let s : State := withNet (running t5) { Network.reset with arrivals := [{ pMbx with dstVt := 9 }] }
    let rest : List Packet := []
    s.Canonical ∧ t < 136 ∧ s.net.arrivals = p :: rest ∧ s.ptile p.dstVt = none) ∧
  (
    let t : Nat := 0
    let s : State := running { t5 with retry := [⟨aPkt, .refused 160⟩] }
    let e : RetryEntry := ⟨aPkt, .refused 160⟩
    let n : Nat := 160
    s.Canonical ∧ t < 136 ∧ (s.tile t).retry = [e] ∧ e.stage = .refused n ∧ 160 ≤ n ∧ e.pkt.entry < 256 ∧ s.route e.pkt.dstDev = none) :=
  ⟨⟨(State.canonical_of_check (by decide +kernel)), by decide +kernel⟩,
   ⟨(State.canonical_of_check (by decide +kernel)), by decide +kernel⟩,
   ⟨(State.canonical_of_check (by decide +kernel)), by decide +kernel⟩,
   ⟨(State.canonical_of_check (by decide +kernel)), by decide +kernel⟩,
   ⟨(State.canonical_of_check (by decide +kernel)), by decide +kernel⟩,
   ⟨(State.canonical_of_check (by decide +kernel)), by decide +kernel⟩,
   ⟨(State.canonical_of_check (by decide +kernel)), by decide +kernel⟩,
   ⟨(State.canonical_of_check (by decide +kernel)), by decide +kernel⟩,
   ⟨(State.canonical_of_check (by decide +kernel)), by decide +kernel⟩,
   ⟨(State.canonical_of_check (by decide +kernel)), by decide +kernel⟩,
   ⟨(State.canonical_of_check (by decide +kernel)), by decide +kernel⟩,
   ⟨(State.canonical_of_check (by decide +kernel)), by decide +kernel⟩,
   ⟨(State.canonical_of_check (by decide +kernel)), by decide +kernel⟩,
   ⟨(State.canonical_of_check (by decide +kernel)), by decide +kernel⟩⟩

/-! ## Witnesses: the supervisor and the pages -/

theorem wit_ColdResetAndTrip : (
    let sensor : Nat := 47
    let s : State := busy
    s.Canonical ∧ sensor < 48 ∧ s.sup.power ≠ .unpowered) ∧
  (
    let sensor : Nat := 47
    let s : State := busy
    s.Canonical ∧ sensor < 48 ∧ s.sup.power ≠ .unpowered ∧ s.sup.power ≠ .trip) ∧
  (
    let sensor : Nat := 47
    let s : State := busy
    let live : Prop := s.sup.power = .starting ∨ s.sup.power = .running ∨ s.sup.power = .warmReset ∨
      s.sup.power = .shutdown
    s.Canonical ∧ sensor < 48 ∧ live) ∧
  (
    let mv : Nat := 1599
    let sensor : Nat := 47
    let s : State := busy
    let live : Prop := s.sup.power = .starting ∨ s.sup.power = .running ∨ s.sup.power = .warmReset ∨
      s.sup.power = .shutdown
    s.Canonical ∧ sensor < 48 ∧ live ∧ mv < 1600) ∧
  (
    let mv : Nat := 1651
    let sensor : Nat := 47
    let s : State := busy
    s.Canonical ∧ sensor < 48 ∧ 1650 < mv) ∧
  (
    let sensor : Nat := 47
    let milliC : Int := 115000
    let s : State := busy
    let live : Prop := s.sup.power = .starting ∨ s.sup.power = .running ∨ s.sup.power = .warmReset ∨
      s.sup.power = .shutdown
    s.Canonical ∧ sensor < 48 ∧ (live ∨ s.sup.power = .coldReset) ∧ 115000 ≤ milliC) ∧
  (
    let s : State := withSup busy .trip id
    s.sup.power = .trip) ∧
  (
    let s : State := withSup busy .trip id
    let v : Int := 400
    let k : Nat := 0
    s.sup.power = .trip ∧ s.tjMax = some (v, k) ∧ 400 ≤ v) ∧
  (
    let s : State := withSup (coldOnes busy 399) .trip id
    let t : State := (match exec .rstNAsserted (withSup (coldOnes busy 399) .trip id) with | .next r => r | _ => up)
    let v : Int := 399
    let k : Nat := 0
    exec .rstNAsserted s = .next t ∧ s.sup.power = .trip ∧ s.tjMax = some (v, k) ∧ v < 400) :=
  ⟨⟨(State.canonical_of_check (by decide +kernel)), by decide +kernel⟩,
   ⟨(State.canonical_of_check (by decide +kernel)), by decide +kernel⟩,
   ⟨(State.canonical_of_check (by decide +kernel)), by decide +kernel⟩,
   ⟨(State.canonical_of_check (by decide +kernel)), by decide +kernel⟩,
   ⟨(State.canonical_of_check (by decide +kernel)), by decide +kernel⟩,
   ⟨(State.canonical_of_check (by decide +kernel)), by decide +kernel⟩,
   by decide +kernel,
   by decide +kernel,
   ⟨(by rfl), by decide +kernel⟩⟩

theorem wit_ColdStartBegins : (
    let vin : VinRise := ⟨0, 4401⟩
    let s : State := withSup State.reset .unpowered fun p => { p with vioOn := true, resetSource := 2 }
    s.Canonical ∧ s.sup.resetSource < 4 ∧ ((s.sup.power = .unpowered ∧ 4400 < vin.mv) ∨ (s.sup.power = .coldReset ∧ 4100 ≤ vin.mv)) ∧ s.sup.vioOn = true) ∧
  (
    let vin : VinRise := ⟨0, 4401⟩
    let s : State := withSup State.reset .unpowered fun p => { p with vioOn := false }
    s.Canonical ∧ s.sup.resetSource < 4 ∧ s.sup.vioOn = false ∧ s.sup.power = .unpowered ∧ 4400 < vin.mv) ∧
  (
    let s : State := withSup State.reset .coldReset fun p => { p with vioOn := false }
    s.Canonical ∧ s.sup.resetSource < 4 ∧ s.sup.vioOn = false ∧ s.sup.power = .coldReset) :=
  ⟨⟨(State.canonical_of_check (by decide +kernel)), by decide +kernel⟩,
   ⟨(State.canonical_of_check (by decide +kernel)), by decide +kernel⟩,
   ⟨(State.canonical_of_check (by decide +kernel)), by decide +kernel⟩⟩

theorem wit_StartUpEvents : (
    let ch : Nat := 7
    let s : State := bootBits starting 0x40000000
    let b := s.rd .glbBootStat
    s.Canonical ∧ ch < 8 ∧ s.sup.power = .starting ∧ bit b 29 = false) ∧
  (
    let ch : Nat := 7
    let s : State := bootBits starting 0x40000000
    let b := s.rd .glbBootStat
    s.Canonical ∧ ch < 8 ∧ s.sup.power = .starting ∧ bit b 29 = false ∧ 1000000000 ≤ s.sup.ns ∧ bit (s.rd .memChCfg ch) 30 = false) ∧
  (
    let ch : Nat := 7
    let bytes : List Byte := [1, 2, 3]
    let s : State := bootBits starting 0x40000000
    let b := s.rd .glbBootStat
    s.Canonical ∧ ch < 8 ∧ s.sup.power = .starting ∧ s.sup.autoload = true ∧ bit b 30 = true ∧ bit b 28 = false ∧ s.ldr.state = .empty ∧ (s.chain.stable = true ∨ 10000000 ≤ s.sup.ns) ∧ s.pageEn ldrPage = true ∧ bytes ≠ []) ∧
  (
    let ch : Nat := 7
    let s : State := bootBits starting 0x40000000
    s.Canonical ∧ ch < 8 ∧ s.sup.pcieRetry = true ∧ 20000000 ≤ s.sup.pcieNs) ∧
  (
    let ch : Nat := 7
    let s : State := bootBits starting 0x40000000
    s.Canonical ∧ ch < 8) ∧
  (
    let ch : Nat := 7
    let s : State := { busy with pins := { busy.pins with perstLow := true } }
    s.Canonical ∧ ch < 8 ∧ s.pins.perstLow = true ∧ s.reachable = true) :=
  ⟨⟨(State.canonical_of_check (by decide +kernel)), by decide +kernel⟩,
   ⟨(State.canonical_of_check (by decide +kernel)), by decide +kernel⟩,
   ⟨(State.canonical_of_check (by decide +kernel)), by decide +kernel⟩,
   ⟨(State.canonical_of_check (by decide +kernel)), by decide +kernel⟩,
   ⟨(State.canonical_of_check (by decide +kernel)), by decide +kernel⟩,
   ⟨(State.canonical_of_check (by decide +kernel)), by decide +kernel⟩⟩

theorem wit_WarmResetAndShutdown : (
    let s : State := idle busy
    s.Canonical ∧ s.reachable = true) ∧
  (
    let value : Word := 0xA55A0003
    let s : State := busy
    s.Canonical ∧ s.reachable = true ∧ s.srst rstPage = false ∧ bits value 31 16 = 0xA55A ∧ bit value 0 = true) ∧
  (
    let value : Word := 0xA55B0001
    let s : State := busy
    s.Canonical ∧ s.reachable = true ∧ s.srst rstPage = false ∧ bits value 31 16 ≠ 0xA55A) ∧
  (
    let s : State := busy
    let q : State := bootBits (withSup busy .warmReset fun p => { p with phaseNs := 2000000 }) 0x70000000
    s.Canonical ∧ s.reachable = true ∧ q.sup.power = .warmReset ∧ 2000000 ≤ q.sup.phaseNs) ∧
  (
    let value : Word := 0xA55A0002
    let s : State := idle busy
    s.Canonical ∧ s.reachable = true ∧ s.srst rstPage = false ∧ bits value 31 16 = 0xA55A ∧ bit value 0 = false ∧ bit value 1 = true ∧ s.shuttingDown = false ∧ s.isHalted = true ∧ s.loading = false ∧ bit value 2 = false ∧ s.host.porter = [] ∧ s.svc.store = [] ∧ s.acq.state = .idle) ∧
  (
    let value : Word := 0xA55A0002
    let s : State := busy
    s.Canonical ∧ s.reachable = true ∧ s.srst rstPage = false ∧ bits value 31 16 = 0xA55A ∧ bit value 0 = false ∧ bit value 1 = true ∧ s.shuttingDown = false ∧ s.isHalted = false) ∧
  (
    let value : Word := 0xA55A0002
    let s : State := { idle busy with ldr := { busy.ldr with state := .write } }
    s.Canonical ∧ s.reachable = true ∧ s.srst rstPage = false ∧ bits value 31 16 = 0xA55A ∧ bit value 0 = false ∧ bit value 1 = true ∧ s.shuttingDown = false ∧ s.isHalted = true ∧ s.loading = true) ∧
  (
    let value : Word := 0xA55A0006
    let s : State := withLdr (withPorter (idle busy) [(7, [(3, 0, 0, true), (4, 6, 0, false)])] []) fun l => { l with inService := false, state := .empty }
    let p : Nat := 7
    s.Canonical ∧ s.reachable = true ∧ s.srst rstPage = false ∧ bits value 31 16 = 0xA55A ∧ bit value 0 = false ∧ bit value 1 = true ∧ s.shuttingDown = false ∧ s.isHalted = true ∧ s.loading = false ∧ p < 8 ∧ s.inFlight p ≠ [] ∧ s.ldr.inService = false ∧ s.acq.state = .idle) :=
  ⟨⟨(State.canonical_of_check (by decide +kernel)), by decide +kernel⟩,
   ⟨(State.canonical_of_check (by decide +kernel)), by decide +kernel⟩,
   ⟨(State.canonical_of_check (by decide +kernel)), by decide +kernel⟩,
   ⟨(State.canonical_of_check (by decide +kernel)), by decide +kernel⟩,
   ⟨(State.canonical_of_check (by decide +kernel)), by decide +kernel⟩,
   ⟨(State.canonical_of_check (by decide +kernel)), by decide +kernel⟩,
   ⟨(State.canonical_of_check (by decide +kernel)), by decide +kernel⟩,
   ⟨(State.canonical_of_check (by decide +kernel)), by decide +kernel⟩⟩

theorem wit_DesignPinSupplies : (
    let bank : Nat := 3
    let mv : Nat := 999
    let s : State := withSup { busy with pins := { busy.pins with dioDrive := 0xFFFFFFFF00000000FFFFFFFF00000001 } } .running fun p => { p with vdioOn := 0xF }
    s.Canonical ∧ bank < 4 ∧ s.sup.power ≠ .unpowered ∧ s.sup.power ≠ .coldReset ∧ mv < 1000 ∧ bit s.sup.vdioOn bank = true) ∧
  (
    let bank : Nat := 3
    let mv : Nat := 1051
    let s : State := busy
    s.Canonical ∧ bank < 4 ∧ s.sup.power ≠ .unpowered ∧ s.sup.power ≠ .coldReset ∧ 1050 < mv ∧ bit s.sup.vdioOn bank = false) ∧
  (
    let bank : Nat := 3
    let mv : Nat := 1050
    let s : State := withSup { busy with pins := { busy.pins with dioDrive := 0xFFFFFFFF00000000FFFFFFFF00000001 } } .running fun p => { p with vdioOn := 0xF }
    s.Canonical ∧ bank < 4 ∧ s.sup.power ≠ .unpowered ∧ s.sup.power ≠ .coldReset ∧ 1000 ≤ mv ∧ mv ≤ 1050) :=
  ⟨⟨(State.canonical_of_check (by decide +kernel)), by decide +kernel⟩,
   ⟨(State.canonical_of_check (by decide +kernel)), by decide +kernel⟩,
   ⟨(State.canonical_of_check (by decide +kernel)), by decide +kernel⟩⟩

theorem wit_ChainGivesIds : (
    let s : State := withSup busy .running fun p => { p with ns := 200000 }
    s.Canonical ∧ s.aon = true ∧ 200000 ≤ s.sup.ns ∧ s.chain.stable = false) ∧
  (
    let f : BitVec 11 := chainFrame 254
    let idle : Bool := true
    let s : State := withSup busy .running fun p => { p with ns := 200000 }
    let id : Byte := f.extractLsb' 1 8
    let good : Prop := idle = true ∧ f.getLsbD 10 = true ∧ b2n (f.getLsbD 9) = ones id % 2
    s.Canonical ∧ s.aon = true ∧ f.getLsbD 0 = false ∧ good ∧ s.chain.stable = false ∧ id ≠ 255) ∧
  (
    let f : BitVec 11 := chainFrame 6
    let idle : Bool := true
    let s : State := onChain busy chain7
    let id : Byte := f.extractLsb' 1 8
    let good : Prop := idle = true ∧ f.getLsbD 10 = true ∧ b2n (f.getLsbD 9) = ones id % 2
    s.Canonical ∧ s.aon = true ∧ f.getLsbD 0 = false ∧ good ∧ s.chain.stable = true ∧ id ≠ 255 ∧ id + 1 = s.chain.id) ∧
  (
    let f : BitVec 11 := chainFrame 6 ^^^ 0x200
    let idle : Bool := true
    let s : State := onChain busy chain7
    let id : Byte := f.extractLsb' 1 8
    let good : Prop := idle = true ∧ f.getLsbD 10 = true ∧ b2n (f.getLsbD 9) = ones id % 2
    s.Canonical ∧ s.aon = true ∧ f.getLsbD 0 = false ∧ ¬ good) ∧
  (
    let s : State := onChain busy chain7
    s.Canonical ∧ s.aon = true ∧ s.chain.valid = true ∧ s.chain.timerNs = 0) :=
  ⟨⟨(State.canonical_of_check (by decide +kernel)), by decide +kernel⟩,
   ⟨(State.canonical_of_check (by decide +kernel)), by decide +kernel⟩,
   ⟨(State.canonical_of_check (by decide +kernel)), by decide +kernel⟩,
   ⟨(State.canonical_of_check (by decide +kernel)), by decide +kernel⟩,
   ⟨(State.canonical_of_check (by decide +kernel)), by decide +kernel⟩⟩

theorem wit_I2cAndConsole : (
    let addr : BitVec 7 := 0x67
    let off : BitVec 16 := 0x1044
    let s : State := onChain busy chain7
    s.Canonical ∧ s.i2cAnswers addr = true ∧ off.toNat % 4 = 0) ∧
  (
    let addr : BitVec 7 := 0x67
    let off : BitVec 16 := 0x2048
    let s : State := onChain busy chain7
    s.Canonical ∧ s.i2cAnswers addr = true ∧ off.toNat % 4 = 0 ∧ off.toNat / 0x1000 = 2) ∧
  (
    let addr : BitVec 7 := 0x67
    let off : BitVec 16 := 0x1044
    let s : State := onChain busy chain7
    s.Canonical ∧ s.i2cAnswers addr = true ∧ off.toNat % 4 = 0 ∧ off.toNat / 0x1000 ≠ 2) ∧
  (
    let addr : BitVec 7 := 0x67
    let off : BitVec 16 := BitVec.ofNat 16 (Reg.addr .pwrIdle)
    let s : State := onChain busy chain7
    s.Canonical ∧ s.i2cAnswers addr = true ∧ off.toNat % 4 = 0 ∧ off.toNat = Reg.addr .pwrIdle ∧ s.srst pwrPage = false) ∧
  (
    let addr : BitVec 7 := 0x67
    let off : BitVec 16 := BitVec.ofNat 16 (Reg.addr .glbScratch)
    let s : State := onChain busy chain7
    s.Canonical ∧ s.i2cAnswers addr = true ∧ off.toNat % 4 = 0 ∧ off.toNat = Reg.addr .glbScratch) ∧
  (
    let addr : BitVec 7 := 0x67
    let s : State := onChain busy chain7
    s.Canonical ∧ s.i2cAnswers addr = true ∧ s.host.i2cOff % 4 = 0) ∧
  (
    let addr : BitVec 7 := 0x66
    let off : BitVec 16 := 0x1044
    let s : State := onChain busy chain7
    s.Canonical ∧ (s.i2cAnswers addr = false ∨ off.toNat % 4 ≠ 0)) ∧
  (
    let s : State := onChain busy chain7
    s.aon = true) ∧
  (
    let s : State := put { busy with con := ⟨[List.replicate 4012 0], 0, []⟩ } [(Reg.addr .glbUartCfg, 0xC0000000)]
    s.aon = true ∧ bit (s.rd .glbUartCfg) 31 = true ∧ s.con.lost = 0 ∧ s.con.held + 84 ≤ 4096) ∧
  (
    let s : State := put { busy with con := ⟨[[1, 2], [3]], 0, []⟩ } [(Reg.addr .glbUartCfg, 0xC0000000)]
    let l : List Byte := [1, 2]
    let rest : List (List Byte) := [[3]]
    s.aon = true ∧ bit (s.rd .glbUartCfg) 31 = true ∧ s.con.lines = l :: rest) :=
  ⟨⟨(State.canonical_of_check (by decide +kernel)), by decide +kernel⟩,
   ⟨(State.canonical_of_check (by decide +kernel)), by decide +kernel⟩,
   ⟨(State.canonical_of_check (by decide +kernel)), by decide +kernel⟩,
   ⟨(State.canonical_of_check (by decide +kernel)), by decide +kernel⟩,
   ⟨(State.canonical_of_check (by decide +kernel)), by decide +kernel⟩,
   ⟨(State.canonical_of_check (by decide +kernel)), by decide +kernel⟩,
   ⟨(State.canonical_of_check (by decide +kernel)), by decide +kernel⟩,
   by decide +kernel,
   by decide +kernel,
   by decide +kernel⟩

theorem wit_RegisterWriteStores : (
    let off : Nat := 0x60014
    let early : Option Nat := none
    let s : State := busy
    s.Canonical ∧ (∀ t : Nat, early = some t → t < 136) ∧ s.reachable = true ∧ s.sup.pcieUp = true ∧ s.host.cfg.d3hot = false ∧ off < 2 ^ 26 ∧ off % 4 = 0) ∧
  (
    let early : Option Nat := none
    let s : State := busy
    s.Canonical ∧ (∀ t : Nat, early = some t → t < 136) ∧ s.reachable = true ∧ s.sup.pcieUp = true ∧ s.host.cfg.d3hot = false ∧ s.srst glbPage = false) ∧
  (
    let early : Option Nat := none
    let s : State := put busy [(4, 7)]
    s.Canonical ∧ (∀ t : Nat, early = some t → t < 136) ∧ s.reachable = true ∧ s.sup.pcieUp = true ∧ s.host.cfg.d3hot = false ∧ s.srst glbPage = true) ∧
  (
    let early : Option Nat := none
    let s : State := busy
    s.Canonical ∧ (∀ t : Nat, early = some t → t < 136) ∧ s.reachable = true ∧ s.sup.pcieUp = true ∧ s.host.cfg.d3hot = false) ∧
  (
    let size : Nat := 3
    let early : Option Nat := none
    let s : State := busy
    s.Canonical ∧ (∀ t : Nat, early = some t → t < 136) ∧ s.reachable = true ∧ s.sup.pcieUp = true ∧ size ≠ 4 ∧ size ≠ 8) ∧
  (
    let early : Option Nat := none
    let s : State := { busy with host := { busy.host with cfg := { busy.host.cfg with d3hot := true } } }
    s.Canonical ∧ (∀ t : Nat, early = some t → t < 136) ∧ s.reachable = true ∧ s.sup.pcieUp = true ∧ s.host.cfg.d3hot = true) ∧
  (
    let early : Option Nat := none
    let s : State := busy
    s.Canonical ∧ (∀ t : Nat, early = some t → t < 136) ∧ s.reachable = true ∧ s.sup.pcieUp = true) ∧
  (
    let early : Option Nat := none
    let data : DWord := 0x1122334455667788
    let s : State := busy
    let w := lo32 data
    s.Canonical ∧ (∀ t : Nat, early = some t → t < 136) ∧ s.reachable = true ∧ s.sup.pcieUp = true ∧ bits w 1 0 = 0) ∧
  (
    let early : Option Nat := none
    let data : DWord := 0x3
    let s : State := busy
    let w := lo32 data
    s.Canonical ∧ (∀ t : Nat, early = some t → t < 136) ∧ s.reachable = true ∧ s.sup.pcieUp = true ∧ bits w 1 0 = 3) ∧
  (
    let early : Option Nat := none
    let data : DWord := 1
    let s : State := busy
    let w := lo32 data
    s.Canonical ∧ (∀ t : Nat, early = some t → t < 136) ∧ s.reachable = true ∧ s.sup.pcieUp = true ∧ bits w 1 0 ≠ 0 ∧ bits w 1 0 ≠ 3) ∧
  (
    let early : Option Nat := none
    let data : DWord := 0x5040
    let s : State := busy
    let w := lo32 data
    s.Canonical ∧ (∀ t : Nat, early = some t → t < 136) ∧ s.reachable = true ∧ s.sup.pcieUp = true ∧ bits w 7 5 ≤ 2 ∧ bits w 14 12 ≤ 5) ∧
  (
    let off : Nat := 0x60014
    let early : Option Nat := none
    let s : State := busy
    let q : State := withSup busy .running fun p => { p with pcieUp := false }
    s.Canonical ∧ (∀ t : Nat, early = some t → t < 136) ∧ s.reachable = true ∧ s.sup.pcieUp = true ∧ q.sup.pcieUp = false ∧ off < 2 ^ 26) :=
  ⟨⟨(State.canonical_of_check (by decide +kernel)), (by intro l h; cases h), by decide +kernel⟩,
   ⟨(State.canonical_of_check (by decide +kernel)), (by intro l h; cases h), by decide +kernel⟩,
   ⟨(State.canonical_of_check (by decide +kernel)), (by intro l h; cases h), by decide +kernel⟩,
   ⟨(State.canonical_of_check (by decide +kernel)), (by intro l h; cases h), by decide +kernel⟩,
   ⟨(State.canonical_of_check (by decide +kernel)), (by intro l h; cases h), by decide +kernel⟩,
   ⟨(State.canonical_of_check (by decide +kernel)), (by intro l h; cases h), by decide +kernel⟩,
   ⟨(State.canonical_of_check (by decide +kernel)), (by intro l h; cases h), by decide +kernel⟩,
   ⟨(State.canonical_of_check (by decide +kernel)), (by intro l h; cases h), by decide +kernel⟩,
   ⟨(State.canonical_of_check (by decide +kernel)), (by intro l h; cases h), by decide +kernel⟩,
   ⟨(State.canonical_of_check (by decide +kernel)), (by intro l h; cases h), by decide +kernel⟩,
   ⟨(State.canonical_of_check (by decide +kernel)), (by intro l h; cases h), by decide +kernel⟩,
   ⟨(State.canonical_of_check (by decide +kernel)), (by intro l h; cases h), by decide +kernel⟩⟩

theorem wit_PagesDisableAndReset : (
    let page : Nat := 0xA3000
    let s : State := withPorter busy [(2, [(0, 0, 0, false)])] []
    s.Canonical ∧ pageExists page = true ∧ s.reachable = true ∧ s.srst page = false ∧ s.pageLocked page = false ∧ s.pageEn page = true) ∧
  (
    let page : Nat := 0xA3000
    let s : State := withPorter busy [(2, [(0, 0, 0, false)])] []
    s.Canonical ∧ pageExists page = true ∧ s.reachable = true ∧ s.srst page = false ∧ s.pageLocked page = false) ∧
  (
    let page : Nat := 0xA3000
    let s : State := withPorter busy [(2, [(0, 0, 0, false)])] []
    s.Canonical ∧ pageExists page = true ∧ s.reachable = true ∧ s.srst page = false ∧ s.pageLocked page = false ∧ isTilePage page = false ∧ page ∉ glbPages) ∧
  (
    let page : Nat := tilePage 135 15
    let s : State := withPorter busy [(2, [(0, 0, 0, false)])] []
    s.Canonical ∧ pageExists page = true ∧ s.reachable = true ∧ s.srst page = false ∧ isTilePage page = true ∧ s.isHalted = false) ∧
  (
    let page : Nat := 0x0
    let s : State := { put busy [(4, 6), (0x18, 0x10001), (0x44, 7)] with host := { busy.host with srsts := [0] } }
    s.Canonical ∧ pageExists page = true ∧ page ∈ s.host.srsts ∧ s.workLeft page = false ∧ (page ≠ prfPage ∨ s.run.state ≠ .recover)) ∧
  (
    let page : Nat := 0xA3000
    let s : State := loading .commit true []
    s.Canonical ∧ pageExists page = true ∧ s.reachable = true ∧ s.srst ldrPage = false ∧ s.loading = true) ∧
  (
    let page : Nat := acqPage + 0x1000
    let s : State := acqs .live 0 []
    s.Canonical ∧ pageExists page = true ∧ s.reachable = true ∧ s.srst page = false ∧ s.pageLocked page = true) :=
  ⟨⟨(State.canonical_of_check (by decide +kernel)), by decide +kernel⟩,
   ⟨(State.canonical_of_check (by decide +kernel)), by decide +kernel⟩,
   ⟨(State.canonical_of_check (by decide +kernel)), by decide +kernel⟩,
   ⟨(State.canonical_of_check (by decide +kernel)), by decide +kernel⟩,
   ⟨(State.canonical_of_check (by decide +kernel)), by decide +kernel⟩,
   ⟨(State.canonical_of_check (by decide +kernel)), by decide +kernel⟩,
   ⟨(State.canonical_of_check (by decide +kernel)), by decide +kernel⟩⟩

theorem wit_DrainLimitsDiscard : (
    let p : Nat := 7
    let eng : Nat := 5
    let s : State := withPorter busy [(2, [(1, 0, 0, false)]), (7, [(3, 0, 0, true), (4, 6, 0, false)])] [(porterPage 7, 100000000000)]
    s.Canonical ∧ p < 8 ∧ eng < 18 ∧ s.drainDue (porterPage p) = true) ∧
  (
    let p : Nat := 7
    let eng : Nat := 5
    let s : State := withSvc (withPorter busy [] [(criPage, 100000000000)]) { Service.reset with store := [criItem] }
    s.Canonical ∧ p < 8 ∧ eng < 18 ∧ s.drainDue criPage = true) ∧
  (
    let p : Nat := 7
    let eng : Nat := 5
    let i : SvcItem := supItem 1 0 0 0 0 0
    let s : State := onEng (withPorter busy [] [(svcPage, 100000000000)]) (supItem 1 0 0 0 0 0)
    s.Canonical ∧ p < 8 ∧ eng < 18 ∧ s.drainDue svcPage = true ∧ s.svc.store = [i] ∧ i.stage = .running eng ∧ i.source = .sup) ∧
  (
    let p : Nat := 7
    let eng : Nat := 5
    let i : SvcItem := tileItem 1 5
    let s : State := onEng (withPorter busy [] [(svcPage, 100000000000)]) (tileItem 1 5)
    s.Canonical ∧ p < 8 ∧ eng < 18 ∧ s.drainDue svcPage = true ∧ s.svc.store = [i] ∧ i.stage = .running eng ∧ i.fromTile = true) ∧
  (
    let p : Nat := 7
    let eng : Nat := 5
    let s : State := onEng (withPorter up [] [(engPage 5, 100000000000)]) (supItem 1 0 0 0 0 0)
    s.Canonical ∧ p < 8 ∧ eng < 18 ∧ s.drainDue (engPage eng) = true ∧ s.run.state = .idle ∧ (∃ n ∈ s.spareEngines, n ≠ eng)) ∧
  (
    let p : Nat := 7
    let eng : Nat := 5
    let s : State := withPort (withPorter busy [] [(portPage 7 0, 100000000000)]) 7 { portIn .drain with retryBuf := [sent 5 1] }
    s.Canonical ∧ p < 8 ∧ eng < 18 ∧ s.drainDue (portPage p 0) = true ∧ (s.port p).state = .drain ∧ (s.port (p + 8)).state = .off) ∧
  (
    let p : Nat := 7
    let eng : Nat := 5
    let s : State := let s := acqs .drain 0 []; withPorter s [] [(acqPage, 100000000000)]
    s.Canonical ∧ p < 8 ∧ eng < 18 ∧ s.drainDue acqPage = true) ∧
  (
    let p : Nat := 7
    let eng : Nat := 5
    let s : State := withPorter busy [(2, [(1, 0, 0, false)]), (7, [(3, 0, 0, true), (4, 6, 0, false)])] [(porterPage 7, 100000000000)]
    s.Canonical ∧ p < 8 ∧ eng < 18) :=
  ⟨⟨(State.canonical_of_check (by decide +kernel)), by decide +kernel⟩,
   ⟨(State.canonical_of_check (by decide +kernel)), by decide +kernel⟩,
   ⟨(State.canonical_of_check (by decide +kernel)), by decide +kernel⟩,
   ⟨(State.canonical_of_check (by decide +kernel)), by decide +kernel⟩,
   ⟨(State.canonical_of_check (by decide +kernel)), by decide +kernel⟩,
   ⟨(State.canonical_of_check (by decide +kernel)), by decide +kernel⟩,
   ⟨(State.canonical_of_check (by decide +kernel)), by decide +kernel⟩,
   ⟨(State.canonical_of_check (by decide +kernel)), by decide +kernel⟩⟩

theorem wit_InterruptRegisters : (
    let page : Nat := 0x7000
    let s : State := masked (put busy [(0x700C, 0x6), (0x7010, 0x6), (0x7014, 9), (0x7018, 0x20001), (0x701C, 5)]) [255] [255, 3]
    s.Canonical ∧ pageExists page = true ∧ s.reachable = true ∧ s.srst page = false ∧ s.pageLocked page = false) ∧
  (
    let page : Nat := 0x7000
    let val : Word := 0x3
    let s : State := masked (put busy [(0x700C, 0x6), (0x7010, 0x6), (0x7014, 9), (0x7018, 0x20001), (0x701C, 5)]) [255] [255, 3]
    s.Canonical ∧ pageExists page = true ∧ s.reachable = true ∧ bit val 0 = true ∧ s.pageLocked page = false) ∧
  (
    let page : Nat := 0x7000
    let v : Nat := 255
    let s : State := masked (put busy [(0x700C, 0x6), (0x7010, 0x6), (0x7014, 9), (0x7018, 0x20001), (0x701C, 5)]) [255] [255, 3]
    s.Canonical ∧ pageExists page = true ∧ s.reachable = true ∧ v < 256) ∧
  (
    let page : Nat := 0x7000
    let s : State := masked (put busy [(0x700C, 0x6), (0x7010, 0x6), (0x7014, 9), (0x7018, 0x20001), (0x701C, 5)]) [255] [255, 3]
    s.Canonical ∧ pageExists page = true ∧ s.reachable = true) ∧
  (
    let page : Nat := acqPage + 0x1000
    let s : State := acqs .live 0 []
    s.Canonical ∧ pageExists page = true ∧ s.reachable = true ∧ s.srst page = false ∧ s.pageLocked page = true) ∧
  (
    let page : Nat := acqPage + 0x1000
    let val : Word := 0x3
    let s : State := acqs .live 0 []
    s.Canonical ∧ pageExists page = true ∧ s.reachable = true ∧ s.srst page = false ∧ s.pageLocked page = true ∧ bit val 0 = true) :=
  ⟨⟨(State.canonical_of_check (by decide +kernel)), by decide +kernel⟩,
   ⟨(State.canonical_of_check (by decide +kernel)), by decide +kernel⟩,
   ⟨(State.canonical_of_check (by decide +kernel)), by decide +kernel⟩,
   ⟨(State.canonical_of_check (by decide +kernel)), by decide +kernel⟩,
   ⟨(State.canonical_of_check (by decide +kernel)), by decide +kernel⟩,
   ⟨(State.canonical_of_check (by decide +kernel)), by decide +kernel⟩⟩

/-! ## Witnesses: the host and the service plane -/

theorem wit_Bar2Accesses : (
    let off : Nat := 61
    let size : Nat := 3
    let s : State := busy
    let a := s.bar2Addr off
    let outside : Prop := s.inModel (a / 64 * 64) 64 = false
    let d0 : Prop := s.host.cfg.d3hot = false
    s.Canonical ∧ s.Plain s.bar2Req 0 (a / 64 * 64) (a / 64 * 64 + 64) true false ∧ s.bar2Open = true ∧ s.sup.pcieUp = true ∧ d0 ∧ off % 64 + size ≤ 64 ∧ off + size ≤ 2 ^ 36 ∧ a + size ≤ s.ddrCap ∧ outside) ∧
  (
    let off : Nat := 61
    let bytes : List Byte := [7, 0, 9]
    let s : State := busy
    let a := s.bar2Addr off
    let outside : Prop := s.inModel (a / 64 * 64) 64 = false
    let d0 : Prop := s.host.cfg.d3hot = false
    s.Canonical ∧ s.Plain s.bar2Req 0 (a / 64 * 64) (a / 64 * 64 + 64) false true ∧ s.bar2Open = true ∧ s.sup.pcieUp = true ∧ d0 ∧ off % 64 + bytes.length ≤ 64 ∧ off + bytes.length ≤ 2 ^ 36 ∧ a + bytes.length ≤ s.ddrCap ∧ outside) ∧
  (
    let off : Nat := 1073741823
    let size : Nat := 2
    let s : State := busy
    let a := s.bar2Addr off
    let d0 : Prop := s.host.cfg.d3hot = false
    s.Canonical ∧ s.bar2Open = true ∧ s.sup.pcieUp = true ∧ d0 ∧ off + size ≤ 2 ^ 36 ∧ s.ddrCap < a + size) ∧
  (
    let off : Nat := 1073741822
    let bytes : List Byte := [7, 0, 9]
    let s : State := busy
    let a := s.bar2Addr off
    let d0 : Prop := s.host.cfg.d3hot = false
    s.Canonical ∧ s.bar2Open = true ∧ s.sup.pcieUp = true ∧ d0 ∧ off + bytes.length ≤ 2 ^ 36 ∧ s.ddrCap < a + bytes.length) ∧
  (
    let off : Nat := 61
    let size : Nat := 3
    let s : State := { busy with host := { busy.host with cfg := { busy.host.cfg with d3hot := true } } }
    s.Canonical ∧ s.bar2Open = true ∧ s.sup.pcieUp = true ∧ s.host.cfg.d3hot = true ∧ off + size ≤ 2 ^ 36) ∧
  (
    let off : Nat := 61
    let bytes : List Byte := [7, 0, 9]
    let s : State := { busy with host := { busy.host with cfg := { busy.host.cfg with d3hot := true } } }
    s.Canonical ∧ s.bar2Open = true ∧ s.sup.pcieUp = true ∧ s.host.cfg.d3hot = true ∧ off + bytes.length ≤ 2 ^ 36) ∧
  (
    let off : Nat := 61
    let size : Nat := 3
    let s : State := busy
    let q : State := withSup busy .running fun p => { p with pcieUp := false }
    s.Canonical ∧ s.bar2Open = true ∧ s.sup.pcieUp = true ∧ q.sup.pcieUp = false ∧ off + size ≤ 2 ^ 36) ∧
  (
    let off : Nat := 61
    let bytes : List Byte := [7, 0, 9]
    let s : State := busy
    let q : State := withSup busy .running fun p => { p with pcieUp := false }
    s.Canonical ∧ s.bar2Open = true ∧ s.sup.pcieUp = true ∧ q.sup.pcieUp = false ∧ off + bytes.length ≤ 2 ^ 36) :=
  ⟨⟨(State.canonical_of_check (by decide +kernel)), (State.plain_of_check (by decide +kernel)), by decide +kernel⟩,
   ⟨(State.canonical_of_check (by decide +kernel)), (State.plain_of_check (by decide +kernel)), by decide +kernel⟩,
   ⟨(State.canonical_of_check (by decide +kernel)), by decide +kernel⟩,
   ⟨(State.canonical_of_check (by decide +kernel)), by decide +kernel⟩,
   ⟨(State.canonical_of_check (by decide +kernel)), by decide +kernel⟩,
   ⟨(State.canonical_of_check (by decide +kernel)), by decide +kernel⟩,
   ⟨(State.canonical_of_check (by decide +kernel)), by decide +kernel⟩,
   ⟨(State.canonical_of_check (by decide +kernel)), by decide +kernel⟩⟩

theorem wit_PortersMoveDescriptors : (
    let p : Nat := 3
    let s : State := larder1Porter busy
    s.Canonical ∧ p < 8 ∧ s.reachable = true ∧ s.srst (porterPage p) = false) ∧
  (
    let p : Nat := 3
    let d : Descriptor := { aDesc with tgt := 4 }
    let s : State := larder1Porter busy
    let ready : Prop := s.reachable = true ∧ s.sup.pcieUp = true ∧ s.pageEn (porterPage p) = true ∧
      s.ringReady p = true ∧ s.underTest 165 = false ∧ s.targetTested d = false ∧ s.run.state ≠ .recover ∧
        s.enc.integrityHalt = false ∧ (d.fence = true → s.inFlight p = [])
    s.Canonical ∧ p < 8 ∧ ready ∧ (4 ≤ d.tgt.toNat ∨ (d.tgt = 3 ∧ d.dir = true))) ∧
  (
    let p : Nat := 3
    let d : Descriptor := aDesc
    let data : List Byte := [1, 0, 3, 4]
    let s : State := larder1Porter busy
    let ready : Prop := s.reachable = true ∧ s.sup.pcieUp = true ∧ s.pageEn (porterPage p) = true ∧
      s.ringReady p = true ∧ s.underTest 165 = false ∧ s.targetTested d = false ∧ s.run.state ≠ .recover ∧
        s.enc.integrityHalt = false ∧ (d.fence = true → s.inFlight p = [])
    let n := data.length
    s.Canonical ∧ p < 8 ∧ ready ∧ d.rsvd = 0 ∧ d.length.toNat = data.length ∧ 0 < data.length ∧ data.length ≤ 16777216 ∧ d.tgt = 1 ∧ bits d.devAddr 24 0 + n ≤ 2 ^ 25 ∧ s.descOwned p d = true ∧ d.dir = false) ∧
  (
    let p : Nat := 3
    let d : Descriptor := { aDesc with dir := true }
    let data : List Byte := [1, 0, 3, 4]
    let s : State := larder1Porter busy
    let ready : Prop := s.reachable = true ∧ s.sup.pcieUp = true ∧ s.pageEn (porterPage p) = true ∧
      s.ringReady p = true ∧ s.underTest 165 = false ∧ s.targetTested d = false ∧ s.run.state ≠ .recover ∧
        s.enc.integrityHalt = false ∧ (d.fence = true → s.inFlight p = [])
    let n := data.length
    s.Canonical ∧ p < 8 ∧ ready ∧ d.rsvd = 0 ∧ d.length.toNat = data.length ∧ 0 < data.length ∧ data.length ≤ 16777216 ∧ d.tgt = 1 ∧ bits d.devAddr 24 0 + n ≤ 2 ^ 25 ∧ s.descOwned p d = true ∧ d.dir = true) ∧
  (
    let p : Nat := 3
    let d : Descriptor := { aDesc with tgt := 2, devAddr := 0xFFFC }
    let data : List Byte := [1, 0, 3, 4]
    let s : State := put (larder1Porter busy) [(Reg.addr .tilPanOwn 0 0, 0x303)]
    let ready : Prop := s.reachable = true ∧ s.sup.pcieUp = true ∧ s.pageEn (porterPage p) = true ∧
      s.ringReady p = true ∧ s.underTest 165 = false ∧ s.targetTested d = false ∧ s.run.state ≠ .recover ∧
        s.enc.integrityHalt = false ∧ (d.fence = true → s.inFlight p = [])
    let n := data.length
    let t : Nat := 0
    s.Canonical ∧ p < 8 ∧ ready ∧ d.rsvd = 0 ∧ d.length.toNat = data.length ∧ 0 < data.length ∧ data.length ≤ 16777216 ∧ d.tgt = 2 ∧ s.ptile (bits d.devAddr 27 20) = some t ∧ bits d.devAddr 19 0 + n ≤ 2 ^ 20 ∧ s.descOwned p d = true ∧ d.dir = false) ∧
  (
    let p : Nat := 3
    let d : Descriptor := { aDesc with tgt := 2, devAddr := 0xFFFC, dir := true }
    let data : List Byte := [1, 0, 3, 4]
    let s : State := put (larder1Porter busy) [(Reg.addr .tilPanOwn 0 0, 0x303)]
    let ready : Prop := s.reachable = true ∧ s.sup.pcieUp = true ∧ s.pageEn (porterPage p) = true ∧
      s.ringReady p = true ∧ s.underTest 165 = false ∧ s.targetTested d = false ∧ s.run.state ≠ .recover ∧
        s.enc.integrityHalt = false ∧ (d.fence = true → s.inFlight p = [])
    let n := data.length
    let t : Nat := 0
    s.Canonical ∧ p < 8 ∧ ready ∧ d.rsvd = 0 ∧ d.length.toNat = data.length ∧ 0 < data.length ∧ data.length ≤ 16777216 ∧ d.tgt = 2 ∧ s.ptile (bits d.devAddr 27 20) = some t ∧ bits d.devAddr 19 0 + n ≤ 2 ^ 20 ∧ s.descOwned p d = true ∧ d.dir = true) ∧
  (
    let p : Nat := 3
    let d : Descriptor := { aDesc with tgt := 0, devAddr := 60 }
    let data : List Byte := [1, 0, 3, 4]
    let s : State := larder1Porter busy
    let ready : Prop := s.reachable = true ∧ s.sup.pcieUp = true ∧ s.pageEn (porterPage p) = true ∧
      s.ringReady p = true ∧ s.underTest 165 = false ∧ s.targetTested d = false ∧ s.run.state ≠ .recover ∧
        s.enc.integrityHalt = false ∧ (d.fence = true → s.inFlight p = [])
    let n := data.length
    let a := d.devAddr.toNat
    let lo := a / 64 * 64
    s.Canonical ∧ s.Plain ⟨clsPorter, 1 + p⟩ (1 + p) lo (lo + 64) false true ∧ p < 8 ∧ ready ∧ d.rsvd = 0 ∧ d.length.toNat = data.length ∧ 0 < data.length ∧ data.length ≤ 16777216 ∧ d.tgt = 0 ∧ d.devAddr.toNat % 64 + n ≤ 64 ∧ d.devAddr.toNat + n ≤ s.ddrCap ∧ s.svc.cache = [] ∧ (∀ x ∈ s.inFlight p, x.1 ≠ s.nextIndex p) ∧ d.dir = false ∧ s.inModel lo 64 = false) ∧
  (
    let p : Nat := 3
    let d : Descriptor := { aDesc with tgt := 0, devAddr := 60, dir := true }
    let data : List Byte := [1, 0, 3, 4]
    let s : State := larder1Porter busy
    let ready : Prop := s.reachable = true ∧ s.sup.pcieUp = true ∧ s.pageEn (porterPage p) = true ∧
      s.ringReady p = true ∧ s.underTest 165 = false ∧ s.targetTested d = false ∧ s.run.state ≠ .recover ∧
        s.enc.integrityHalt = false ∧ (d.fence = true → s.inFlight p = [])
    let n := data.length
    let a := d.devAddr.toNat
    let lo := a / 64 * 64
    s.Canonical ∧ s.Plain ⟨clsPorter, 1 + p⟩ (1 + p) lo (lo + 64) true false ∧ p < 8 ∧ ready ∧ d.rsvd = 0 ∧ d.length.toNat = data.length ∧ 0 < data.length ∧ data.length ≤ 16777216 ∧ d.tgt = 0 ∧ d.devAddr.toNat % 64 + n ≤ 64 ∧ d.devAddr.toNat + n ≤ s.ddrCap ∧ s.svc.cache = [] ∧ (∀ x ∈ s.inFlight p, x.1 ≠ s.nextIndex p) ∧ d.dir = true) ∧
  (
    let p : Nat := 3
    let d : Descriptor := { aDesc with tgt := 3 }
    let data : List Byte := [1, 0, 3, 4]
    let s : State := withLdr (larder1Porter busy) fun l => { l with state := .header, buf := [9] }
    let ready : Prop := s.reachable = true ∧ s.sup.pcieUp = true ∧ s.pageEn (porterPage p) = true ∧
      s.ringReady p = true ∧ s.underTest 165 = false ∧ s.targetTested d = false ∧ s.run.state ≠ .recover ∧
        s.enc.integrityHalt = false ∧ (d.fence = true → s.inFlight p = [])
    s.Canonical ∧ p < 8 ∧ ready ∧ d.rsvd = 0 ∧ d.length.toNat = data.length ∧ 0 < data.length ∧ data.length ≤ 16777216 ∧ d.tgt = 3 ∧ d.dir = false ∧ s.ldrSrc = 0 ∧ s.pageEn ldrPage = true ∧ (s.ldr.state = .header ∨ s.ldr.state = .stage ∨ s.ldr.state = .write)) ∧
  (
    let p : Nat := 3
    let s : State := withPorter (larder1Porter busy) [(3, [(5, 0, 0, true), (6, 0, 0, false)])] []
    let i : Nat := 5
    let code : Nat := 0
    let failed : Nat := 0
    let irq : Bool := true
    let rest : List (Nat × Nat × Nat × Bool) := [(6, 0, 0, false)]
    s.Canonical ∧ p < 8 ∧ s.inFlight p = (i, code, failed, irq) :: rest ∧ (∀ x ∈ s.host.moving, ¬ (x.porter = p ∧ x.index = i)) ∧ code < 256 ∧ failed < 256) :=
  ⟨⟨(State.canonical_of_check (by decide +kernel)), by decide +kernel⟩,
   ⟨(State.canonical_of_check (by decide +kernel)), by decide +kernel⟩,
   ⟨(State.canonical_of_check (by decide +kernel)), by decide +kernel⟩,
   ⟨(State.canonical_of_check (by decide +kernel)), by decide +kernel⟩,
   ⟨(State.canonical_of_check (by decide +kernel)), by decide +kernel⟩,
   ⟨(State.canonical_of_check (by decide +kernel)), by decide +kernel⟩,
   ⟨(State.canonical_of_check (by decide +kernel)), (State.plain_of_check (by decide +kernel)), by decide +kernel⟩,
   ⟨(State.canonical_of_check (by decide +kernel)), (State.plain_of_check (by decide +kernel)), by decide +kernel⟩,
   ⟨(State.canonical_of_check (by decide +kernel)), by decide +kernel⟩,
   ⟨(State.canonical_of_check (by decide +kernel)), by decide +kernel⟩⟩

theorem wit_HostQueues : (
    let q : Nat := 0
    let val : Word := 0xBEEF
    let s : State := put busy [(qWord0, 3)]
    let i := s.descItem q (val.setWidth 16)
    let limit := if q = 0 then 64 else 32
    s.Canonical ∧ s.reachable = true ∧ s.srst svcPage = false ∧ q < 2 ∧ s.queueUsed q < limit ∧ s.pageEn svcPage = true ∧ (s.listed i.level).length < 1024 ∧ i.type ∈ hostTypes) ∧
  (
    let q : Nat := 0
    let s : State := fullQueue busy
    let limit := if q = 0 then 64 else 32
    s.Canonical ∧ s.reachable = true ∧ s.srst svcPage = false ∧ q < 2 ∧ limit ≤ s.queueUsed q) ∧
  (
    let q : Nat := 0
    let c : HostCpl := cpl0
    let rest : List HostCpl := [cpl1]
    let s : State := withSvc busy { Service.reset with nextId := 9, store := [{ supItem 1 0 0 0 0 0 with stage := .done }], cplSup := [cpl0, cpl1] }
    s.Canonical ∧ s.reachable = true ∧ s.srst svcPage = false ∧ q < 2 ∧ s.svc.cplSup = c :: rest ∧ c.item < s.svc.nextId ∧ s.peeks svcPage .bar0 = false) ∧
  (
    let q : Nat := 0
    let c : HostCpl := cpl0
    let rest : List HostCpl := [cpl1]
    let s : State := put (withSvc busy { Service.reset with nextId := 9, cplSup := [cpl0, cpl1] }) [(svcPage + 4, 0xD)]
    s.Canonical ∧ s.reachable = true ∧ s.srst svcPage = false ∧ q < 2 ∧ s.svc.cplSup = c :: rest ∧ c.item < s.svc.nextId ∧ s.peeks svcPage .bar0 = true) ∧
  (
    let q : Nat := 0
    let c : HostCpl := cpl0
    let rest : List HostCpl := [cpl1]
    let s : State := withSvc busy { Service.reset with nextId := 9, store := [{ supItem 1 0 0 0 0 0 with source := .dbg, stage := .done }], cplDbg := [cpl0, cpl1] }
    s.Canonical ∧ s.reachable = true ∧ s.srst svcPage = false ∧ q < 2 ∧ s.svc.cplDbg = c :: rest ∧ c.item < s.svc.nextId ∧ s.peeks svcPage .bar0 = false) ∧
  (
    let q : Nat := 0
    let c : HostCpl := cpl0
    let rest : List HostCpl := [cpl1]
    let s : State := put (withSvc busy { Service.reset with nextId := 9, cplDbg := [cpl0, cpl1] }) [(svcPage + 4, 0xD)]
    s.Canonical ∧ s.reachable = true ∧ s.srst svcPage = false ∧ q < 2 ∧ s.svc.cplDbg = c :: rest ∧ c.item < s.svc.nextId ∧ s.peeks svcPage .bar0 = true) ∧
  (
    let q : Nat := 0
    let s : State := put busy [(qWord0, 3)]
    s.Canonical ∧ s.reachable = true ∧ s.srst svcPage = false ∧ q < 2 ∧ s.svc.cplSup = []) ∧
  (
    let q : Nat := 0
    let s : State := put busy [(qWord0, 3)]
    s.Canonical ∧ s.reachable = true ∧ s.srst svcPage = false ∧ q < 2 ∧ s.svc.cplDbg = []) :=
  ⟨⟨(State.canonical_of_check (by decide +kernel)), by decide +kernel⟩,
   ⟨(State.canonical_of_check (by decide +kernel)), by decide +kernel⟩,
   ⟨(State.canonical_of_check (by decide +kernel)), by decide +kernel⟩,
   ⟨(State.canonical_of_check (by decide +kernel)), by decide +kernel⟩,
   ⟨(State.canonical_of_check (by decide +kernel)), by decide +kernel⟩,
   ⟨(State.canonical_of_check (by decide +kernel)), by decide +kernel⟩,
   ⟨(State.canonical_of_check (by decide +kernel)), by decide +kernel⟩,
   ⟨(State.canonical_of_check (by decide +kernel)), by decide +kernel⟩⟩

theorem wit_TransactorRings : (
    let c : Nat := 2
    let s : State := rings (parkOn busy parkedItem)
    s.Canonical ∧ s.reachable = true ∧ s.srst svcPage = false ∧ c < 16) ∧
  (
    let c : Nat := 2
    let val : Word := 0x80060001
    let s : State := put busy [(Reg.addr .svcXoutPtr 2, 0x50003)]
    s.Canonical ∧ s.reachable = true ∧ s.srst svcPage = false ∧ c < 16 ∧ bit val 0 = true ∧ bit (s.rd .svcXoutBaseLo c) 0 = false) ∧
  (
    let c : Nat := 2
    let val : Word := 0x80060001
    let s : State := put busy [(Reg.addr .svcXinPtr 2, 0x50003)]
    s.Canonical ∧ s.reachable = true ∧ s.srst svcPage = false ∧ c < 16 ∧ bit val 0 = true ∧ bit (s.rd .svcXinBaseLo c) 0 = false) ∧
  (
    let c : Nat := 2
    let val : Word := 0x80060001
    let s : State := put (withCache busy [cachedLine]) [(svcPage + 4, 0)]
    s.Canonical ∧ s.reachable = true ∧ s.srst svcPage = false ∧ c < 16 ∧ bit val 31 = true ∧ s.pageEn svcPage = false) ∧
  (
    let c : Nat := 2
    let val : Word := 0x80060001
    let s : State := withCache busy [cachedLine]
    s.Canonical ∧ s.reachable = true ∧ s.srst svcPage = false ∧ c < 16 ∧ bit val 31 = true ∧ s.pageEn svcPage = true) :=
  ⟨⟨(State.canonical_of_check (by decide +kernel)), by decide +kernel⟩,
   ⟨(State.canonical_of_check (by decide +kernel)), by decide +kernel⟩,
   ⟨(State.canonical_of_check (by decide +kernel)), by decide +kernel⟩,
   ⟨(State.canonical_of_check (by decide +kernel)), by decide +kernel⟩,
   ⟨(State.canonical_of_check (by decide +kernel)), by decide +kernel⟩⟩

theorem wit_TokensAndItems : (
    let k : Nat := 0
    let tk : Token := leadTok
    let s : State := withTok busy leadTok []
    let first : Prop := s.svc.tokens[k]? = some tk ∧ ∀ q ∈ s.svc.tokens.take k, q.vtile ≠ tk.vtile
    let found := s.svc.store.find? fun j => j.takes (tmplMatch tk.tmpl) tk.batch tk.token
    let ckind := bits tk.tmpl 35 34
    s.Canonical ∧ first ∧ found = none ∧ s.poolUsed < 3520 ∧ tk.token = 0 ∧ bits tk.tmpl 15 12 = 1 ∧ tk.tmpl.setWidth 8 ∈ tileTypes ∧ (ckind = 1 ∨ ckind = 2)) ∧
  (
    let k : Nat := 0
    let tk : Token := tok1
    let e : SvcItem := openItem
    let s : State := withTok busy tok1 [openItem]
    let first : Prop := s.svc.tokens[k]? = some tk ∧ ∀ q ∈ s.svc.tokens.take k, q.vtile ≠ tk.vtile
    let found := s.svc.store.find? fun j => j.takes (tmplMatch tk.tmpl) tk.batch tk.token
    s.Canonical ∧ first ∧ found = some e ∧ tk.token ≠ 0 ∧ tk.token < 4 ∧ e.stage = .collecting ∧ e.hasLead = true ∧ needs e.need tk.token = true ∧ e.type = tk.tmpl.setWidth 8 ∧ e.type ∈ tileTypes ∧ (e.ckind = 1 ∨ e.ckind = 2)) ∧
  (
    let k : Nat := 0
    let tk : Token := ⟨0x55, 0, 0, 2, 3, 0, false⟩
    let s : State := withTok busy ⟨0x55, 0, 0, 2, 3, 0, false⟩ []
    let first : Prop := s.svc.tokens[k]? = some tk ∧ ∀ q ∈ s.svc.tokens.take k, q.vtile ≠ tk.vtile
    let found := s.svc.store.find? fun j => j.takes (tmplMatch tk.tmpl) tk.batch tk.token
    let ckind := bits tk.tmpl 35 34
    s.Canonical ∧ first ∧ found = none ∧ s.poolUsed < 3520 ∧ tk.tmpl.setWidth 8 ∉ tileTypes ∧ ckind ≠ 1 ∧ ckind ≠ 2) ∧
  (
    let k : Nat := 0
    let tk : Token := ⟨0x55, 0, 0, 2, 3, 0x0400001001, true⟩
    let s : State := withTok busy ⟨0x55, 0, 0, 2, 3, 0x0400001001, true⟩ []
    let first : Prop := s.svc.tokens[k]? = some tk ∧ ∀ q ∈ s.svc.tokens.take k, q.vtile ≠ tk.vtile
    let found := s.svc.store.find? fun j => j.takes (tmplMatch tk.tmpl) tk.batch tk.token
    s.Canonical ∧ first ∧ found = none ∧ s.poolUsed < 3520 ∧ tk.tmpl.setWidth 8 ∈ tileTypes ∧ tk.isLead = true ∧ needs (bits tk.tmpl 15 12) tk.token = false) ∧
  (
    let k : Nat := 0
    let tk : Token := ⟨0x66, 0, 0, 1, 3, 0x0400003001, true⟩
    let e : SvcItem := { openItem with hasLead := false }
    let s : State := withTok busy ⟨0x66, 0, 0, 1, 3, 0x0400003001, true⟩ [{ openItem with hasLead := false }]
    let first : Prop := s.svc.tokens[k]? = some tk ∧ ∀ q ∈ s.svc.tokens.take k, q.vtile ≠ tk.vtile
    let found := s.svc.store.find? fun j => j.takes (tmplMatch tk.tmpl) tk.batch tk.token
    let ckind := bits tk.tmpl 35 34
    s.Canonical ∧ first ∧ found = some e ∧ tk.token < 4 ∧ e.stage = .collecting ∧ e.hasLead = false ∧ tk.isLead = true ∧ needs (bits tk.tmpl 15 12) tk.token = true ∧ e.type = tk.tmpl.setWidth 8 ∧ e.type ∈ tileTypes ∧ (ckind = 1 ∨ ckind = 2)) ∧
  (
    let eng : Nat := 15
    let i : SvcItem := { openItem with stage := .ready }
    let s : State := withSvc busy { Service.reset with store := [{ openItem with stage := .ready }], ready := [7] }
    s.Canonical ∧ eng < 18 ∧ s.engineFree eng = true ∧ s.pick 8 = some i) ∧
  (
    let item : Nat := 7
    let ns : Nat := 160
    let t : Nat := 0
    let i : SvcItem := { tileItem 1 0 with stage := .kept 160, result := 0x77 }
    let s : State := withSvc busy { Service.reset with nextId := 9, store := [{ tileItem 1 0 with stage := .kept 160, result := 0x77 }] }
    let x := s.tile t
    s.Canonical ∧ s.item item = some i ∧ i.stage = .kept ns ∧ 160 ≤ ns ∧ i.id < s.svc.nextId ∧ s.ptile i.cvtile = some t ∧ s.run.state ≠ .recover ∧ i.batch = x.xbatch ∧ x.phase ≠ .batchEnd ∧ x.power ≠ .sleep) ∧
  (
    let item : Nat := 7
    let i : SvcItem := { supItem 1 0x800 0 0 0 0 with stage := .ready, heldNs := 3000 }
    let s : State := put (withSvc { busy with led := { busy.led with level := -1 } } { Service.reset with store := [{ supItem 1 0x800 0 0 0 0 with stage := .ready, heldNs := 3000 }] }) [(Reg.addr .pwrDeferMax, 3)]
    s.Canonical ∧ s.item item = some i ∧ s.heldItem i = true ∧ s.fld .pwrDeferMax 15 0 ≠ 0 ∧ s.fld .pwrDeferMax 15 0 * 1000 ≤ i.heldNs) :=
  ⟨⟨(State.canonical_of_check (by decide +kernel)), by decide +kernel⟩,
   ⟨(State.canonical_of_check (by decide +kernel)), by decide +kernel⟩,
   ⟨(State.canonical_of_check (by decide +kernel)), by decide +kernel⟩,
   ⟨(State.canonical_of_check (by decide +kernel)), by decide +kernel⟩,
   ⟨(State.canonical_of_check (by decide +kernel)), by decide +kernel⟩,
   ⟨(State.canonical_of_check (by decide +kernel)), by decide +kernel⟩,
   ⟨(State.canonical_of_check (by decide +kernel)), by decide +kernel⟩,
   ⟨(State.canonical_of_check (by decide +kernel)), by decide +kernel⟩⟩

theorem wit_MemoryItemsComplete : (
    let eng : Nat := 5
    let i : SvcItem := supItem 1 0x30000000 64 0 0 0
    let s : State := onEng busy (supItem 1 0x30000000 64 0 0 0)
    let a := i.addr
    let n := i.bytes
    let plain (rd wr : Bool) : Prop := a % n = 0 ∧ s.Plain ⟨clsSup, 10⟩ 10 a (a + 1) rd wr ∧
      s.inModel (a / 64 * 64) 64 = false
    s.Canonical ∧ plain true false ∧ eng < 18 ∧ s.running eng = some i ∧ i.source = .sup ∧ s.cacheBanks = [] ∧ s.cached (i.addr / 64) = none ∧ i.type = 0x01) ∧
  (
    let eng : Nat := 5
    let i : SvcItem := supItem 2 0x20000000 64 4 0x100000001 0
    let s : State := onEng busy (supItem 2 0x20000000 64 4 0x100000001 0)
    let a := i.addr
    let n := i.bytes
    let plain (rd wr : Bool) : Prop := a % n = 0 ∧ s.Plain ⟨clsSup, 10⟩ 10 a (a + 1) rd wr ∧
      s.inModel (a / 64 * 64) 64 = false
    s.Canonical ∧ plain false true ∧ eng < 18 ∧ s.running eng = some i ∧ i.source = .sup ∧ s.cacheBanks = [] ∧ s.cached (i.addr / 64) = none ∧ i.type = 0x02) ∧
  (
    let eng : Nat := 5
    let i : SvcItem := supItem 3 0x2800000010000000 64 0 0xFFFF 0x22
    let s : State := onEng busy (supItem 3 0x2800000010000000 64 0 0xFFFF 0x22)
    let a := i.addr
    let n := i.bytes
    let plain (rd wr : Bool) : Prop := a % n = 0 ∧ s.Plain ⟨clsSup, 10⟩ 10 a (a + 1) rd wr ∧
      s.inModel (a / 64 * 64) 64 = false
    s.Canonical ∧ plain true true ∧ eng < 18 ∧ s.running eng = some i ∧ i.source = .sup ∧ s.cacheBanks = [] ∧ s.cached (i.addr / 64) = none ∧ i.type = 0x03 ∧ i.op < 8) ∧
  (
    let eng : Nat := 5
    let i : SvcItem := supItem 1 0x30000000 65 0 0 0
    let s : State := onEng busy (supItem 1 0x30000000 65 0 0 0)
    let a := i.addr
    let n := i.bytes
    s.Canonical ∧ eng < 18 ∧ s.running eng = some i ∧ i.source = .sup ∧ s.cacheBanks = [] ∧ s.cached (i.addr / 64) = none ∧ i.type = 0x01 ∧ a % n ≠ 0) ∧
  (
    let eng : Nat := 5
    let i : SvcItem := supItem 2 0x20000000 66 4 0 0
    let s : State := onEng busy (supItem 2 0x20000000 66 4 0 0)
    let a := i.addr
    let n := i.bytes
    s.Canonical ∧ eng < 18 ∧ s.running eng = some i ∧ i.source = .sup ∧ s.cacheBanks = [] ∧ s.cached (i.addr / 64) = none ∧ i.type = 0x02 ∧ a % n ≠ 0) ∧
  (
    let eng : Nat := 5
    let i : SvcItem := supItem 3 0x2800000010000000 65 0 0xFFFF 0x22
    let s : State := onEng busy (supItem 3 0x2800000010000000 65 0 0xFFFF 0x22)
    let a := i.addr
    let n := i.bytes
    s.Canonical ∧ eng < 18 ∧ s.running eng = some i ∧ i.source = .sup ∧ s.cacheBanks = [] ∧ s.cached (i.addr / 64) = none ∧ i.type = 0x03 ∧ i.op < 8 ∧ a % n ≠ 0) :=
  ⟨⟨(State.canonical_of_check (by decide +kernel)), ⟨by decide +kernel, State.plain_of_check (by decide +kernel), by decide +kernel⟩, by decide +kernel⟩,
   ⟨(State.canonical_of_check (by decide +kernel)), ⟨by decide +kernel, State.plain_of_check (by decide +kernel), by decide +kernel⟩, by decide +kernel⟩,
   ⟨(State.canonical_of_check (by decide +kernel)), ⟨by decide +kernel, State.plain_of_check (by decide +kernel), by decide +kernel⟩, by decide +kernel⟩,
   ⟨(State.canonical_of_check (by decide +kernel)), by decide +kernel⟩,
   ⟨(State.canonical_of_check (by decide +kernel)), by decide +kernel⟩,
   ⟨(State.canonical_of_check (by decide +kernel)), by decide +kernel⟩⟩

theorem wit_TransactorItemsMoveData : (
    let eng : Nat := 5
    let t : Nat := 0
    let i : SvcItem := tileItem 0x10 0xABCDEF
    let s : State := rings (onEng busy (tileItem 0x10 0xABCDEF))
    let c := i.op
    let x := s.tile t
    let lands : Prop := i.fromTile = true ∧ i.id < s.svc.nextId ∧ s.ptile i.cvtile = some t ∧ s.run.state ≠ .recover ∧
      i.batch = x.xbatch ∧ x.phase ≠ .batchEnd ∧ x.power ≠ .sleep
    let sizeO := 2 ^ s.fld .svcXchSize 4 0 c
    let devO := bits (s.rd .svcXoutPtr c) 15 0 % sizeO
    let hostO := bits (s.rd .svcXoutPtr c) 31 16 % sizeO
    let atO := s.ringBase .svcXoutBaseLo .svcXoutBaseHi c + 16 * devO
    s.Canonical ∧ s.Plain reqService 9 atO (atO + 16) false true ∧ eng < 18 ∧ s.running eng = some i ∧ i.type = 0x10 ∧ lands ∧ s.prf.xoutRedo = [] ∧ bit (s.rd .svcXoutBaseLo c) 0 = true ∧ (devO + 1) % sizeO ≠ hostO ∧ sizeO ≤ 65536 ∧ s.inModel (atO / 64 * 64) 64 = false) ∧
  (
    let eng : Nat := 5
    let i : SvcItem := tileItem 0x10 0xABCDEF
    let s : State := fullRing (onEng busy (tileItem 0x10 0xABCDEF))
    let c := i.op
    let sizeO := 2 ^ s.fld .svcXchSize 4 0 c
    let devO := bits (s.rd .svcXoutPtr c) 15 0 % sizeO
    let hostO := bits (s.rd .svcXoutPtr c) 31 16 % sizeO
    s.Canonical ∧ eng < 18 ∧ s.running eng = some i ∧ i.type = 0x10 ∧ s.prf.xoutRedo = [] ∧ bit (s.rd .svcXoutBaseLo c) 0 = true ∧ (devO + 1) % sizeO = hostO) ∧
  (
    let eng : Nat := 5
    let t : Nat := 0
    let i : SvcItem := tileItem 0x11 0
    let s : State := { rings (onEng busy (tileItem 0x11 0)) with mem := { busy.mem with ddr := [(0x2078, 9), (0x207F, 1)] } }
    let c := i.op
    let x := s.tile t
    let lands : Prop := i.fromTile = true ∧ i.id < s.svc.nextId ∧ s.ptile i.cvtile = some t ∧ s.run.state ≠ .recover ∧
      i.batch = x.xbatch ∧ x.phase ≠ .batchEnd ∧ x.power ≠ .sleep
    let sizeI := 2 ^ s.fld .svcXchSize 20 16 c
    let devI := bits (s.rd .svcXinPtr c) 15 0 % sizeI
    let hostI := bits (s.rd .svcXinPtr c) 31 16 % sizeI
    let atI := s.ringBase .svcXinBaseLo .svcXinBaseHi c + 8 * devI
    s.Canonical ∧ s.Plain reqService 9 atI (atI + 8) true false ∧ eng < 18 ∧ s.running eng = some i ∧ i.type = 0x11 ∧ lands ∧ s.prf.replay = [] ∧ s.inputOn = false ∧ bit (s.rd .svcXinBaseLo c) 0 = true ∧ devI ≠ hostI ∧ sizeI ≤ 65536 ∧ i.ckind = 1 ∧ i.cslot < 64) :=
  ⟨⟨(State.canonical_of_check (by decide +kernel)), (State.plain_of_check (by decide +kernel)), by decide +kernel⟩,
   ⟨(State.canonical_of_check (by decide +kernel)), by decide +kernel⟩,
   ⟨(State.canonical_of_check (by decide +kernel)), (State.plain_of_check (by decide +kernel)), by decide +kernel⟩⟩

theorem wit_CacheItemsMoveLines : (
    let eng : Nat := 5
    let l : Nat := 3
    let i : SvcItem := supItem 0x20 0 192 1 0 0
    let s : State := cacheBank0 (onEng busy (supItem 0x20 0 192 1 0 0))
    let granted (rd wr : Bool) : Prop := s.Plain ⟨clsSup, 10⟩ 10 (64 * l) (64 * l + 64) rd wr
    let inSet := s.svc.cache.filter fun d => d.bank = s.lineBank l && d.set = s.lineSet l
    s.Canonical ∧ granted true false ∧ s.Plain reqService 10 (64 * l) (64 * l + 64) true false ∧ eng < 18 ∧ s.running eng = some i ∧ i.source = .sup ∧ i.w1.toNat = 64 * l ∧ i.tok0.toNat % 2 ^ 16 = 1 ∧ i.type = 0x20 ∧ s.cached l = none ∧ s.cacheBanks ≠ [] ∧ inSet.length < 16) ∧
  (
    let eng : Nat := 5
    let l : Nat := 3
    let i : SvcItem := supItem 0x20 0 192 1 0 0
    let s : State := onEng busy (supItem 0x20 0 192 1 0 0)
    let granted (rd wr : Bool) : Prop := s.Plain ⟨clsSup, 10⟩ 10 (64 * l) (64 * l + 64) rd wr
    s.Canonical ∧ granted true false ∧ eng < 18 ∧ s.running eng = some i ∧ i.source = .sup ∧ i.w1.toNat = 64 * l ∧ i.tok0.toNat % 2 ^ 16 = 1 ∧ i.type = 0x20 ∧ s.cacheBanks = []) ∧
  (
    let eng : Nat := 5
    let l : Nat := 3
    let c : CacheLine := cachedLine
    let i : SvcItem := supItem 0x21 0 192 1 0 0
    let s : State := withCache (cacheBank0 (onEng busy (supItem 0x21 0 192 1 0 0))) [cachedLine]
    let granted (rd wr : Bool) : Prop := s.Plain ⟨clsSup, 10⟩ 10 (64 * l) (64 * l + 64) rd wr
    s.Canonical ∧ granted false true ∧ s.Plain reqService 9 (64 * l) (64 * l + 64) false true ∧ eng < 18 ∧ s.running eng = some i ∧ i.source = .sup ∧ i.w1.toNat = 64 * l ∧ i.tok0.toNat % 2 ^ 16 = 1 ∧ s.host.moving = [] ∧ i.type = 0x21 ∧ s.cached l = some c ∧ bit i.tok1 0 = false ∧ c.dirty = true ∧ c.slot = 0 ∧ s.inModel (64 * l) 64 = false) ∧
  (
    let eng : Nat := 5
    let l : Nat := 3
    let c : CacheLine := cachedLine
    let i : SvcItem := supItem 0x21 0 192 1 1 0
    let s : State := withCache (cacheBank0 (onEng busy (supItem 0x21 0 192 1 1 0))) [cachedLine]
    let granted (rd wr : Bool) : Prop := s.Plain ⟨clsSup, 10⟩ 10 (64 * l) (64 * l + 64) rd wr
    s.Canonical ∧ granted false true ∧ eng < 18 ∧ s.running eng = some i ∧ i.source = .sup ∧ i.w1.toNat = 64 * l ∧ i.tok0.toNat % 2 ^ 16 = 1 ∧ s.host.moving = [] ∧ i.type = 0x21 ∧ s.cached l = some c ∧ bit i.tok1 0 = true) :=
  ⟨⟨(State.canonical_of_check (by decide +kernel)), (State.plain_of_check (by decide +kernel)), (State.plain_of_check (by decide +kernel)), by decide +kernel⟩,
   ⟨(State.canonical_of_check (by decide +kernel)), (State.plain_of_check (by decide +kernel)), by decide +kernel⟩,
   ⟨(State.canonical_of_check (by decide +kernel)), (State.plain_of_check (by decide +kernel)), (State.plain_of_check (by decide +kernel)), by decide +kernel⟩,
   ⟨(State.canonical_of_check (by decide +kernel)), (State.plain_of_check (by decide +kernel)), by decide +kernel⟩⟩

theorem wit_DeviceItemsComplete : (
    let eng : Nat := 5
    let k : Nat := 127
    let l : Nat := 2
    let i : SvcItem := devItem 0x30 .acq 0
    let s : State := liveAcq (onEng busy (devItem 0x30 .acq 0)) { Acq.reset with blocks := [127, 3] }
    let dev := s.fld .acqSpillDev 23 0
    let ring := (s.rd64 .acqSpillBaseLo .acqSpillBaseHi).toNat + 4096 * dev
    let ks : List Nat := [3]
    s.Canonical ∧ s.Plain reqAcq 13 ring (ring + 4096) false true ∧ (∀ l : Nat, s.inModel (64 * l) 64 = false) ∧ eng < 18 ∧ s.running eng = some i ∧ i.fromTile = false ∧ i.fromHost = false ∧ i.id < s.svc.nextId ∧ i.type = 0x30 ∧ s.acq.blocks = k :: ks ∧ ring % 64 = 0) ∧
  (
    let eng : Nat := 5
    let seg : Nat := 6
    let i : SvcItem := devItem 0x31 .acq 6
    let s : State := liveAcq (onEng busy (devItem 0x31 .acq 6)) { Acq.reset with dirs := [aDir] }
    let entry := (s.rd64 .acqDirBaseLo .acqDirBaseHi).toNat / 4096 * 4096 + 32 * seg
    s.Canonical ∧ s.Plain reqAcq 13 entry (entry + 32) false true ∧ eng < 18 ∧ s.running eng = some i ∧ i.fromTile = false ∧ i.fromHost = false ∧ i.id < s.svc.nextId ∧ i.type = 0x31 ∧ i.w1.toNat = seg ∧ s.inModel (entry / 64 * 64) 64 = false) ∧
  (
    let eng : Nat := 5
    let i : SvcItem := devItem 0x50 .memory 0
    let s : State := onEng busy (devItem 0x50 .memory 0)
    s.Canonical ∧ eng < 18 ∧ s.running eng = some i ∧ i.fromTile = false ∧ i.fromHost = false ∧ i.id < s.svc.nextId ∧ i.type = 0x50) ∧
  (
    let eng : Nat := 5
    let l : Nat := 0
    let i : SvcItem := devItem 0x50 .memory 0
    let s : State := put (onEng busy (devItem 0x50 .memory 0)) [(Reg.addr .memCapInst, 0x4004), (encPage + 4, 0)]
    let ch := s.ddrChannel (64 * l)
    s.Canonical ∧ eng < 18 ∧ s.running eng = some i ∧ i.fromTile = false ∧ i.fromHost = false ∧ i.id < s.svc.nextId ∧ i.type = 0x50 ∧ s.pageEn encPage = false ∧ i.w1.toNat / 64 = l ∧ s.scrubLine i l = true ∧ ch < 8) ∧
  (
    let eng : Nat := 5
    let l : Nat := 2
    let rank : Nat := 3
    let dram : Nat := 17
    let row : Nat := 9
    let i : SvcItem := devItem 0x50 .memory 0
    let s : State := put (onEng busy (devItem 0x50 .memory 0)) [(Reg.addr .memCapInst, 0x4004)]
    let ch := s.ddrChannel (64 * l)
    s.Canonical ∧ eng < 18 ∧ s.running eng = some i ∧ i.fromTile = false ∧ i.fromHost = false ∧ i.id < s.svc.nextId ∧ i.type = 0x50 ∧ s.scrubLine i l = true ∧ s.engineTakes (64 * l) = true ∧ s.dramFails ch (.corrected rank dram row) = false ∧ ch < 8) ∧
  (
    let eng : Nat := 5
    let i : SvcItem := devItem 0x60 .crier 0
    let s : State := onEng busy (devItem 0x60 .crier 0)
    s.Canonical ∧ eng < 18 ∧ s.running eng = some i ∧ i.fromTile = false ∧ i.fromHost = false ∧ i.id < s.svc.nextId ∧ i.type = 0x60) ∧
  (
    let eng : Nat := 5
    let i : SvcItem := devItem 0x60 .crier 0
    let s : State := liveAcq (onEng busy (devItem 0x60 .crier 0)) { Acq.reset with wrUnits := 253 , wrBlock := 3 }
    s.Canonical ∧ eng < 18 ∧ s.running eng = some i ∧ i.fromTile = false ∧ i.fromHost = false ∧ i.id < s.svc.nextId ∧ i.type = 0x60 ∧ s.acq.state = .live ∧ s.acq.blocks = [] ∧ s.acq.out = [] ∧ s.acq.gap = [] ∧ 0 < s.acq.total ∧ 0 < s.acq.wrUnits ∧ s.acq.wrUnits + 2 < 256) :=
  ⟨⟨(State.canonical_of_check (by decide +kernel)), (State.plain_of_check (by decide +kernel)), (by intro l; rfl), by decide +kernel⟩,
   ⟨(State.canonical_of_check (by decide +kernel)), (State.plain_of_check (by decide +kernel)), by decide +kernel⟩,
   ⟨(State.canonical_of_check (by decide +kernel)), by decide +kernel⟩,
   ⟨(State.canonical_of_check (by decide +kernel)), by decide +kernel⟩,
   ⟨(State.canonical_of_check (by decide +kernel)), by decide +kernel⟩,
   ⟨(State.canonical_of_check (by decide +kernel)), by decide +kernel⟩,
   ⟨(State.canonical_of_check (by decide +kernel)), by decide +kernel⟩⟩

/-! ## Witnesses: run control -/

theorem wit_RunCommands : (
    let val : Word := 1
    let s : State := idle busy
    let mayRun : Prop := s.pageEn runPage = true ∧ s.ldr.state = .service ∧ s.jtag.stopped = false ∧
      s.enc.integrityHalt = false ∧ s.prf.restoreDue = false ∧
      s.prf.sleeping = false ∧ (s.run.state = .idle ∨ s.run.state = .halted ∧ s.run.resumable = true)
    s.Canonical ∧ s.reachable = true ∧ s.srst runPage = false ∧ bits val 2 0 = 1 ∧ mayRun) ∧
  (
    let val : Word := 4
    let s : State := idle busy
    let mayRun : Prop := s.pageEn runPage = true ∧ s.ldr.state = .service ∧ s.jtag.stopped = false ∧
      s.enc.integrityHalt = false ∧ s.prf.restoreDue = false ∧
      s.prf.sleeping = false ∧ (s.run.state = .idle ∨ s.run.state = .halted ∧ s.run.resumable = true)
    s.Canonical ∧ s.reachable = true ∧ s.srst runPage = false ∧ bits val 2 0 = 4 ∧ mayRun) ∧
  (
    let val : Word := 1
    let s : State := busy
    s.Canonical ∧ s.reachable = true ∧ s.srst runPage = false ∧ bits val 2 0 = 1 ∧ s.run.state = .run ∧ s.ldr.state = .service) ∧
  (
    let val : Word := 4
    let s : State := { idle busy with ldr := Loader.reset }
    s.Canonical ∧ s.reachable = true ∧ s.srst runPage = false ∧ bits val 2 0 = 4 ∧ s.pageEn runPage = true ∧ s.ldr.state ≠ .service) ∧
  (
    let val : Word := 2
    let s : State := busy
    s.Canonical ∧ s.reachable = true ∧ s.srst runPage = false ∧ bits val 2 0 = 2 ∧ s.run.state = .run) ∧
  (
    let val : Word := 2
    let s : State := idle busy
    s.Canonical ∧ s.reachable = true ∧ s.srst runPage = false ∧ bits val 2 0 = 2 ∧ s.isHalted = true) ∧
  (
    let s : State := put (halting busy) [(Reg.addr .prfCtrl, 0)]
    s.Canonical ∧ s.reachable = true ∧ s.srst runPage = false ∧ s.run.state = .halting ∧ s.run.inBatch = false ∧ s.run.stepPending = false ∧ s.prf.state = .idle ∧ s.saveNeeded = false ∧ s.quiet = true) :=
  ⟨⟨(State.canonical_of_check (by decide +kernel)), by decide +kernel⟩,
   ⟨(State.canonical_of_check (by decide +kernel)), by decide +kernel⟩,
   ⟨(State.canonical_of_check (by decide +kernel)), by decide +kernel⟩,
   ⟨(State.canonical_of_check (by decide +kernel)), by decide +kernel⟩,
   ⟨(State.canonical_of_check (by decide +kernel)), by decide +kernel⟩,
   ⟨(State.canonical_of_check (by decide +kernel)), by decide +kernel⟩,
   ⟨(State.canonical_of_check (by decide +kernel)), by decide +kernel⟩⟩

theorem wit_WatchdogAndCriers : (
    let s : State := wdg busy 2 0
    s.Canonical ∧ s.wdgCounts = true ∧ s.run.wdgNs = 0) ∧
  (
    let val : Word := 0x5A
    let s : State := wdg busy 2 0
    s.Canonical ∧ s.reachable = true ∧ s.srst wdgPage = false ∧ bits val 7 0 = 0x5A) ∧
  (
    let val : Word := 0x15B
    let s : State := wdg busy 2 0
    s.Canonical ∧ s.reachable = true ∧ s.srst wdgPage = false ∧ bits val 7 0 ≠ 0x5A) ∧
  (
    let s : State := wdg busy 2 0
    s.Canonical ∧ s.reachable = true ∧ s.srst wdgPage = false) ∧
  (
    let k : Nat := 3
    let s : State := busy
    s.Canonical ∧ s.reachable = true ∧ s.srst runPage = false ∧ k < 4) ∧
  (
    let k : Nat := 7
    let s : State := put busy [(Reg.addr .runAcmpHit 7, 5)]
    s.Canonical ∧ s.reachable = true ∧ s.srst runPage = false ∧ k < 8) ∧
  (
    let k : Nat := 31
    let s : State := busy
    s.Canonical ∧ s.reachable = true ∧ s.srst criPage = false ∧ k < 32 ∧ s.pageEn criPage = true ∧ s.run.criers = [] ∧ s.criersPending < 64 ∧ s.internalUsed < 480) ∧
  (
    let k : Nat := 31
    let s : State := { busy with run := { busy.run with criers := List.replicate 64 (1, 2, 3, 4) } }
    s.Canonical ∧ s.reachable = true ∧ s.srst criPage = false ∧ k < 32 ∧ s.pageEn criPage = true ∧ 64 ≤ s.criersPending) :=
  ⟨⟨(State.canonical_of_check (by decide +kernel)), by decide +kernel⟩,
   ⟨(State.canonical_of_check (by decide +kernel)), by decide +kernel⟩,
   ⟨(State.canonical_of_check (by decide +kernel)), by decide +kernel⟩,
   ⟨(State.canonical_of_check (by decide +kernel)), by decide +kernel⟩,
   ⟨(State.canonical_of_check (by decide +kernel)), by decide +kernel⟩,
   ⟨(State.canonical_of_check (by decide +kernel)), by decide +kernel⟩,
   ⟨(State.canonical_of_check (by decide +kernel)), by decide +kernel⟩,
   ⟨(State.canonical_of_check (by decide +kernel)), by decide +kernel⟩⟩

theorem wit_BatchStarts : (
    let s : State := between 100000000 none
    let sched := s.rd .timSchedCtrl
    s.Canonical ∧ s.run.state ≠ .recover ∧ s.startReady = true ∧ s.startAllowed = true ∧ s.covered = true ∧ bit sched 31 = false ∧ bit sched 30 = false ∧ s.prf.replay = [] ∧ s.inputOn = false ∧ s.mem.handovers = []) ∧
  (
    let s : State := between 6999999 none
    s.Canonical ∧ s.run.state ≠ .recover ∧ s.startReady = true ∧ s.startAllowed = true ∧ s.covered = false ∧ s.led.holdNs = none) ∧
  (
    let s : State := between 0 (some 5001)
    let ns : Nat := 5001
    s.Canonical ∧ s.run.state ≠ .recover ∧ s.heldNow = true ∧ s.led.holdNs = some ns ∧ s.led.starved = false ∧ s.fld .pwrStarveLimit 15 0 ≠ 0 ∧ s.fld .pwrStarveLimit 15 0 * 1000 < ns) :=
  ⟨⟨(State.canonical_of_check (by decide +kernel)), by decide +kernel⟩,
   ⟨(State.canonical_of_check (by decide +kernel)), by decide +kernel⟩,
   ⟨(State.canonical_of_check (by decide +kernel)), by decide +kernel⟩⟩

theorem wit_BatchEnds : (
    let s : State := atEnd
    s.Canonical ∧ s.batchOver = true ∧ (s.run.state = .run ∨ s.run.state = .halting) ∧ s.prf.replay = [] ∧ (∀ t < 136, (s.tile t).rack = [])) :=
  ⟨(State.canonical_of_check (by decide +kernel)), by decide +kernel⟩

theorem wit_CountersClearOnRead : (
    let k : Nat := 0
    let s : State := counted busy
    s.Canonical ∧ s.reachable = true ∧ k < 136 ∧ (s.tile k).power = .on) ∧
  (
    let k : Nat := 17
    let s : State := counted busy
    s.Canonical ∧ s.reachable = true ∧ k < 18) ∧
  (
    let k : Nat := 7
    let s : State := counted busy
    s.Canonical ∧ s.reachable = true ∧ k < 8) ∧
  (
    let k : Nat := 71
    let s : State := counted busy
    s.Canonical ∧ s.reachable = true ∧ k < 72) ∧
  (
    let s : State := counted busy
    s.Canonical ∧ s.reachable = true) :=
  ⟨⟨(State.canonical_of_check (by decide +kernel)), by decide +kernel⟩,
   ⟨(State.canonical_of_check (by decide +kernel)), by decide +kernel⟩,
   ⟨(State.canonical_of_check (by decide +kernel)), by decide +kernel⟩,
   ⟨(State.canonical_of_check (by decide +kernel)), by decide +kernel⟩,
   ⟨(State.canonical_of_check (by decide +kernel)), by decide +kernel⟩⟩

theorem wit_StateWindows : (
    let t : Nat := 0
    let pg : Nat := 15
    let i : Nat := 7
    let s : State := win 5 1
    let space := s.winSpace t pg
    let o := s.winOff t pg i
    s.Canonical ∧ s.reachable = true ∧ t < 136 ∧ 8 ≤ pg ∧ pg < 16 ∧ i < 512 ∧ (s.tile t).power = .on ∧ s.srst (tilePage t pg) = false ∧ s.underTest t = false ∧ s.windowOff space true = none ∧ o < spaceSize space ∧ space ≠ 4 ∧ space ≠ 6 ∧ (recipeSpace space = true ∨ s.inputOn = false)) ∧
  (
    let t : Nat := 0
    let pg : Nat := 15
    let i : Nat := 7
    let s : State := win 4 0
    let space := s.winSpace t pg
    let o := s.winOff t pg i
    s.Canonical ∧ s.reachable = true ∧ t < 136 ∧ 8 ≤ pg ∧ pg < 16 ∧ i < 512 ∧ (s.tile t).power = .on ∧ s.srst (tilePage t pg) = false ∧ s.underTest t = false ∧ s.windowOff space true = none ∧ (spaceSize space ≤ o ∨ space = 4 ∨ space = 6)) ∧
  (
    let t : Nat := 0
    let pg : Nat := 15
    let i : Nat := 7
    let s : State := win 3 5
    let space := s.winSpace t pg
    s.Canonical ∧ s.reachable = true ∧ t < 136 ∧ 8 ≤ pg ∧ pg < 16 ∧ i < 512 ∧ (s.tile t).power = .on ∧ s.underTest t = false ∧ s.windowOff space false = none) ∧
  (
    let t : Nat := 0
    let pg : Nat := 15
    let i : Nat := 7
    let s : State := { win 5 1 with bst := { Selftest.reset with slice := some 0 } }
    s.Canonical ∧ s.reachable = true ∧ t < 136 ∧ 8 ≤ pg ∧ pg < 16 ∧ i < 512 ∧ (s.tile t).power = .on ∧ s.underTest t = true) ∧
  (
    let t : Nat := 0
    let pg : Nat := 15
    let i : Nat := 7
    let s : State := { win 5 1 with bst := { Selftest.reset with slice := some 0 } }
    s.Canonical ∧ s.reachable = true ∧ t < 136 ∧ 8 ≤ pg ∧ pg < 16 ∧ i < 512 ∧ (s.tile t).power = .on ∧ s.underTest t = true ∧ s.srst (tilePage t pg) = false) ∧
  (
    let t : Nat := 0
    let pg : Nat := 15
    let i : Nat := 7
    let s : State := winRun
    s.Canonical ∧ s.reachable = true ∧ t < 136 ∧ 8 ≤ pg ∧ pg < 16 ∧ i < 512 ∧ (s.tile t).power = .on ∧ s.underTest t = false ∧ s.isHalted = false) ∧
  (
    let t : Nat := 0
    let pg : Nat := 15
    let i : Nat := 7
    let s : State := winRun
    s.Canonical ∧ s.reachable = true ∧ t < 136 ∧ 8 ≤ pg ∧ pg < 16 ∧ i < 512 ∧ (s.tile t).power = .on ∧ s.underTest t = false ∧ s.isHalted = false ∧ s.srst (tilePage t pg) = false) :=
  ⟨⟨(State.canonical_of_check (by decide +kernel)), by decide +kernel⟩,
   ⟨(State.canonical_of_check (by decide +kernel)), by decide +kernel⟩,
   ⟨(State.canonical_of_check (by decide +kernel)), by decide +kernel⟩,
   ⟨(State.canonical_of_check (by decide +kernel)), by decide +kernel⟩,
   ⟨(State.canonical_of_check (by decide +kernel)), by decide +kernel⟩,
   ⟨(State.canonical_of_check (by decide +kernel)), by decide +kernel⟩,
   ⟨(State.canonical_of_check (by decide +kernel)), by decide +kernel⟩⟩

theorem wit_JtagPort : (
    let s : State := busy
    s.Canonical ∧ s.sup.power ≠ .unpowered) ∧
  (
    let s : State := busy
    s.Canonical ∧ s.sup.power ≠ .unpowered) ∧
  (
    let reg : BitVec 26 := 0x1
    let s : State := busy
    s.Canonical ∧ s.sup.power ≠ .unpowered ∧ reg.toNat % 4 ≠ 0) ∧
  (
    let reg : BitVec 26 := 0x44
    let s : State := off busy
    s.Canonical ∧ s.sup.power ≠ .unpowered ∧ reg.toNat % 4 = 0 ∧ s.uncoreOff = true) ∧
  (
    let reg : BitVec 26 := BitVec.ofNat 26 (Reg.addr .wdgTimeout)
    let s : State := busy
    s.Canonical ∧ s.sup.power ≠ .unpowered ∧ s.reachable = true ∧ s.srst wdgPage = false ∧ reg.toNat = Reg.addr .wdgTimeout) ∧
  (
    let s : State := off busy
    s.Canonical ∧ s.sup.power ≠ .unpowered ∧ s.reachable = false) ∧
  (
    let addr : DWord := 0x45
    let s : State := busy
    let a := addr.toNat / 8 * 8
    let outside : Prop := s.inModel (a / 64 * 64) 64 = false
    s.Canonical ∧ s.Plain reqJtag 14 (a / 64 * 64) (a / 64 * 64 + 64) true false ∧ s.sup.power ≠ .unpowered ∧ s.reachable = true ∧ outside) ∧
  (
    let addr : DWord := 0x45
    let s : State := busy
    let a := addr.toNat / 8 * 8
    let outside : Prop := s.inModel (a / 64 * 64) 64 = false
    s.Canonical ∧ s.Plain reqJtag 14 (a / 64 * 64) (a / 64 * 64 + 64) false true ∧ s.sup.power ≠ .unpowered ∧ s.reachable = true ∧ outside) :=
  ⟨⟨(State.canonical_of_check (by decide +kernel)), by decide +kernel⟩,
   ⟨(State.canonical_of_check (by decide +kernel)), by decide +kernel⟩,
   ⟨(State.canonical_of_check (by decide +kernel)), by decide +kernel⟩,
   ⟨(State.canonical_of_check (by decide +kernel)), by decide +kernel⟩,
   ⟨(State.canonical_of_check (by decide +kernel)), by decide +kernel⟩,
   ⟨(State.canonical_of_check (by decide +kernel)), by decide +kernel⟩,
   ⟨(State.canonical_of_check (by decide +kernel)), (State.plain_of_check (by decide +kernel)), by decide +kernel⟩,
   ⟨(State.canonical_of_check (by decide +kernel)), (State.plain_of_check (by decide +kernel)), by decide +kernel⟩⟩

theorem wit_SelfTestAndBoot : (
    let k : Nat := 170
    let val : Word := 0x1AA
    let s : State := idle busy
    s.Canonical ∧ s.reachable = true ∧ s.srst bstPage = false ∧ s.pageEn bstPage = true ∧ bit val 8 = true ∧ bits val 7 0 = k ∧ k < 171 ∧ s.isHalted = true ∧ s.bst.slice = none ∧ s.bstBudget = none) ∧
  (
    let s : State := busy
    s.Canonical ∧ s.reachable = true ∧ s.srst bstPage = false ∧ s.isHalted = false) ∧
  (
    let k : Nat := 150
    let s : State := testing 5
    s.Canonical ∧ s.bst.slice = some k ∧ s.bst.single = true ∧ s.bst.byShutdown = false ∧ k < 171) ∧
  (
    let k : Nat := 150
    let s : State := testing 50000000
    s.Canonical ∧ s.bst.slice = some k ∧ s.bst.single = true ∧ s.bst.byShutdown = false ∧ k < 171 ∧ 50000000 ≤ s.bst.ns) ∧
  (
    let k : Nat := 150
    let x : SliceResult := slice150
    let s : State := testing 5
    s.Canonical ∧ s.bst.slice = some k ∧ s.bst.single = true ∧ s.bst.byShutdown = false ∧ 144 ≤ k ∧ k < 162 ∧ x.result = 1 ∧ x.columns = [] ∧ s.flash.readonly = false ∧ x.durationUs.toNat ≤ 50000) ∧
  (
    let k : Nat := 150
    let s : State := testing 50000000
    s.Canonical ∧ s.bst.slice = some k ∧ s.bst.single = true ∧ s.bst.byShutdown = false ∧ 144 ≤ k ∧ k < 162 ∧ s.flash.readonly = false ∧ 50000000 ≤ s.bst.ns) ∧
  (
    let val : Word := 1
    let s : State := { busy with flash := { busy.flash with erases := [(4, 99999), (5, 99999)], retiredSectors := busy.flash.spares } }
    let erased := Table.get (fun _ => 0) s.flash.erases (s.flash.sector (4 + b2n s.flash.bootIsA)) + 1
    s.Canonical ∧ s.reachable = true ∧ s.srst flsPage = false ∧ s.pageEn flsPage = true ∧ bit val 0 = true ∧ s.flash.readonly = false ∧ s.flash.writing = [] ∧ 100000 ≤ erased ∧ s.flash.spares = []) ∧
  (
    let val : Word := 1
    let s : State := idle busy
    let erased := Table.get (fun _ => 0) s.flash.erases (s.flash.sector (4 + b2n s.flash.bootIsA)) + 1
    s.Canonical ∧ s.reachable = true ∧ s.srst flsPage = false ∧ s.pageEn flsPage = true ∧ bit val 0 = true ∧ s.flash.readonly = false ∧ s.flash.writing = [] ∧ (erased < 100000 ∨ s.flash.spares ≠ [])) ∧
  (
    let val : Word := 2
    let s : State := put busy [(Reg.addr .flsBootOfs, 0x5000)]
    s.Canonical ∧ s.reachable = true ∧ s.srst flsPage = false ∧ bit val 1 = true) :=
  ⟨⟨(State.canonical_of_check (by decide +kernel)), by decide +kernel⟩,
   ⟨(State.canonical_of_check (by decide +kernel)), by decide +kernel⟩,
   ⟨(State.canonical_of_check (by decide +kernel)), by decide +kernel⟩,
   ⟨(State.canonical_of_check (by decide +kernel)), by decide +kernel⟩,
   ⟨(State.canonical_of_check (by decide +kernel)), by decide +kernel⟩,
   ⟨(State.canonical_of_check (by decide +kernel)), by decide +kernel⟩,
   ⟨(State.canonical_of_check (by decide +kernel)), by decide +kernel⟩,
   ⟨(State.canonical_of_check (by decide +kernel)), by decide +kernel⟩,
   ⟨(State.canonical_of_check (by decide +kernel)), by decide +kernel⟩⟩

/-! ## Witnesses: loading, proofs and recovery -/

theorem wit_ImageLoads : (
    let size : Nat := 8
    let s : State := atState .service
    let l := s.ldr
    let open' : Prop := s.reachable = true ∧ s.srst ldrPage = false ∧ s.pageEn ldrPage = true
    s.Canonical ∧ open' ∧ s.ldrSrc = 1 ∧ (size = 4 ∨ size = 8) ∧ (l.state = .empty ∨ l.state = .service)) ∧
  (
    let size : Nat := 8
    let s : State := atState .header
    let l := s.ldr
    let open' : Prop := s.reachable = true ∧ s.srst ldrPage = false ∧ s.pageEn ldrPage = true
    s.Canonical ∧ open' ∧ s.ldrSrc = 1 ∧ (size = 4 ∨ size = 8) ∧ (l.state = .header ∨ l.state = .stage ∨ l.state = .write)) ∧
  (
    let size : Nat := 8
    let s : State := atState .check
    let l := s.ldr
    let open' : Prop := s.reachable = true ∧ s.srst ldrPage = false ∧ s.pageEn ldrPage = true
    s.Canonical ∧ open' ∧ s.ldrSrc = 1 ∧ (size = 4 ∨ size = 8) ∧ (l.state = .check ∨ l.state = .commit ∨ l.state = .failed)) ∧
  (
    let val : Word := 2
    let bytes : List Byte := hdrBytes 0 2
    let s : State := atState .service
    let l := s.ldr
    let open' : Prop := s.reachable = true ∧ s.srst ldrPage = false ∧ s.pageEn ldrPage = true
    s.Canonical ∧ open' ∧ bits val 1 0 = 2 ∧ (l.state = .empty ∨ l.state = .service) ∧ bytes ≠ []) ∧
  (
    let s : State := let s := withLdr (loading .header false (hdrBytes 0 2)) fun l => { l with frames := 0 }; { s with bst := { Selftest.reset with slice := some 0 } }
    s.Canonical ∧ s.tileTested = true) ∧
  (
    let s : State := let s := withLdr (loading .write false (ctrlFrame ++ [9])) fun l => { l with frames := 0 }; { s with bst := { Selftest.reset with slice := some 0 } }
    s.Canonical ∧ s.frameTested = true) ∧
  (
    let s : State := withLdr (loading .header false (0 :: hdrBytes 0 2)) fun l => { l with frames := 0 }
    let l := s.ldr
    let code : Nat := 0x7002
    let info : Nat := 0
    s.Canonical ∧ l.state = .header ∧ 64 ≤ l.buf.length ∧ s.tileTested = false ∧ s.headerCheck (l.buf.take 64) = some (code, info)) ∧
  (
    let s : State := withLdr (loading .header false (hdrBytes 0 2 ++ [9, 8])) fun l => { l with frames := 0 }
    let l := s.ldr
    s.Canonical ∧ l.state = .header ∧ 64 ≤ l.buf.length ∧ s.tileTested = false ∧ s.headerCheck (l.buf.take 64) = none ∧ field l.buf 0x0B 1 = 0) ∧
  (
    let s : State := withLdr (loading .header true (hdrBytes 1 2 ++ [9, 8])) fun l => { l with frames := 0 }
    let l := s.ldr
    s.Canonical ∧ l.state = .header ∧ 64 ≤ l.buf.length ∧ s.tileTested = false ∧ s.headerCheck (l.buf.take 64) = none ∧ field l.buf 0x0B 1 = 1) ∧
  (
    let s : State := withLdr (loading .write false (ctrlFrame ++ [9])) fun l => { l with frames := 0 }
    let l := s.ldr
    let f := readFrame (l.buf.take 4112)
    s.Canonical ∧ l.state = .write ∧ l.frames < s.hdr.frameCount ∧ 16 ≤ l.buf.length ∧ s.frameTested = false ∧ 4112 ≤ l.buf.length ∧ s.frameHead f = none ∧ f.wide = false ∧ l.relocs = [] ∧ s.stageRefused = false ∧ contentBad s.hdr.reqTiles s.hdr.models f = none ∧ (f.vtile, f.stream, f.offset) ∉ l.seen) ∧
  (
    let s : State := withLdr (loading .write false (ctrlFrame ++ [9])) fun l => { l with frames := 0 }
    let l := s.ldr
    let f := readFrame (l.buf.take 4112)
    s.Canonical ∧ l.state = .write ∧ l.frames < s.hdr.frameCount ∧ 16 ≤ l.buf.length ∧ s.frameTested = false ∧ 4112 ≤ l.buf.length ∧ s.frameHead f = none ∧ f.stream = strCtrl ∧ s.hdr.partialImg = false ∧ (f.vtile, f.stream, f.offset) ∉ l.seen ∧ (∀ q ∈ l.relocs, q.stream ≠ strCtrl)) ∧
  (
    let s : State := withLdr (loading .write false (1 :: ctrlFrame)) fun l => { l with frames := 0 }
    let l := s.ldr
    let f := readFrame (l.buf.take 4112)
    let code : Nat := 0x7048
    let info : Nat := 0x01000002
    s.Canonical ∧ l.state = .write ∧ l.frames < s.hdr.frameCount ∧ 16 ≤ l.buf.length ∧ s.frameTested = false ∧ s.frameHead f = some (code, info)) ∧
  (
    let s : State := withLdr (loading .write false (trailer ++ [9])) fun l => { l with frames := 2 }
    let l := s.ldr
    s.Canonical ∧ (l.state = .write ∨ l.state = .stage) ∧ l.frames = s.hdr.frameCount ∧ 16 ≤ l.buf.length) ∧
  (
    let s : State := withLdr (loading .stage true (ctrlFrame ++ [9])) fun l => { l with frames := 0 }
    let l := s.ldr
    let f := readFrame (l.buf.take 4112)
    s.Canonical ∧ l.state = .stage ∧ s.hdr.partialImg = true ∧ l.frames < s.hdr.frameCount ∧ 16 ≤ l.buf.length ∧ 4112 ≤ l.buf.length ∧ s.frameHead f = none ∧ f.wide = false ∧ l.relocs = [] ∧ s.stageRefused = false ∧ contentBad s.hdr.reqTiles s.hdr.models f = none ∧ (f.vtile, f.stream, f.offset) ∉ l.seen) ∧
  (
    let s : State := withLdr (loading .stage true (1 :: ctrlFrame)) fun l => { l with frames := 0 }
    let l := s.ldr
    let f := readFrame (l.buf.take 4112)
    let code : Nat := 0x700B
    let info : Nat := 0x01000002
    s.Canonical ∧ l.state = .stage ∧ s.hdr.partialImg = true ∧ l.frames < s.hdr.frameCount ∧ 16 ≤ l.buf.length ∧ s.frameHead f = some (code, info)) ∧
  (
    let s : State := let s := checking false; { s with bst := { Selftest.reset with slice := some 0 } }
    s.Canonical ∧ s.loadTested = true) ∧
  (
    let s : State := withLdr (checking false) fun l => { l with trailer := 0 :: trailer }
    let l := s.ldr
    s.Canonical ∧ l.state = .check ∧ s.loadTested = false ∧ s.trailerOk = false) ∧
  (
    let s : State := withLdr (checking false) fun l => { l with crc := 0 }
    let l := s.ldr
    s.Canonical ∧ l.state = .check ∧ s.loadTested = false ∧ s.trailerOk = true ∧ s.imageCrc ≠ wordAt l.trailer 12) ∧
  (
    let s : State := withLdr (checking false) fun l => { l with relocs := [⟨3, true, 0, 5, 2, 4096⟩] }
    let l := s.ldr
    let code : Nat := 0x7049
    let info : Nat := relocInfo 3
    s.Canonical ∧ l.state = .check ∧ s.loadTested = false ∧ s.trailerOk = true ∧ s.imageCrc = wordAt l.trailer 12 ∧ s.restBad = some (code, info)) ∧
  (
    let s : State := let s := checking false; { s with tiles := [] }
    let l := s.ldr
    let code : Nat := 0x7043
    let info : Nat := 0x00020000
    s.Canonical ∧ l.state = .check ∧ s.loadTested = false ∧ s.trailerOk = true ∧ s.imageCrc = wordAt l.trailer 12 ∧ s.restBad = none ∧ l.relocs = [] ∧ s.recipeCheck = some (code, info)) ∧
  (
    let s : State := checking false
    let l := s.ldr
    s.Canonical ∧ l.state = .check ∧ s.loadTested = false ∧ s.trailerOk = true ∧ s.imageCrc = wordAt l.trailer 12 ∧ s.restBad = none ∧ l.relocs = [] ∧ s.recipeCheck = none ∧ s.hdr.partialImg = false) ∧
  (
    let s : State := put (checking true) [(Reg.addr .memLown 4, 0x300)]
    let l := s.ldr
    s.Canonical ∧ l.state = .check ∧ s.loadTested = false ∧ s.trailerOk = true ∧ s.imageCrc = wordAt l.trailer 12 ∧ s.restBad = none ∧ l.relocs = [] ∧ s.stagedLost = true) ∧
  (
    let s : State := checking true
    let l := s.ldr
    s.Canonical ∧ l.state = .check ∧ s.loadTested = false ∧ s.trailerOk = true ∧ s.imageCrc = wordAt l.trailer 12 ∧ s.restBad = none ∧ l.relocs = [] ∧ s.recipeCheck = none ∧ s.hdr.partialImg = true ∧ s.stagedLost = false) ∧
  (
    let s : State := put (withLdr (checking true) fun l => { l with state := .commit, shadowEn := false }) [(Reg.addr .memLown 4, 0x40000200)]
    let l := s.ldr
    s.Canonical ∧ l.state = .commit ∧ s.loadTested = false ∧ s.stagedLost = true) ∧
  (
    let s : State := withLdr (checking true) fun l => { l with state := .commit, shadowEn := false }
    let l := s.ldr
    s.Canonical ∧ l.state = .commit ∧ s.loadTested = false ∧ s.stagedLost = false ∧ s.hdr.regionFirst = 0 ∧ s.hdr.reqTiles ≤ s.hdr.regionLast + 1) ∧
  (
    let s : State := withLdr (checking true) fun l => { l with state := .commit, shadowEn := false }
    let l := s.ldr
    s.Canonical ∧ l.state = .commit ∧ s.loadTested = false ∧ s.stagedLost = false ∧ s.hdr.partialImg = true ∧ s.hdr.regionFirst = 0 ∧ s.hdr.regionLast = 0 ∧ s.hdr.reqTiles = 1 ∧ l.relocs = [] ∧ l.shadowEn = false) ∧
  (
    let s : State := gap (atState .header)
    let l := s.ldr
    s.Canonical ∧ (l.state = .header ∨ l.state = .stage ∨ l.state = .write) ∧ (s.rd .ldrGapLimit).toNat ≠ 0 ∧ (s.rd .ldrGapLimit).toNat * 1000 < l.gapNs) ∧
  (
    let val : Word := 1
    let s : State := atState .header
    let l := s.ldr
    s.Canonical ∧ s.reachable = true ∧ s.srst ldrPage = false ∧ bit val 0 = true ∧ (l.state = .header ∨ l.state = .stage ∨ l.state = .write ∨ l.state = .check)) ∧
  (
    let val : Word := 2
    let s : State := atState .failed
    let l := s.ldr
    s.Canonical ∧ s.reachable = true ∧ s.srst ldrPage = false ∧ bit val 1 = true ∧ l.state = .failed) :=
  ⟨⟨(State.canonical_of_check (by decide +kernel)), by decide +kernel⟩,
   ⟨(State.canonical_of_check (by decide +kernel)), by decide +kernel⟩,
   ⟨(State.canonical_of_check (by decide +kernel)), by decide +kernel⟩,
   ⟨(State.canonical_of_check (by decide +kernel)), by decide +kernel⟩,
   ⟨(State.canonical_of_check (by decide +kernel)), by decide +kernel⟩,
   ⟨(State.canonical_of_check (by decide +kernel)), by decide +kernel⟩,
   ⟨(State.canonical_of_check (by decide +kernel)), by decide +kernel⟩,
   ⟨(State.canonical_of_check (by decide +kernel)), by decide +kernel⟩,
   ⟨(State.canonical_of_check (by decide +kernel)), by decide +kernel⟩,
   ⟨(State.canonical_of_check (by decide +kernel)), by decide +kernel⟩,
   ⟨(State.canonical_of_check (by decide +kernel)), by decide +kernel⟩,
   ⟨(State.canonical_of_check (by decide +kernel)), by decide +kernel⟩,
   ⟨(State.canonical_of_check (by decide +kernel)), by decide +kernel⟩,
   ⟨(State.canonical_of_check (by decide +kernel)), by decide +kernel⟩,
   ⟨(State.canonical_of_check (by decide +kernel)), by decide +kernel⟩,
   ⟨(State.canonical_of_check (by decide +kernel)), by decide +kernel⟩,
   ⟨(State.canonical_of_check (by decide +kernel)), by decide +kernel⟩,
   ⟨(State.canonical_of_check (by decide +kernel)), by decide +kernel⟩,
   ⟨(State.canonical_of_check (by decide +kernel)), by decide +kernel⟩,
   ⟨(State.canonical_of_check (by decide +kernel)), by decide +kernel⟩,
   ⟨(State.canonical_of_check (by decide +kernel)), by decide +kernel⟩,
   ⟨(State.canonical_of_check (by decide +kernel)), by decide +kernel⟩,
   ⟨(State.canonical_of_check (by decide +kernel)), by decide +kernel⟩,
   ⟨(State.canonical_of_check (by decide +kernel)), by decide +kernel⟩,
   ⟨(State.canonical_of_check (by decide +kernel)), by decide +kernel⟩,
   ⟨(State.canonical_of_check (by decide +kernel)), by decide +kernel⟩,
   ⟨(State.canonical_of_check (by decide +kernel)), by decide +kernel⟩,
   ⟨(State.canonical_of_check (by decide +kernel)), by decide +kernel⟩,
   ⟨(State.canonical_of_check (by decide +kernel)), by decide +kernel⟩⟩

theorem wit_ProofSaves : (
    let val : Word := 1
    let s : State := proofs busy
    s.Canonical ∧ s.reachable = true ∧ s.srst prfPage = false ∧ bit val 0 = true ∧ s.prfEn = true ∧ s.pageEn prfPage = true) ∧
  (
    let val : Word := 0x8000000F
    let s : State := proofs busy
    s.Canonical ∧ s.reachable = true ∧ s.srst prfPage = false ∧ bit val 31 = true ∧ bit val 30 = false) ∧
  (
    let val : Word := 0x2F
    let s : State := proofs busy
    s.Canonical ∧ s.reachable = true ∧ s.srst prfPage = false ∧ bit val 31 = false ∧ bit val 30 = false) ∧
  (
    let s : State := saveAt 0x00400100
    let room : Prop := s.enc.integrityHalt = false ∧ 16 * 2 ^ 20 ≤ s.inputBytes ∧
      (∀ l ∈ s.svc.cache, l.dirty = false) ∧
      s.prf.recipeDue = false ∧ s.internalUsed + s.mapped.length ≤ 480
    s.Canonical ∧ s.saveNeeded = true ∧ (s.run.state = .run ∨ s.run.state = .halting) ∧ s.run.inBatch = false ∧ s.prf.state = .idle ∧ s.ldr.inService = true ∧ room) ∧
  (
    let s : State := saveAt 0x00FF0100
    s.Canonical ∧ s.saveNeeded = true ∧ (s.run.state = .run ∨ s.run.state = .halting) ∧ s.run.inBatch = false ∧ s.prf.state = .idle ∧ s.ldr.inService = true ∧ s.inputBytes < 16 * 2 ^ 20) ∧
  (
    let s : State := sleepy
    let room : Prop := s.enc.integrityHalt = false ∧ 16 * 2 ^ 20 ≤ s.inputBytes ∧
      (∀ l ∈ s.svc.cache, l.dirty = false) ∧
      s.prf.recipeDue = false ∧ s.internalUsed + s.mapped.length ≤ 480
    s.Canonical ∧ s.run.state = .halted ∧ s.run.resumable = true ∧ bit s.run.sleepCfg 31 = true ∧ s.prfEn = true ∧ s.pageEn prfPage = true ∧ max 1 (bits s.run.sleepCfg 15 0) * 1000000 ≤ s.run.resumableNs ∧ s.prf.state = .idle ∧ s.prf.sleeping = false ∧ s.prf.restoreDue = false ∧ s.ldr.inService = true ∧ room) ∧
  (
    let s : State := saving id
    s.Canonical ∧ s.prf.state = .saving ∧ s.prf.todo = [] ∧ (∀ i ∈ s.svc.store, i.source ≠ .proofs) ∧ (∀ w ∈ s.flash.writing, w.isSpare = false) ∧ s.prf.saveFail = none ∧ s.prf.input = []) ∧
  (
    let s : State := saving fun p => { p with saveFail := some 0 }
    let why : Nat := 0
    s.Canonical ∧ s.prf.state = .saving ∧ s.prf.todo = [] ∧ (∀ i ∈ s.svc.store, i.source ≠ .proofs) ∧ (∀ w ∈ s.flash.writing, w.isSpare = false) ∧ s.prf.saveFail = some why) ∧
  (
    let eng : Nat := 5
    let t : Nat := 0
    let i : SvcItem := prfItem 0x40
    let s : State := proofItem 0x40 [] .saving
    let x := s.tile t
    let v := i.w1.toNat
    let place (k : Nat) : Nat := s.prfSlotAddr k v
    s.Canonical ∧ s.Plain reqProof 12 (place s.prf.target) (place s.prf.target + kib 1104) false true ∧ eng < 18 ∧ s.running eng = some i ∧ s.proofTile i = some t ∧ s.prf.todo = [] ∧ i.id < s.svc.nextId ∧ i.type = 0x40 ∧ s.prf.state = .saving ∧ s.prf.saveFail = none ∧ s.prf.recipeDue = false ∧ place s.prf.target % 64 = 0 ∧ (∀ l ∈ x.dirtyLines s.prf.target, l < 16384)) ∧
  (
    let eng : Nat := 5
    let t : Nat := 0
    let i : SvcItem := prfItem 0x41
    let j : SvcItem := { prfItem 0x41 with id := 6, stage := .ready }
    let p : Proof := aProof
    let s : State := proofItem 0x41 [{ prfItem 0x41 with id := 6, stage := .ready }] .restoring
    let x := s.tile t
    let v := i.w1.toNat
    let place (k : Nat) : Nat := s.prfSlotAddr k v
    s.Canonical ∧ s.Plain reqProof 12 (place p.slot) (place p.slot + kib 1104) true false ∧ eng < 18 ∧ s.running eng = some i ∧ s.proofTile i = some t ∧ s.prf.todo = [] ∧ i.id < s.svc.nextId ∧ i.type = 0x41 ∧ s.prf.state = .restoring ∧ s.prf.restoring = some p ∧ t ∉ s.prf.newTiles ∧ j ∈ s.svc.store ∧ j.source = .proofs ∧ j.id ≠ i.id ∧ place p.slot % 64 = 0 ∧ (∀ l ∈ x.dirtyLines p.slot, l < 16384)) ∧
  (
    let eng : Nat := 5
    let t : Nat := 0
    let i : SvcItem := prfItem 0x41
    let p : Proof := aProof
    let s : State := proofItem 0x41 [] .restoring
    let x := s.tile t
    let v := i.w1.toNat
    let place (k : Nat) : Nat := s.prfSlotAddr k v
    s.Canonical ∧ s.Plain reqProof 12 (place p.slot) (place p.slot + kib 1104) true false ∧ eng < 18 ∧ s.running eng = some i ∧ s.proofTile i = some t ∧ s.prf.todo = [] ∧ i.id < s.svc.nextId ∧ i.type = 0x41 ∧ s.prf.state = .restoring ∧ s.prf.restoring = some p ∧ t ∉ s.prf.newTiles ∧ s.svc.store = [i] ∧ s.svc.waitItems = [] ∧ s.prf.undo = [] ∧ s.prf.thenReplay = false ∧ place p.slot % 64 = 0 ∧ (∀ l ∈ x.dirtyLines p.slot, l < 16384)) :=
  ⟨⟨(State.canonical_of_check (by decide +kernel)), by decide +kernel⟩,
   ⟨(State.canonical_of_check (by decide +kernel)), by decide +kernel⟩,
   ⟨(State.canonical_of_check (by decide +kernel)), by decide +kernel⟩,
   ⟨(State.canonical_of_check (by decide +kernel)), by decide +kernel⟩,
   ⟨(State.canonical_of_check (by decide +kernel)), by decide +kernel⟩,
   ⟨(State.canonical_of_check (by decide +kernel)), by decide +kernel⟩,
   ⟨(State.canonical_of_check (by decide +kernel)), by decide +kernel⟩,
   ⟨(State.canonical_of_check (by decide +kernel)), by decide +kernel⟩,
   ⟨(State.canonical_of_check (by decide +kernel)), (State.plain_of_check (by decide +kernel)), by decide +kernel⟩,
   ⟨(State.canonical_of_check (by decide +kernel)), (State.plain_of_check (by decide +kernel)), by decide +kernel⟩,
   ⟨(State.canonical_of_check (by decide +kernel)), (State.plain_of_check (by decide +kernel)), by decide +kernel⟩⟩

theorem wit_RestoresAndRecovery : (
    let val : Word := 2
    let p : Proof := aProof
    let s : State := restorable
    let mayRestore : Prop := s.run.state = .halted ∧ s.pageEn prfPage = true ∧ s.prf.state = .idle ∧
      s.prf.undoLow ≤ p.mark ∧
      s.prf.undoFull = false
    s.Canonical ∧ s.reachable = true ∧ s.srst prfPage = false ∧ bit val 1 = true ∧ s.prf.cur = some p ∧ mayRestore) ∧
  (
    let val : Word := 2
    let s : State := noRestore
    s.Canonical ∧ s.reachable = true ∧ s.srst prfPage = false ∧ bit val 1 = true ∧ (s.prf.cur = none ∨ s.run.state ≠ .halted)) ∧
  (
    let val : Word := 4
    let p : Proof := ⟨4, 0, 2⟩
    let s : State := restorable
    let mayRestore : Prop := s.run.state = .halted ∧ s.pageEn prfPage = true ∧ s.prf.state = .idle ∧
      s.prf.undoLow ≤ p.mark ∧
      s.prf.undoFull = false
    s.Canonical ∧ s.reachable = true ∧ s.srst prfPage = false ∧ bit val 2 = true ∧ s.prf.prev = some p ∧ mayRestore) ∧
  (
    let val : Word := 4
    let s : State := noRestore
    s.Canonical ∧ s.reachable = true ∧ s.srst prfPage = false ∧ bit val 2 = true ∧ (s.prf.prev = none ∨ s.run.state ≠ .halted)) ∧
  (
    let t : Nat := 0
    let v : Nat := 0
    let store : Nat := 0
    let bank : Nat := 5
    let word : Nat := 9
    let s : State := faulty (some aProof)
    s.Canonical ∧ t < 136 ∧ (s.tile t).retired = false ∧ s.vmapOf t = some v ∧ s.run.state = .run ∧ s.prf.state = .idle ∧ s.prf.restoring = none ∧ store < 5 ∧ store ≠ 3 ∧ bank < 64 ∧ word < 2 ^ 15 ∧ s.noRecovery = none ∧ (∃ n ∈ s.spareTiles, n ≠ t) ∧ s.answersOut = false ∧ s.prf.failedTiles = []) ∧
  (
    let t : Nat := 0
    let v : Nat := 0
    let store : Nat := 0
    let bank : Nat := 5
    let word : Nat := 9
    let s : State := faulty none
    s.Canonical ∧ t < 136 ∧ (s.tile t).retired = false ∧ s.vmapOf t = some v ∧ s.run.state = .run ∧ s.prf.state = .idle ∧ s.prf.restoring = none ∧ store < 5 ∧ store ≠ 3 ∧ bank < 64 ∧ word < 2 ^ 15 ∧ s.noRecovery = some 2) ∧
  (
    let t : Nat := 7
    let v : Nat := 1
    let store : Nat := 0
    let bank : Nat := 5
    let word : Nat := 9
    let s : State := let s := faulty (some aProof); { s with tiles := s.tiles.map fun e => (e.1, { e.2 with retry := [⟨aPkt, .awaiting false⟩] }) }
    s.Canonical ∧ t < 136 ∧ (s.tile t).retired = false ∧ s.vmapOf t = some v ∧ s.run.state = .run ∧ s.prf.state = .idle ∧ s.prf.restoring = none ∧ store < 5 ∧ store ≠ 3 ∧ bank < 64 ∧ word < 2 ^ 15 ∧ s.noRecovery = none ∧ (∃ n ∈ s.spareTiles, n ≠ t) ∧ s.answersOut = true ∧ s.prf.failedTiles = []) ∧
  (
    let s : State := busy
    s.Canonical) ∧
  (
    let line : DWord := 0x1234
    let s : State := withCache busy [cachedLine]
    s.Canonical ∧ s.cached line.toNat = none) ∧
  (
    let line : DWord := 3
    let c : CacheLine := { cachedLine with dirty := false, line := 3 }
    let s : State := withCache (cacheBank0 busy) [{ cachedLine with dirty := false, line := 3 }]
    s.Canonical ∧ s.Plain reqService 9 (64 * line.toNat) (64 * line.toNat + 64) true false ∧ s.cached line.toNat = some c ∧ c.dirty = false ∧ c.slot = 0 ∧ s.cacheBanks ≠ [] ∧ (s.svc.cache.filter fun d => d.line ≠ line.toNat && d.bank = s.lineBank line.toNat && d.set = s.lineSet line.toNat).length < 16) ∧
  (
    let bank : Nat := 5
    let word : Nat := 9
    let s : State := let s := idle busy; { s with run := { s.run with state := .idle } }
    s.Canonical ∧ bank < 64 ∧ word < 8192 ∧ ownFailed (s.rd .memLown bank) = false ∧ s.run.state = .idle) ∧
  (
    let s : State := paused
    s.Canonical ∧ s.run.state = .recover ∧ s.prf.awaiting = true ∧ 1000000 ≤ s.prf.pauseNs) :=
  ⟨⟨(State.canonical_of_check (by decide +kernel)), by decide +kernel⟩,
   ⟨(State.canonical_of_check (by decide +kernel)), by decide +kernel⟩,
   ⟨(State.canonical_of_check (by decide +kernel)), by decide +kernel⟩,
   ⟨(State.canonical_of_check (by decide +kernel)), by decide +kernel⟩,
   ⟨(State.canonical_of_check (by decide +kernel)), by decide +kernel⟩,
   ⟨(State.canonical_of_check (by decide +kernel)), by decide +kernel⟩,
   ⟨(State.canonical_of_check (by decide +kernel)), by decide +kernel⟩,
   (State.canonical_of_check (by decide +kernel)),
   ⟨(State.canonical_of_check (by decide +kernel)), by decide +kernel⟩,
   ⟨(State.canonical_of_check (by decide +kernel)), (State.plain_of_check (by decide +kernel)), by decide +kernel⟩,
   ⟨(State.canonical_of_check (by decide +kernel)), by decide +kernel⟩,
   ⟨(State.canonical_of_check (by decide +kernel)), by decide +kernel⟩⟩

/-! ## Witnesses: power, memory and encryption -/

theorem wit_PowerAndThermalTicks : (
    let s : State := busy
    s.Canonical) ∧
  (
    let mv : Nat := 4500
    let s : State := busy
    s.Canonical ∧ 4500 ≤ mv ∧ mv ≤ 20000) ∧
  (
    let mv : Nat := 4100
    let s : State := put busy [(Reg.addr .pwrSupply, 12000)]
    s.Canonical ∧ 4100 ≤ mv ∧ mv < 4500 ∧ 4500 ≤ s.fld .pwrSupply 15 0) ∧
  (
    let l : List Int := (List.range 48).map fun (k : Nat) => (400 - (k : Int))
    let s : State := hot false
    s.Canonical ∧ l.length = 48) ∧
  (
    let tj : Int := 400
    let k : Nat := 0
    let s : State := hot false
    s.Canonical ∧ s.tjMax = some (tj, k) ∧ (∃ n < 34, (s.sensor n).isSome = true)) :=
  ⟨(State.canonical_of_check (by decide +kernel)),
   ⟨(State.canonical_of_check (by decide +kernel)), by decide +kernel⟩,
   ⟨(State.canonical_of_check (by decide +kernel)), by decide +kernel⟩,
   ⟨(State.canonical_of_check (by decide +kernel)), by decide +kernel⟩,
   ⟨(State.canonical_of_check (by decide +kernel)), by decide +kernel⟩⟩

theorem wit_IdleBlocksAndBanks : (
    let s : State := resty
    s.Canonical ∧ s.isHalted = true ∧ s.fld .pwrIdle 15 0 ≠ 0 ∧ s.fld .pwrIdle 15 0 * 1000 ≤ s.run.haltedNs ∧ s.sup.stepPllOn = true) ∧
  (
    let ch : Nat := 7
    let s : State := resty
    s.Canonical ∧ ch < 8 ∧ s.fld .pwrIdle 31 16 ≠ 0 ∧ s.fld .pwrIdle 31 16 * 1000000 ≤ Table.get (fun _ => 0) s.mem.chIdleNs ch ∧ bit (s.rd .memChCfg ch) 31 = true ∧ ch ∉ s.mem.selfRefresh) ∧
  (
    let bank : Nat := 63
    let s : State := resty
    s.Canonical ∧ bank < 64 ∧ bits (s.rd .memLown bank) 11 8 ≠ 0 ∧ s.fld .memRetCfg 15 0 ≠ 0 ∧ s.fld .memRetCfg 15 0 * 1000 ≤ Table.get (fun _ => 0) s.mem.larderIdleNs bank) ∧
  (
    let s : State := resty
    s.Canonical ∧ s.reachable = true ∧ bit (s.rd .memScrub) 31 = true ∧ s.pageEn (chanPage 0) = true ∧ s.ddrLines ≠ 0 ∧ s.scrubDue = true ∧ s.internalUsed < 480) ∧
  (
    let larder : Bool := true
    let t : Nat := 0
    let b : Nat := 0
    let val : Word := 0x10307
    let s : State := banks
    let page := ownPage larder t
    let w := s.own larder t b
    let kind := bits val 11 8
    s.Canonical ∧ (if larder then b < 64 else t < 136 ∧ b < 16) ∧ s.reachable = true ∧ s.srst page = false ∧ (larder = false → (s.tile t).power = .on) ∧ ownPending w = false ∧ (bits w 11 8 = 2 → s.loading = false) ∧ (bits w 11 8 = 5 → s.acqArmed = false) ∧ (larder = false → bits w 11 8 = 1 ∨ kind = 1 → s.run.state ≠ .run) ∧ s.ownerOk larder b kind (bits val 7 0) = true ∧ ownFailed w = false) ∧
  (
    let larder : Bool := true
    let t : Nat := 0
    let b : Nat := 0
    let s : State := pendBank banks true 0 false
    let page := ownPage larder t
    let w := s.own larder t b
    s.Canonical ∧ (if larder then b < 64 else t < 136 ∧ b < 16) ∧ s.reachable = true ∧ s.srst page = false ∧ (larder = false → (s.tile t).power = .on) ∧ ownPending w = true) ∧
  (
    let larder : Bool := true
    let t : Nat := 0
    let b : Nat := 0
    let h : Handover := ⟨true, 0, 0, 3, 7, true⟩
    let s : State := pendBank banks true 0 true
    s.Canonical ∧ (if larder then b < 64 else t < 136 ∧ b < 16) ∧ s.mem.handovers = [h] ∧ s.mem.waiting = [] ∧ h.of larder t b = true ∧ h.kind < 16 ∧ h.index < 256 ∧ s.svc.cache = [] ∧ (larder = false → h.ptile = t)) :=
  ⟨⟨(State.canonical_of_check (by decide +kernel)), by decide +kernel⟩,
   ⟨(State.canonical_of_check (by decide +kernel)), by decide +kernel⟩,
   ⟨(State.canonical_of_check (by decide +kernel)), by decide +kernel⟩,
   ⟨(State.canonical_of_check (by decide +kernel)), by decide +kernel⟩,
   ⟨(State.canonical_of_check (by decide +kernel)), by decide +kernel⟩,
   ⟨(State.canonical_of_check (by decide +kernel)), by decide +kernel⟩,
   ⟨(State.canonical_of_check (by decide +kernel)), by decide +kernel⟩⟩

theorem wit_KeysAndRegions : (
    let val : Word := 0x105
    let s : State := keyed (2 ^ 256 * 3 + 7)
    let n := bits val 5 0
    let k1 : BitVec 256 := s.enc.keyData.setWidth 256
    let k2 : BitVec 256 := s.enc.keyData.extractLsb' 256 256
    s.Canonical ∧ s.reachable = true ∧ s.srst (encPage + 0x1000) = false ∧ bits val 9 8 = 1 ∧ s.keyBusy n = false ∧ n ≠ 0 ∧ k1 ≠ k2) ∧
  (
    let val : Word := 0x105
    let s : State := keyed (2 ^ 256 * 7 + 7)
    let n := bits val 5 0
    let k1 : BitVec 256 := s.enc.keyData.setWidth 256
    let k2 : BitVec 256 := s.enc.keyData.extractLsb' 256 256
    s.Canonical ∧ s.reachable = true ∧ s.srst (encPage + 0x1000) = false ∧ bits val 9 8 = 1 ∧ s.keyBusy n = false ∧ n ≠ 0 ∧ k1 = k2) ∧
  (
    let val : Word := 0x100
    let s : State := keyed (2 ^ 256 * 3 + 7)
    let n := bits val 5 0
    s.Canonical ∧ s.reachable = true ∧ s.srst (encPage + 0x1000) = false ∧ bits val 9 8 = 1 ∧ s.keyBusy n = false ∧ n = 0) ∧
  (
    let val : Word := 0x205
    let s : State := keyed (2 ^ 256 * 3 + 7)
    let n := bits val 5 0
    s.Canonical ∧ s.reachable = true ∧ s.srst (encPage + 0x1000) = false ∧ bits val 9 8 = 2 ∧ s.keyBusy n = false ∧ n ≠ 0) ∧
  (
    let val : Word := 0x200
    let s : State := keyed (2 ^ 256 * 3 + 7)
    let n := bits val 5 0
    s.Canonical ∧ s.reachable = true ∧ s.srst (encPage + 0x1000) = false ∧ bits val 9 8 = 2 ∧ s.keyBusy n = false ∧ n = 0) ∧
  (
    let val : Word := 0x101
    let s : State := lockedKeys busy
    let n := bits val 5 0
    s.Canonical ∧ s.reachable = true ∧ s.srst (encPage + 0x1000) = false ∧ bits val 9 8 = 1 ∧ s.keyBusy n = true) ∧
  (
    let val : Word := 0x202
    let s : State := lockedKeys busy
    let n := bits val 5 0
    s.Canonical ∧ s.reachable = true ∧ s.srst (encPage + 0x1000) = false ∧ bits val 9 8 = 2 ∧ s.keyBusy n = true) ∧
  (
    let val : Word := 0x001
    let s : State := keyed (2 ^ 256 * 3 + 7)
    s.Canonical ∧ s.reachable = true ∧ s.srst (encPage + 0x1000) = false ∧ (bits val 9 8 = 0 ∨ bits val 9 8 = 3)) ∧
  (
    let g : Nat := 5
    let val : Word := 0x8000FFFF
    let s : State := carved
    let base := s.fld .encRgnBase 21 0 g
    let limit := s.fld .encRgnLimit 21 0 g
    let inside : Prop := base ≤ limit ∧ limit * 2 ^ 20 < s.ddrCap
    s.Canonical ∧ s.reachable = true ∧ s.srst (encPage + 0x2000) = false ∧ g < 32 ∧ inside ∧ rgnInteg val = false ∧ s.enc.bg = .idle) ∧
  (
    let g : Nat := 5
    let val : Word := 0xC000FFFF
    let s : State := carved
    let old := s.rd .encRgnCtrl g
    let base := s.fld .encRgnBase 21 0 g
    let limit := s.fld .encRgnLimit 21 0 g
    let inside : Prop := base ≤ limit ∧ limit * 2 ^ 20 < s.ddrCap
    s.Canonical ∧ s.reachable = true ∧ s.srst (encPage + 0x2000) = false ∧ g < 32 ∧ inside ∧ rgnInteg val = true ∧ rgnInteg old = false ∧ bit (s.rd .encCarve) 31 = true ∧ s.enc.kt.isSome = true ∧ s.enc.bg = .idle ∧ limit < 2 ^ 22) ∧
  (
    let g : Nat := 5
    let val : Word := 0xC000FFFF
    let kt : BitVec 256 := 9
    let s : State := { carved with enc := { carved.enc with kt := none } }
    let old := s.rd .encRgnCtrl g
    s.Canonical ∧ s.reachable = true ∧ s.srst (encPage + 0x2000) = false ∧ g < 32 ∧ rgnInteg val = true ∧ rgnInteg old = false ∧ s.enc.kt = none) ∧
  (
    let g : Nat := 5
    let val : Word := 0x8000FFFF
    let s : State := put carved [(Reg.addr .encRgnBase 5, 10)]
    let old := s.rd .encRgnCtrl g
    let base := s.fld .encRgnBase 21 0 g
    let limit := s.fld .encRgnLimit 21 0 g
    let inside : Prop := base ≤ limit ∧ limit * 2 ^ 20 < s.ddrCap
    s.Canonical ∧ s.reachable = true ∧ s.srst (encPage + 0x2000) = false ∧ g < 32 ∧ ¬inside ∧ rgnEn val = true ∧ rgnEn old = false) ∧
  (
    let val : Word := 0x80000000
    let s : State := busy
    s.Canonical ∧ s.reachable = true ∧ s.srst encPage = false ∧ bit val 31 = bit (s.rd .encCarve) 31) ∧
  (
    let val : Word := 0x80000000
    let s : State := withLdr (put busy [(Reg.addr .encCarve, 0), (Reg.addr .memCapInst, 0x4004)]) fun l => { l with inService := false }
    s.Canonical ∧ s.reachable = true ∧ s.srst encPage = false ∧ bit val 31 ≠ bit (s.rd .encCarve) 31 ∧ (∀ n < 32, rgnInteg (s.rd .encRgnCtrl n) = false) ∧ s.ldr.inService = false ∧ s.enc.bg = .idle) ∧
  (
    let val : Word := 0
    let s : State := busy
    s.Canonical ∧ s.reachable = true ∧ s.srst encPage = false ∧ bit val 31 ≠ bit (s.rd .encCarve) 31 ∧ s.ldr.inService = true) ∧
  (
    let val : Word := 1
    let s : State := put carved [(Reg.addr .encBgFirst, 3), (Reg.addr .encBgLast, 895), (Reg.addr .encBgSlots, 0x100)]
    let first := s.fld .encBgFirst 21 0
    let last := s.fld .encBgLast 21 0
    let from_ := s.fld .encBgSlots 5 0
    let to_ := s.fld .encBgSlots 13 8
    s.Canonical ∧ s.reachable = true ∧ s.srst (encPage + 0x3000) = false ∧ bit val 0 = true ∧ s.enc.bg = .idle ∧ from_ ≠ to_ ∧ s.slotValid from_ = true ∧ s.slotValid to_ = true ∧ first ≤ last ∧ (last + 1) * 2 ^ 20 ≤ s.ddrCap) ∧
  (
    let val : Word := 1
    let s : State := put (lockedKeys busy) [(Reg.addr .encBgSlots, 0x100)]
    let from_ := s.fld .encBgSlots 5 0
    let to_ := s.fld .encBgSlots 13 8
    s.Canonical ∧ s.reachable = true ∧ s.srst (encPage + 0x3000) = false ∧ bit val 0 = true ∧ (s.enc.bg ≠ .idle ∨ from_ = to_)) ∧
  (
    let val : Word := 2
    let s : State := bgRun fun c => { c with bg := .done, bgOld := 1 }
    s.Canonical ∧ s.reachable = true ∧ s.srst (encPage + 0x3000) = false ∧ bit val 1 = true ∧ s.enc.bg = .done) ∧
  (
    let val : Word := 2
    let s : State := carved
    s.Canonical ∧ s.reachable = true ∧ s.srst (encPage + 0x3000) = false ∧ bit val 1 = true ∧ s.enc.bg ≠ .done) ∧
  (
    let kt : BitVec 256 := 3
    let s : State := bgRun fun c => { c with bg := .seal, bgRegion := 5, bound := 0x200000, bgEnd := 0xA00000 }
    let a := s.enc.bound.toNat
    let channel : Prop := s.pageEn (chanPage (s.ddrChannel a)) = true
    s.Canonical ∧ s.bgPaused = false ∧ s.enc.bound.toNat + 64 < 2 ^ 64 ∧ s.enc.bg = .seal ∧ channel ∧ s.enc.kt = some kt ∧ s.enc.bgRegion < 32) ∧
  (
    let key : KeySlot := ⟨1, 2⟩
    let s : State := bgRun fun c => { c with bg := .rekey, bgOld := 0, bgNew := 1, bound := 0x40, bgEnd := 0x100000 }
    let a := s.enc.bound.toNat
    let channel : Prop := s.pageEn (chanPage (s.ddrChannel a)) = true
    s.Canonical ∧ s.bgPaused = false ∧ s.enc.bound.toNat + 64 < 2 ^ 64 ∧ s.enc.bg = .rekey ∧ channel ∧ s.enc.bgOld = 0 ∧ s.slotKey s.enc.bgNew = some key ∧ s.enc.bgNew ≠ 0 ∧ a % 64 = 0 ∧ s.integ a = false) ∧
  (
    let s : State := bgRun fun c => { c with bg := .rekey, bgOld := 0, bgNew := 1, bound := 0x40, bgEnd := 0x100000 }
    s.Canonical ∧ s.bgPaused = false ∧ s.enc.bound.toNat + 64 < 2 ^ 64 ∧ s.enc.bg = .rekey) :=
  ⟨⟨(State.canonical_of_check (by decide +kernel)), by decide +kernel⟩,
   ⟨(State.canonical_of_check (by decide +kernel)), by decide +kernel⟩,
   ⟨(State.canonical_of_check (by decide +kernel)), by decide +kernel⟩,
   ⟨(State.canonical_of_check (by decide +kernel)), by decide +kernel⟩,
   ⟨(State.canonical_of_check (by decide +kernel)), by decide +kernel⟩,
   ⟨(State.canonical_of_check (by decide +kernel)), by decide +kernel⟩,
   ⟨(State.canonical_of_check (by decide +kernel)), by decide +kernel⟩,
   ⟨(State.canonical_of_check (by decide +kernel)), by decide +kernel⟩,
   ⟨(State.canonical_of_check (by decide +kernel)), by decide +kernel⟩,
   ⟨(State.canonical_of_check (by decide +kernel)), by decide +kernel⟩,
   ⟨(State.canonical_of_check (by decide +kernel)), by decide +kernel⟩,
   ⟨(State.canonical_of_check (by decide +kernel)), by decide +kernel⟩,
   ⟨(State.canonical_of_check (by decide +kernel)), by decide +kernel⟩,
   ⟨(State.canonical_of_check (by decide +kernel)), by decide +kernel⟩,
   ⟨(State.canonical_of_check (by decide +kernel)), by decide +kernel⟩,
   ⟨(State.canonical_of_check (by decide +kernel)), by decide +kernel⟩,
   ⟨(State.canonical_of_check (by decide +kernel)), by decide +kernel⟩,
   ⟨(State.canonical_of_check (by decide +kernel)), by decide +kernel⟩,
   ⟨(State.canonical_of_check (by decide +kernel)), by decide +kernel⟩,
   ⟨(State.canonical_of_check (by decide +kernel)), by decide +kernel⟩,
   ⟨(State.canonical_of_check (by decide +kernel)), by decide +kernel⟩,
   ⟨(State.canonical_of_check (by decide +kernel)), by decide +kernel⟩⟩

/-! ## Witnesses: links and the network -/

theorem wit_LinksTrain : (
    let lp : Nat := 2
    let p : Nat := 2
    let lane : Nat := 8
    let val : Word := 0x40000035
    let s : State := put { busy with ports := [] } [(Reg.addr .lnkCfg 2, 0x40000037)]
    let x := s.port lp
    let page := portPage p 0
    s.Canonical ∧ lp < 16 ∧ p = lp % 8 ∧ lane < 9 ∧ s.reachable = true ∧ s.srst page = false ∧ lp < 8 ∧ s.linkMode p = 0 ∧ bits val 1 0 = 1 ∧ s.pageEn page = true ∧ x.state = .off ∧ (s.port (p + 8)).state = .off) ∧
  (
    let lp : Nat := 2
    let p : Nat := 2
    let lane : Nat := 8
    let val : Word := 0
    let s : State := withPort busy 2 (portIn .failed)
    let x := s.port lp
    let page := portPage p 0
    s.Canonical ∧ lp < 16 ∧ p = lp % 8 ∧ lane < 9 ∧ s.reachable = true ∧ s.srst page = false ∧ lp < 8 ∧ s.linkMode p = 0 ∧ bits val 1 0 = 0 ∧ x.state = .failed ∧ (s.port (p + 8)).state ≠ .failed) ∧
  (
    let lp : Nat := 2
    let p : Nat := 2
    let lane : Nat := 8
    let val : Word := 0xFFFFFFFC
    let s : State := withPort busy 2 (portIn .off)
    let x := s.port lp
    let page := portPage p 0
    s.Canonical ∧ lp < 16 ∧ p = lp % 8 ∧ lane < 9 ∧ s.reachable = true ∧ s.srst page = false ∧ lp < 8 ∧ s.linkMode p = 0 ∧ bits val 1 0 = 0 ∧ x.state ≠ .failed ∧ (s.port (p + 8)).state ≠ .failed) ∧
  (
    let lp : Nat := 2
    let p : Nat := 2
    let lane : Nat := 8
    let val : Word := 0x40000035
    let s : State := linked 2 { portIn .active with ns := 5000001 }
    let page := portPage p 0
    s.Canonical ∧ lp < 16 ∧ p = lp % 8 ∧ lane < 9 ∧ s.reachable = true ∧ s.srst page = false ∧ lp < 8 ∧ s.linkMode p ≠ 0 ∧ (bits val 1 0 = 1 ∨ bits val 1 0 = 2)) ∧
  (
    let lp : Nat := 2
    let p : Nat := 2
    let lane : Nat := 8
    let val : Word := 0
    let s : State := linked 2 { portIn .active with ns := 5000001 }
    let x := s.port lp
    let page := portPage p 0
    s.Canonical ∧ lp < 16 ∧ p = lp % 8 ∧ lane < 9 ∧ s.reachable = true ∧ s.srst page = false ∧ lp < 8 ∧ s.linkMode p ≠ 0 ∧ bits val 1 0 = 0 ∧ x.state = .active ∧ (s.port (lp + 8)).state = .off) ∧
  (
    let lp : Nat := 2
    let p : Nat := 2
    let lane : Nat := 8
    let s : State := linked 2 { portIn .pll with ns := 5000001 }
    let x := s.port lp
    s.Canonical ∧ lp < 16 ∧ p = lp % 8 ∧ lane < 9 ∧ lp < 8 ∧ x.state = .pll ∧ (s.port (lp + 8)).state ≠ .pll) ∧
  (
    let lp : Nat := 2
    let p : Nat := 2
    let lane : Nat := 8
    let lanes : BitVec 9 := 0xFF
    let s : State := linked 2 { portIn .detect with ns := 5000001 }
    let x := s.port lp
    s.Canonical ∧ lp < 16 ∧ p = lp % 8 ∧ lane < 9 ∧ x.state = .detect ∧ s.lanesSuffice lp lanes = true) ∧
  (
    let lp : Nat := 2
    let p : Nat := 2
    let lane : Nat := 8
    let lanes : BitVec 9 := 0xFF
    let s : State := withTim (linked 2 { portIn .lock with ns := 5000001 }) fun t => { t with ref := true }
    let x := s.port lp
    s.Canonical ∧ lp < 16 ∧ p = lp % 8 ∧ lane < 9 ∧ x.state = .lock ∧ s.lanesSuffice lp lanes = true ∧ s.testFailed p = 0 ∧ (s.tim.ref = true ∨ s.sup.xtal = true)) ∧
  (
    let lp : Nat := 2
    let p : Nat := 2
    let lane : Nat := 8
    let n : Nat := 5000000
    let s : State := linked 2 { portIn .eq with ns := 5000001 }
    let x := s.port lp
    s.Canonical ∧ lp < 16 ∧ p = lp % 8 ∧ lane < 9 ∧ s.trainLimit lp = some n ∧ n ≤ x.ns) ∧
  (
    let lp : Nat := 2
    let p : Nat := 2
    let lane : Nat := 8
    let c : QWord := 1
    let s : State := linked 2 { portIn .active with ns := 5000001 }
    let x := s.port lp
    s.Canonical ∧ lp < 16 ∧ p = lp % 8 ∧ lane < 9 ∧ cellOk c = false ∧ x.receives = true) ∧
  (
    let lp : Nat := 2
    let p : Nat := 2
    let lane : Nat := 8
    let c : QWord := 1
    let s : State := linked 2 { portIn .off with ns := 5000001 }
    let x := s.port lp
    s.Canonical ∧ lp < 16 ∧ p = lp % 8 ∧ lane < 9 ∧ cellOk c = false ∧ x.receives = false) ∧
  (
    let lp : Nat := 2
    let p : Nat := 2
    let lane : Nat := 8
    let c : QWord := mkCell (8 * 2 ^ 63 + 50 * 2 ^ 56)
    let s : State := linked 2 { portIn .eq with ns := 5000001 }
    let x := s.port lp
    s.Canonical ∧ lp < 16 ∧ p = lp % 8 ∧ lane < 9 ∧ cellOk c = true ∧ x.state = .eq ∧ bits c 98 95 < 9 ∧ bits c 94 88 ≠ 0 ∧ bit c 88 = false ∧ Table.get (fun _ => 0) x.txStatus (bits c 98 95) = 0) ∧
  (
    let lp : Nat := 2
    let p : Nat := 2
    let lane : Nat := 8
    let skew : Nat := 512
    let c : QWord := mkCell 0
    let order : List Nat := List.range 9
    let s : State := linked 2 { portIn .order with ns := 5000001 }
    let x := s.port lp
    s.Canonical ∧ lp < 16 ∧ p = lp % 8 ∧ lane < 9 ∧ cellOk c = true ∧ x.state = .order ∧ (∀ k < 9, order[k]? = some k) ∧ skew ≤ 512) ∧
  (
    let lp : Nat := 2
    let p : Nat := 2
    let lane : Nat := 8
    let c : QWord := initCell 1
    let s : State := linked 2 { portIn .init with ns := 5000001, initSeen := 1, lastInit := initCell 1 }
    let x := s.port lp
    s.Canonical ∧ lp < 16 ∧ p = lp % 8 ∧ lane < 9 ∧ cellOk c = true ∧ x.state = .init ∧ bits c 111 108 = 6 ∧ 0 < x.initSeen ∧ c &&& initMask = x.lastInit &&& initMask ∧ bits c 107 106 = s.linkMode p ∧ bits c 105 104 = s.fld .lnkCfg 5 4 p ∧ bits c 102 99 = 15 ∧ x.lost = none) ∧
  (
    let lp : Nat := 2
    let p : Nat := 2
    let lane : Nat := 8
    let lanes : BitVec 9 := 0xFF
    let s : State := linked 2 { portIn .lock with ns := 5000001 }
    let x := s.port lp
    s.Canonical ∧ lp < 16 ∧ p = lp % 8 ∧ lane < 9 ∧ x.state = .lock ∧ s.lanesSuffice lp lanes = true ∧ s.testFailed p = 0 ∧ s.tim.ref = false ∧ s.sup.xtal = false) :=
  ⟨⟨(State.canonical_of_check (by decide +kernel)), by decide +kernel⟩,
   ⟨(State.canonical_of_check (by decide +kernel)), by decide +kernel⟩,
   ⟨(State.canonical_of_check (by decide +kernel)), by decide +kernel⟩,
   ⟨(State.canonical_of_check (by decide +kernel)), by decide +kernel⟩,
   ⟨(State.canonical_of_check (by decide +kernel)), by decide +kernel⟩,
   ⟨(State.canonical_of_check (by decide +kernel)), by decide +kernel⟩,
   ⟨(State.canonical_of_check (by decide +kernel)), by decide +kernel⟩,
   ⟨(State.canonical_of_check (by decide +kernel)), by decide +kernel⟩,
   ⟨(State.canonical_of_check (by decide +kernel)), by decide +kernel⟩,
   ⟨(State.canonical_of_check (by decide +kernel)), by decide +kernel⟩,
   ⟨(State.canonical_of_check (by decide +kernel)), by decide +kernel⟩,
   ⟨(State.canonical_of_check (by decide +kernel)), by decide +kernel⟩,
   ⟨(State.canonical_of_check (by decide +kernel)), by decide +kernel⟩,
   ⟨(State.canonical_of_check (by decide +kernel)), by decide +kernel⟩,
   ⟨(State.canonical_of_check (by decide +kernel)), by decide +kernel⟩⟩

theorem wit_LinkLayerAndSparing : (
    let lp : Nat := 2
    let lane : Nat := 3
    let k : LinkPacket := aLink 0
    let f1 : QWord := 0x07050100000000000000000000000000
    let f2 : QWord := 5
    let fs : List QWord := []
    let s : State := linked 2 { portIn .active with ns := 5000001 }
    let x := s.port lp
    s.Canonical ∧ lp < 16 ∧ lane < 9 ∧ x.up = true ∧ k.good = true ∧ k.seq = x.rxSeq ∧ k.flits = f1 :: f2 :: fs) ∧
  (
    let lp : Nat := 2
    let lane : Nat := 3
    let k : LinkPacket := { aLink 0 with crc := 1 }
    let s : State := linked 2 { portIn .active with ns := 5000001 }
    let x := s.port lp
    s.Canonical ∧ lp < 16 ∧ lane < 9 ∧ x.up = true ∧ k.good = false ∧ x.nakFor ≠ some x.rxSeq) ∧
  (
    let lp : Nat := 2
    let lane : Nat := 3
    let cell : QWord := mkCell (5 * 2 ^ 84 + 2 ^ 83 + 9 * 2 ^ 58 + 4095 * 2 ^ 46)
    let u : Unacked := sent 5 1
    let l1 : List Unacked := [sent 4 1]
    let l2 : List Unacked := [sent 6 1]
    let s : State := linked 2 { portIn .active with ns := 5000001, retryBuf := [sent 4 1, sent 5 1, sent 6 1] }
    let x := s.port lp
    s.Canonical ∧ lp < 16 ∧ lane < 9 ∧ cellOk cell = true ∧ x.up = true ∧ x.state ≠ .drain ∧ bit cell 115 = true ∧ bit cell 114 = false ∧ x.retryBuf = l1 ++ u :: l2 ∧ u.pkt.seq.toNat = bits cell 127 116 ∧ (∀ v ∈ l1, v.pkt.seq ≠ u.pkt.seq)) ∧
  (
    let lp : Nat := 2
    let lane : Nat := 3
    let cell : QWord := 1
    let s : State := linked 2 { portIn .active with ns := 5000001 }
    let x := s.port lp
    s.Canonical ∧ lp < 16 ∧ lane < 9 ∧ cellOk cell = false ∧ x.receives = true) ∧
  (
    let lp : Nat := 2
    let lane : Nat := 3
    let s : State := linked 2 { portIn .active with ns := 5000001 }
    let x := s.port lp
    s.Canonical ∧ lp < 16 ∧ lane < 9 ∧ x.up = true ∧ (1000 ≤ x.sendNs ∨ 64 ≤ x.sinceAck)) ∧
  (
    let lp : Nat := 2
    let lane : Nat := 3
    let u : Unacked := sent 5 1
    let l2 : List Unacked := [sent 6 1]
    let s : State := linked 2 { portIn .active with ns := 5000001, retryBuf := [sent 5 1, sent 6 1] }
    let x := s.port lp
    s.Canonical ∧ lp < 16 ∧ lane < 9 ∧ (x.state = .active ∨ x.state = .drain) ∧ x.retryBuf = u :: l2 ∧ s.ackLimit lp ≤ x.ackNs ∧ (∀ v ∈ x.retryBuf, v.sends < 32)) ∧
  (
    let lp : Nat := 2
    let lane : Nat := 3
    let u : Unacked := sent 5 32
    let l2 : List Unacked := [sent 6 1]
    let s : State := linked 2 { portIn .active with ns := 5000001, retryBuf := [sent 5 32, sent 6 1] }
    let x := s.port lp
    s.Canonical ∧ lp < 16 ∧ lane < 9 ∧ (x.state = .active ∨ x.state = .drain) ∧ x.retryBuf = u :: l2 ∧ s.ackLimit lp ≤ x.ackNs ∧ 32 ≤ u.sends) ∧
  (
    let p : Nat := 2
    let lp : Nat := 2
    let lane : Nat := 3
    let cdr : Bool := true
    let comma : Bool := false
    let s : State := laneOn (linked 2 { portIn .active with ns := 5000001 }) 2 3
    let x := s.port lp
    let free : Prop := bit (s.rd .lnkSpare p) 31 = false ∧ s.spareTaken lp = false
    s.Canonical ∧ p < 8 ∧ lane < 9 ∧ lp < 16 ∧ p = lp % 8 ∧ lp = s.laneOwner p lane ∧ x.state = .active ∧ s.carriesLane lp lane = true ∧ free ∧ (cdr = true ∨ comma = true)) ∧
  (
    let p : Nat := 2
    let lp : Nat := 2
    let lane : Nat := 3
    let cdr : Bool := true
    let comma : Bool := false
    let s : State := put (laneOn (linked 2 { portIn .active with ns := 5000001 }) 2 3) [(Reg.addr .lnkSpare 2, 0x80000001)]
    let x := s.port lp
    s.Canonical ∧ p < 8 ∧ lane < 9 ∧ lp < 16 ∧ p = lp % 8 ∧ lp = s.laneOwner p lane ∧ x.state = .active ∧ s.carriesLane lp lane = true ∧ bit (s.rd .lnkSpare p) 31 = true ∧ (cdr = true ∨ comma = true)) ∧
  (
    let p : Nat := 2
    let lp : Nat := 2
    let lane : Nat := 3
    let s : State := put (laneOn (linked 2 { portIn .active with ns := 5000001 }) 2 3) [(Reg.addr .lnkTimers 2, 0x00640400)]
    let x := s.port lp
    s.Canonical ∧ p < 8 ∧ lane < 9 ∧ lp < 16 ∧ p = lp % 8 ∧ lp = s.laneOwner p lane ∧ x.state = .active ∧ s.fld .lnkTimers 7 0 p = 0) ∧
  (
    let p : Nat := 2
    let lp : Nat := 2
    let lane : Nat := 3
    let cell : QWord := mkCell (2 ^ 95 + 3 * 2 ^ 90)
    let s : State := linked 2 { portIn .active with ns := 5000001 }
    let x := s.port lp
    let free : Prop := bit (s.rd .lnkSpare p) 31 = false ∧ s.spareTaken lp = false
    s.Canonical ∧ p < 8 ∧ lane < 9 ∧ lp < 16 ∧ p = lp % 8 ∧ cellOk cell = true ∧ bit cell 127 = true ∧ x.state = .active ∧ free) ∧
  (
    let p : Nat := 2
    let lp : Nat := 2
    let lane : Nat := 3
    let cell : QWord := mkCell (3 * 2 ^ 90)
    let s : State := linked 2 { swapping with swapAcked := false }
    let x := s.port lp
    s.Canonical ∧ p < 8 ∧ lane < 9 ∧ lp < 16 ∧ p = lp % 8 ∧ cellOk cell = true ∧ bit cell 127 = false ∧ x.state = .swap ∧ bits cell 125 122 = x.swapLane) ∧
  (
    let p : Nat := 2
    let lp : Nat := 2
    let lane : Nat := 3
    let s : State := put (linked 2 swapping) [(Reg.addr .lnkLane 2 8, 0xC0000000)]
    let x := s.port lp
    s.Canonical ∧ p < 8 ∧ lane < 9 ∧ lp < 16 ∧ p = lp % 8 ∧ x.state = .swap ∧ (x.swapAcked = true ∨ x.swapDetected = false) ∧ bit x.ready 8 = true ∧ bit x.farReady 8 = true ∧ s.spareLocked lp = true ∧ x.swapSkew ≤ 65536 ∧ x.swapNak = none ∧ x.swapLane < 8) ∧
  (
    let p : Nat := 2
    let lp : Nat := 2
    let lane : Nat := 3
    let s : State := linked 2 swapping
    let x := s.port lp
    s.Canonical ∧ p < 8 ∧ lane < 9 ∧ lp < 16 ∧ p = lp % 8 ∧ x.state = .swap ∧ 2000000 < x.ns) ∧
  (
    let p : Nat := 2
    let lp : Nat := 2
    let lane : Nat := 3
    let s : State := linked 2 { portIn .active with ns := 5000001 }
    let x := s.port lp
    s.Canonical ∧ p < 8 ∧ lane < 9 ∧ lp < 16 ∧ p = lp % 8 ∧ x.state = .active) :=
  ⟨⟨(State.canonical_of_check (by decide +kernel)), by decide +kernel⟩,
   ⟨(State.canonical_of_check (by decide +kernel)), by decide +kernel⟩,
   ⟨(State.canonical_of_check (by decide +kernel)), by decide +kernel⟩,
   ⟨(State.canonical_of_check (by decide +kernel)), by decide +kernel⟩,
   ⟨(State.canonical_of_check (by decide +kernel)), by decide +kernel⟩,
   ⟨(State.canonical_of_check (by decide +kernel)), by decide +kernel⟩,
   ⟨(State.canonical_of_check (by decide +kernel)), by decide +kernel⟩,
   ⟨(State.canonical_of_check (by decide +kernel)), by decide +kernel⟩,
   ⟨(State.canonical_of_check (by decide +kernel)), by decide +kernel⟩,
   ⟨(State.canonical_of_check (by decide +kernel)), by decide +kernel⟩,
   ⟨(State.canonical_of_check (by decide +kernel)), by decide +kernel⟩,
   ⟨(State.canonical_of_check (by decide +kernel)), by decide +kernel⟩,
   ⟨(State.canonical_of_check (by decide +kernel)), by decide +kernel⟩,
   ⟨(State.canonical_of_check (by decide +kernel)), by decide +kernel⟩,
   ⟨(State.canonical_of_check (by decide +kernel)), by decide +kernel⟩⟩

theorem wit_HubQuadrants : (
    let i : Nat := 3
    let q : QuadItem := qPkt fun p => { p with next := 2, dstDev := 0 }
    let s : State := hub [qPkt fun p => { p with next := 2, dstDev := 0 }] [] .active
    let p := q.pkt
    s.Canonical ∧ s.net.quad = [q] ∧ q.arrived = some i ∧ s.underTest 162 = false ∧ p.hopAt 0 < 4 ∧ p.next = p.count ∧ p.dstDev = s.devId) ∧
  (
    let i : Nat := 3
    let lp : Nat := 2
    let q : QuadItem := qPkt id
    let s : State := hub [qPkt id] [] .active
    let p := q.pkt
    s.Canonical ∧ s.net.quad = [q] ∧ q.arrived = some i ∧ s.underTest 162 = false ∧ p.hopAt 0 < 4 ∧ p.next ≠ p.count ∧ p.exit = lp ∧ (s.port lp).state = .active ∧ s.mayEnter (some i) lp (1 + p.flits.length) false = true) ∧
  (
    let i : Nat := 3
    let q : QuadItem := qPkt fun p => { p with hop := 4 }
    let s : State := hub [qPkt fun p => { p with hop := 4 }] [] .active
    let p := q.pkt
    s.Canonical ∧ s.net.quad = [q] ∧ q.arrived = some i ∧ s.underTest 162 = false ∧ (4 ≤ p.hopAt 0 ∨ (p.next = p.count ∧ p.dstDev ≠ s.devId))) ∧
  (
    let i : Nat := 3
    let lp : Nat := 2
    let q : QuadItem := qPkt id
    let s : State := hub [qPkt id] [] .off
    let p := q.pkt
    s.Canonical ∧ s.net.quad = [q] ∧ q.arrived = some i ∧ s.underTest 162 = false ∧ p.hopAt 0 < 4 ∧ p.next ≠ p.count ∧ p.exit = lp ∧ (s.port lp).state = .off) ∧
  (
    let i : Nat := 3
    let a : QuadAnswer := qAns 0
    let s : State := hub [] [qAns 0] .active
    s.Canonical ∧ s.net.quadAns = [a] ∧ a.arrived = some i ∧ s.underTest 162 = false ∧ a.ans.rcount = 0) ∧
  (
    let i : Nat := 3
    let lp : Nat := 2
    let a : QuadAnswer := qAns 1
    let s : State := hub [] [qAns 1] .active
    s.Canonical ∧ s.net.quadAns = [a] ∧ a.arrived = some i ∧ s.underTest 162 = false ∧ a.ans.rcount ≠ 0 ∧ a.ans.retAt (a.ans.rcount - 1) = lp ∧ (s.port lp).state = .active ∧ s.mayEnter (some i) lp 3 true = true) ∧
  (
    let i : Nat := 3
    let lp : Nat := 2
    let a : QuadAnswer := qAns 1
    let s : State := hub [] [qAns 1] .off
    s.Canonical ∧ s.net.quadAns = [a] ∧ a.arrived = some i ∧ s.underTest 162 = false ∧ a.ans.rcount ≠ 0 ∧ a.ans.retAt (a.ans.rcount - 1) = lp ∧ (s.port lp).state = .off) ∧
  (
    let e : Nat := 255
    let s : State := idle busy
    s.Canonical ∧ s.reachable = true ∧ s.srst (nocPage + 0x1000) = false ∧ e < 256 ∧ s.run.state ≠ .run) ∧
  (
    let e : Nat := 255
    let s : State := busy
    s.Canonical ∧ s.reachable = true ∧ s.srst (nocPage + 0x1000) = false ∧ e < 256 ∧ s.run.state = .run) ∧
  (
    let s : State := { busy with bst := { Selftest.reset with slice := some 162 } }
    s.Canonical ∧ s.underTest 162 = true) :=
  ⟨⟨(State.canonical_of_check (by decide +kernel)), by decide +kernel⟩,
   ⟨(State.canonical_of_check (by decide +kernel)), by decide +kernel⟩,
   ⟨(State.canonical_of_check (by decide +kernel)), by decide +kernel⟩,
   ⟨(State.canonical_of_check (by decide +kernel)), by decide +kernel⟩,
   ⟨(State.canonical_of_check (by decide +kernel)), by decide +kernel⟩,
   ⟨(State.canonical_of_check (by decide +kernel)), by decide +kernel⟩,
   ⟨(State.canonical_of_check (by decide +kernel)), by decide +kernel⟩,
   ⟨(State.canonical_of_check (by decide +kernel)), by decide +kernel⟩,
   ⟨(State.canonical_of_check (by decide +kernel)), by decide +kernel⟩,
   ⟨(State.canonical_of_check (by decide +kernel)), by decide +kernel⟩⟩

/-! ## Witnesses: time and acquisition -/

theorem wit_SyncCells : (
    let lp : Nat := 2
    let d : Nat := 0
    let frame : Nat := 64
    let s : State := { timed (dm .track) (dm .lost) .followA with ports := busy.ports }
    s.Canonical ∧ lp < 16 ∧ d < 2 ∧ (s.port lp).state = .active ∧ frame % 64 = 32 * d) ∧
  (
    let lp : Nat := 2
    let d : Nat := 0
    let frame : Nat := 16
    let s : State := { timed (dm .track) (dm .lost) .followA with ports := busy.ports }
    s.Canonical ∧ lp < 16 ∧ d < 2 ∧ (s.port lp).state = .active ∧ frame % 64 = 32 * d + 16) ∧
  (
    let lp : Nat := 2
    let d : Nat := 0
    let c : QWord := mkCell (7 * 2 ^ 80 + 1234 * 2 ^ 40 + 0xFFFFFF)
    let s : State := { timed (dm .track) (dm .lost) .followA with ports := busy.ports }
    let y := (s.port lp).sync d
    let received : Prop := cellOk c = true ∧ bits c 125 125 = d
    s.Canonical ∧ lp < 16 ∧ d < 2 ∧ (s.port lp).state = .active ∧ received ∧ bits c 127 126 = 0 ∧ bits c 55 32 = 0xFFFFFF ∧ y.full = none) ∧
  (
    let lp : Nat := 2
    let d : Nat := 0
    let c : QWord := mkCell (7 * 2 ^ 80 + 1234 * 2 ^ 40 + 5 * 2 ^ 24 + 3)
    let e : Nat × Nat := (5, 1000)
    let s : State := withPort (timed (dm .track) (dm .lost) .followA) 2 { portIn .active with syncA := { PortSync.reset with sent := [(6, 2000), (5, 1000)] }, delays := [1, 2, 3, 4, 5, 6, 7] }
    let y := (s.port lp).sync d
    let received : Prop := cellOk c = true ∧ bits c 125 125 = d
    s.Canonical ∧ lp < 16 ∧ d < 2 ∧ (s.port lp).state = .active ∧ received ∧ bits c 127 126 = 0 ∧ bits c 55 32 ≠ 0xFFFFFF ∧ y.full = none ∧ y.sent.find? (fun q => q.1 = bits c 63 56) = some e) ∧
  (
    let lp : Nat := 2
    let d : Nat := 0
    let full : Nat := 1000000000
    let c : QWord := mkCell (2 ^ 92 + 7 * 2 ^ 80 + 1000000000 * 2 ^ 40 + 0xFFFFFF)
    let s : State := withPort (timed (dm .search) (dm .lost) .free) 2 { portIn .active with syncA := { PortSync.reset with full := some 1000000000 } }
    let y := (s.port lp).sync d
    let received : Prop := cellOk c = true ∧ bits c 125 125 = d
    s.Canonical ∧ lp < 16 ∧ d < 2 ∧ (s.port lp).state = .active ∧ received ∧ bits c 127 126 = 0 ∧ s.refAbsent = false ∧ bits c 55 32 = 0xFFFFFF ∧ y.full = some full ∧ s.domSource d = 1 ∧ (s.dom d).parent = some lp ∧ bit c 124 = true ∧ (s.dom d).state = .search) ∧
  (
    let lp : Nat := 2
    let d : Nat := 0
    let c : QWord := mkCell (2 ^ 94 + 2 ^ 92 + 3 * 2 ^ 88 + 9 * 2 ^ 80 + 8 * 2 ^ 72)
    let s : State := { timed (dm .track) (dm .lost) .followA with ports := busy.ports }
    let received : Prop := cellOk c = true ∧ bits c 125 125 = d
    s.Canonical ∧ lp < 16 ∧ d < 2 ∧ (s.port lp).state = .active ∧ received ∧ bits c 127 126 = 1) :=
  ⟨⟨(State.canonical_of_check (by decide +kernel)), by decide +kernel⟩,
   ⟨(State.canonical_of_check (by decide +kernel)), by decide +kernel⟩,
   ⟨(State.canonical_of_check (by decide +kernel)), by decide +kernel⟩,
   ⟨(State.canonical_of_check (by decide +kernel)), by decide +kernel⟩,
   ⟨(State.canonical_of_check (by decide +kernel)), by decide +kernel⟩,
   ⟨(State.canonical_of_check (by decide +kernel)), by decide +kernel⟩⟩

theorem wit_DomainsAndOutput : (
    let d : Nat := 0
    let s : State := timed (dm .locked) (dm .search) .followA
    let x := s.dom d
    s.Canonical ∧ d < 2 ∧ x.follows = true ∧ s.domSource d ≠ 3 ∧ s.lossNs d ≤ x.sinceNs) ∧
  (
    let d : Nat := 0
    let s : State := timed (dm .locked) (dm .search) .followA
    s.Canonical ∧ d < 2 ∧ s.followed = some d) ∧
  (
    let d : Nat := 0
    let s : State := timed (dm .locked) (dm .locked) .followB
    s.Canonical ∧ d < 2 ∧ s.followed = some (1 - s.pref) ∧ s.revertNs ≠ 0 ∧ (s.dom s.pref).state = .locked ∧ s.revertNs ≤ (s.dom s.pref).lockedNs) ∧
  (
    let d : Nat := 0
    let s : State := timed (dm .locked) (dm .search) .followA
    s.Canonical ∧ d < 2 ∧ s.tim.ref = true) ∧
  (
    let d : Nat := 0
    let val : Word := 1
    let s : State := idle (timed (dm .locked) (dm .search) .free)
    s.Canonical ∧ d < 2 ∧ s.reachable = true ∧ s.srst timPage = false ∧ bit val 0 = true ∧ bits val 3 2 = 0 ∧ s.tim.outState = .free ∧ s.run.state ≠ .run) ∧
  (
    let d : Nat := 0
    let val : Word := 1
    let s : State := timed (dm .locked) (dm .search) .followA
    s.Canonical ∧ d < 2 ∧ s.reachable = true ∧ s.srst timPage = false ∧ bit val 0 = true ∧ bits val 3 2 = 0 ∧ s.tim.outState ≠ .free) ∧
  (
    let d : Nat := 1
    let val : Word := 9
    let s : State := timed (dm .locked) (dm .search) .followA
    s.Canonical ∧ d < 2 ∧ s.reachable = true ∧ s.srst timPage = false ∧ bit val 0 = true ∧ bits val 3 2 = d + 1 ∧ s.domSource d = 2) ∧
  (
    let d : Nat := 0
    let val : Word := 5
    let s : State := sourced synced 0xC000800A 0x8000800A
    s.Canonical ∧ d < 2 ∧ s.reachable = true ∧ s.srst timPage = false ∧ bit val 0 = true ∧ bits val 3 2 = d + 1 ∧ s.refAbsent = false ∧ s.domSource d = 3 ∧ bit val 1 = false) ∧
  (
    let d : Nat := 0
    let val : Word := 5
    let s : State := timed (dm .locked) (dm .search) .followA
    s.Canonical ∧ d < 2 ∧ s.reachable = true ∧ s.srst timPage = false ∧ bit val 0 = true ∧ bits val 3 2 = d + 1 ∧ s.domSource d < 2) ∧
  (
    let d : Nat := 0
    let val : Word := 0x10
    let s : State := idle (timed (dm .track) (dm .search) .followA)
    s.Canonical ∧ d < 2 ∧ s.reachable = true ∧ s.srst timPage = false ∧ bit val 4 = true ∧ s.run.state ≠ .run ∧ s.lockedDom = none) ∧
  (
    let d : Nat := 0
    let val : Word := 0x10
    let s : State := idle (timed (dm .locked) (dm .search) .holdover)
    s.Canonical ∧ d < 2 ∧ s.reachable = true ∧ s.srst timPage = false ∧ bit val 4 = true ∧ s.run.state ≠ .run ∧ s.lockedDom = some d) ∧
  (
    let d : Nat := 0
    let val : Word := 0x10
    let s : State := timed (dm .locked) (dm .search) .followA
    s.Canonical ∧ d < 2 ∧ s.reachable = true ∧ s.srst timPage = false ∧ bit val 4 = true ∧ s.run.state = .run) ∧
  (
    let d : Nat := 0
    let val : Word := 0xC0001205
    let s : State := timed (dm .locked) (dm .search) .followA
    s.Canonical ∧ d < 2 ∧ s.reachable = true ∧ s.srst timPage = false ∧ s.refAbsent = false ∧ bits val 31 30 = 3 ∧ s.domSource d ≠ 3) ∧
  (
    let d : Nat := 0
    let val : Word := 0x40000000
    let s : State := withTim (timed (dm .off) (dm .off) .free) fun t => { t with ref := false }
    s.Canonical ∧ d < 2 ∧ s.reachable = true ∧ s.srst timPage = false ∧ s.refAbsent = true ∧ bits val 31 30 ≠ 0) ∧
  (
    let d : Nat := 0
    let s : State := withTim (sourced (timed (dm .locked) (dm .search) .followA) 0xC000800A 0x800B) fun t => { t with domA := { t.domA with setPending := true } }
    s.Canonical ∧ d < 2 ∧ s.refAbsent = false ∧ s.tim.domA.setPending = true ∧ s.domSource 0 = 3 ∧ s.tim.domB.setPending = false ∧ s.domSource 1 ≠ 2) ∧
  (
    let d : Nat := 0
    let s : State := sourced (timed (dm .search) (dm .search) .free) 0x8000800A 0x800B
    s.Canonical ∧ d < 2 ∧ s.tim.domA.setPending = false ∧ s.domSource 0 = 2 ∧ s.tim.domA.state = .search ∧ s.tim.domB.setPending = false ∧ s.domSource 1 ≠ 2 ∧ s.tim.captures = [] ∧ bit (s.rd .timCapCfg) 10 = true ∧ s.pageEn (timPage + 0x2000) = true) :=
  ⟨⟨(State.canonical_of_check (by decide +kernel)), by decide +kernel⟩,
   ⟨(State.canonical_of_check (by decide +kernel)), by decide +kernel⟩,
   ⟨(State.canonical_of_check (by decide +kernel)), by decide +kernel⟩,
   ⟨(State.canonical_of_check (by decide +kernel)), by decide +kernel⟩,
   ⟨(State.canonical_of_check (by decide +kernel)), by decide +kernel⟩,
   ⟨(State.canonical_of_check (by decide +kernel)), by decide +kernel⟩,
   ⟨(State.canonical_of_check (by decide +kernel)), by decide +kernel⟩,
   ⟨(State.canonical_of_check (by decide +kernel)), by decide +kernel⟩,
   ⟨(State.canonical_of_check (by decide +kernel)), by decide +kernel⟩,
   ⟨(State.canonical_of_check (by decide +kernel)), by decide +kernel⟩,
   ⟨(State.canonical_of_check (by decide +kernel)), by decide +kernel⟩,
   ⟨(State.canonical_of_check (by decide +kernel)), by decide +kernel⟩,
   ⟨(State.canonical_of_check (by decide +kernel)), by decide +kernel⟩,
   ⟨(State.canonical_of_check (by decide +kernel)), by decide +kernel⟩,
   ⟨(State.canonical_of_check (by decide +kernel)), by decide +kernel⟩,
   ⟨(State.canonical_of_check (by decide +kernel)), by decide +kernel⟩⟩

theorem wit_TriggersAndCaptures : (
    let line : Nat := 3
    let s : State := synced
    let page := timPage + 0x1000
    s.Canonical ∧ line < 8 ∧ s.reachable = true ∧ s.srst page = false ∧ s.trgOn = true ∧ s.trgSynced = true) ∧
  (
    let line : Nat := 3
    let lines : BitVec 8 := 0x8A
    let s : State := timed (dm .track) (dm .search) .free
    let page := timPage + 0x1000
    s.Canonical ∧ line < 8 ∧ s.reachable = true ∧ s.srst page = false ∧ s.trgOn = true ∧ s.trgSynced = false ∧ lines ≠ 0) ∧
  (
    let line : Nat := 3
    let slot : Nat := 1000
    let s : State := synced
    s.Canonical ∧ line < 8 ∧ s.trgOn = true ∧ s.native line = true ∧ s.trgSynced = true ∧ (line, slot) ∉ s.tim.events ∧ ns5 (10 * slot + 5) + steps5 (s.trgDelay line) ≤ s.out5) ∧
  (
    let line : Nat := 3
    let slot : Nat := 1000
    let s : State := evented 1
    s.Canonical ∧ line < 8 ∧ (line, slot) ∈ s.tim.events ∧ ns5 (10 * slot + s.trgLat) ≤ s.out5) ∧
  (
    let line : Nat := 3
    let slot : Nat := 1000
    let s : State := evented 1
    s.Canonical ∧ line < 8 ∧ (line, slot) ∈ s.tim.events ∧ ns5 (10 * slot + s.trgLat) ≤ s.out5 ∧ s.rd .timTrgAct line = 1 ∧ bit (s.rd .timCapCfg) line = true ∧ s.pageEn (timPage + 0x2000) = true ∧ s.tim.captures = []) ∧
  (
    let line : Nat := 3
    let slot : Nat := 1000
    let s : State := evented 4
    s.Canonical ∧ line < 8 ∧ (line, slot) ∈ s.tim.events ∧ ns5 (10 * slot + s.trgLat) ≤ s.out5 ∧ s.rd .timTrgAct line = 4 ∧ s.run.state = .run) ∧
  (
    let line : Nat := 3
    let s : State := busy
    let page := timPage + 0x1000
    s.Canonical ∧ line < 8 ∧ s.reachable = true ∧ s.srst page = false ∧ s.trgOn = true ∧ bit (s.rd .timTrgCfg) (16 + line) = false) ∧
  (
    let line : Nat := 3
    let s : State := synced
    let page := timPage + 0x1000
    s.Canonical ∧ line < 8 ∧ s.reachable = true ∧ s.srst page = false ∧ s.trgOn = true ∧ bit (s.rd .timTrgCfg) (16 + line) = true) ∧
  (
    let line : Nat := 3
    let ps : Nat := 400000
    let s : State := withTim busy fun t => { t with cal := some 3 }
    s.Canonical ∧ line < 8 ∧ s.tim.cal = some line ∧ ps - 50 * s.trgHub ≤ 400000) ∧
  (
    let line : Nat := 3
    let s : State := withTim busy fun t => { t with cal := some 3 }
    s.Canonical ∧ line < 8 ∧ s.tim.cal = some line) ∧
  (
    let line : Nat := 3
    let s : State := put synced [(timPage + 0x1004, 0)]
    s.Canonical ∧ line < 8 ∧ s.trgOn = false) ∧
  (
    let w : Nat := 500
    let s : State := vl2 .idle
    s.Canonical ∧ s.vl2On = true ∧ 500 ≤ w ∧ w ≤ 2000) ∧
  (
    let w : Nat := 499
    let s : State := vl2 .idle
    s.Canonical ∧ s.vl2On = true ∧ (w < 500 ∨ 2000 < w) ∧ w < 3000) ∧
  (
    let w : Nat := 3000
    let s : State := vl2 .armed
    s.Canonical ∧ s.vl2On = true ∧ 3000 ≤ w ∧ s.tim.vl2 = .armed) ∧
  (
    let w : Nat := 3000
    let s : State := vl2 .fired
    s.Canonical ∧ s.vl2On = true ∧ 3000 ≤ w ∧ s.tim.vl2 = .fired) ∧
  (
    let n : Nat := 10000
    let s : State := withTim (put (vl2 .fired) [(Reg.addr .timVl2, 0xC0000000)]) fun t => { t with vl2FallNs := some 10000 }
    s.Canonical ∧ s.vl2On = true ∧ s.tim.vl2FallNs = some n ∧ 10000 ≤ n ∧ bit (s.rd .timVl2) 31 = true ∧ bit (s.rd .timVl2) 30 = true) ∧
  (
    let val : Word := 0x80000001
    let s : State := vl2 .idle
    let page := timPage + 0x1000
    s.Canonical ∧ s.reachable = true ∧ s.srst page = false ∧ bit val 0 = true ∧ bit val 31 = true ∧ s.vl2On = true) ∧
  (
    let val : Word := 4
    let s : State := vl2 .armed
    let page := timPage + 0x1000
    s.Canonical ∧ s.reachable = true ∧ s.srst page = false ∧ bit val 2 = true ∧ s.vl2On = true ∧ s.tim.vl2 = .armed) ∧
  (
    let val : Word := 0xC0000004
    let s : State := vl2 .idle
    let page := timPage + 0x1000
    s.Canonical ∧ s.reachable = true ∧ s.srst page = false ∧ bit val 2 = true ∧ s.tim.vl2 ≠ .armed) ∧
  (
    let val : Word := 2
    let s : State := vl2 .armed
    let page := timPage + 0x1000
    s.Canonical ∧ s.reachable = true ∧ s.srst page = false ∧ bit val 1 = true) ∧
  (
    let c : Capture := ⟨99, 2, 0x1122334455667788, 0xFFFF⟩
    let rest : List Capture := [⟨99, 3, 5, 6⟩]
    let s : State := withTim synced fun t => { t with captures := [⟨99, 2, 0x1122334455667788, 0xFFFF⟩, ⟨99, 3, 5, 6⟩] }
    s.Canonical ∧ s.reachable = true ∧ s.tim.captures = c :: rest) ∧
  (
    let s : State := synced
    s.Canonical ∧ s.reachable = true ∧ s.tim.captures = []) ∧
  (
    let s : State := synced
    s.Canonical ∧ s.reachable = true) :=
  ⟨⟨(State.canonical_of_check (by decide +kernel)), by decide +kernel⟩,
   ⟨(State.canonical_of_check (by decide +kernel)), by decide +kernel⟩,
   ⟨(State.canonical_of_check (by decide +kernel)), by decide +kernel⟩,
   ⟨(State.canonical_of_check (by decide +kernel)), by decide +kernel⟩,
   ⟨(State.canonical_of_check (by decide +kernel)), by decide +kernel⟩,
   ⟨(State.canonical_of_check (by decide +kernel)), by decide +kernel⟩,
   ⟨(State.canonical_of_check (by decide +kernel)), by decide +kernel⟩,
   ⟨(State.canonical_of_check (by decide +kernel)), by decide +kernel⟩,
   ⟨(State.canonical_of_check (by decide +kernel)), by decide +kernel⟩,
   ⟨(State.canonical_of_check (by decide +kernel)), by decide +kernel⟩,
   ⟨(State.canonical_of_check (by decide +kernel)), by decide +kernel⟩,
   ⟨(State.canonical_of_check (by decide +kernel)), by decide +kernel⟩,
   ⟨(State.canonical_of_check (by decide +kernel)), by decide +kernel⟩,
   ⟨(State.canonical_of_check (by decide +kernel)), by decide +kernel⟩,
   ⟨(State.canonical_of_check (by decide +kernel)), by decide +kernel⟩,
   ⟨(State.canonical_of_check (by decide +kernel)), by decide +kernel⟩,
   ⟨(State.canonical_of_check (by decide +kernel)), by decide +kernel⟩,
   ⟨(State.canonical_of_check (by decide +kernel)), by decide +kernel⟩,
   ⟨(State.canonical_of_check (by decide +kernel)), by decide +kernel⟩,
   ⟨(State.canonical_of_check (by decide +kernel)), by decide +kernel⟩,
   ⟨(State.canonical_of_check (by decide +kernel)), by decide +kernel⟩,
   ⟨(State.canonical_of_check (by decide +kernel)), by decide +kernel⟩,
   ⟨(State.canonical_of_check (by decide +kernel)), by decide +kernel⟩⟩

theorem wit_AcquisitionRuns : (
    let val : Word := 1
    let s : State := acqs .idle 0 []
    let a := s.acq
    s.Canonical ∧ s.reachable = true ∧ s.srst acqPage = false ∧ bit val 0 = true ∧ s.pageEn acqPage = true ∧ a.state = .idle ∧ s.ldr.inService = true ∧ s.acqBanks ≠ []) ∧
  (
    let val : Word := 1
    let s : State := acqs .live 0 []
    let a := s.acq
    s.Canonical ∧ s.reachable = true ∧ s.srst acqPage = false ∧ bit val 0 = true ∧ s.pageEn acqPage = true ∧ (a.state ≠ .idle ∨ s.ldr.inService = false ∨ s.acqBanks = [])) ∧
  (
    let val : Word := 2
    let s : State := acqs .idle 0 []
    let a := s.acq
    s.Canonical ∧ s.reachable = true ∧ s.srst acqPage = false ∧ bit val 1 = true ∧ a.state = .idle) ∧
  (
    let val : Word := 2
    let s : State := put (acqs .live 0 []) [(Reg.addr .acqCtrl, 0x89000000)]
    let a := s.acq
    s.Canonical ∧ s.reachable = true ∧ s.srst acqPage = false ∧ bit val 1 = true ∧ a.state ≠ .idle ∧ bit (s.rd .acqCtrl) 25 = false) ∧
  (
    let s : State := put (acqs .idle 0 []) [(Reg.addr .acqCtrl, 0x89000000)]
    s.Canonical ∧ s.reachable = true ∧ s.srst acqPage = false ∧ bit (s.rd .acqCtrl) 25 = false) ∧
  (
    let val : Word := 5
    let s : State := acqs .live 0 []
    let a := s.acq
    s.Canonical ∧ s.reachable = true ∧ s.srst acqPage = false ∧ bit (s.rd .acqCtrl) 25 = true ∧ a.state ≠ .idle ∧ a.blocks ≠ [] ∧ s.acqItems 0x30 = false ∧ s.internalUsed < 480 ∧ (s.fld .acqSpillDev 23 0 + 1) % 2 ^ s.spillLog2 ≠ bits val 23 0 % 2 ^ s.spillLog2) ∧
  (
    let e : Sample := ⟨41, 2 ^ 41, [], false⟩
    let rest : List Sample := [⟨42, 2 ^ 42, [], false⟩]
    let s : State := acqs .live 0x00086000 []
    let a := s.acq
    let held := s.tuConds e.batch (e.ext.map fun x => x.1)
    s.Canonical ∧ a.state = .live ∧ a.sampled = e :: rest ∧ a.firstEval.isSome = true ∧ (s.isHalted = false ∨ a.seg = none) ∧ held = []) ∧
  (
    let e : Sample := ⟨41, 2 ^ 41, [(0, 5)], false⟩
    let rest : List Sample := [⟨42, 2 ^ 42, [], false⟩]
    let s : State := acqs .live 0x00085000 [(0, 5)]
    let a := s.acq
    let held := s.tuConds e.batch (e.ext.map fun x => x.1)
    let outs := held.filter fun u =>
      max 1 (s.fld .acqTuCfg 15 0 u) ≤ min 0xFFFFFFFF ((s.rd .acqTuCount u).toNat + 1)
    let b0 := s.rd .acqSeqBr0 a.seq
    s.Canonical ∧ a.state = .live ∧ a.sampled = e :: rest ∧ a.firstEval.isSome = true ∧ (s.isHalted = false ∨ a.seg = none) ∧ branchHolds b0 outs = true ∧ bits b0 11 0 = 0) ∧
  (
    let e : Sample := ⟨41, 2 ^ 41, [(0, 5)], false⟩
    let rest : List Sample := [⟨42, 2 ^ 42, [], false⟩]
    let s : State := acqs .live 0x00085800 [(0, 5)]
    let a := s.acq
    let q := s.fld .acqSegCfg 15 0
    let held := s.tuConds e.batch (e.ext.map fun x => x.1)
    let outs := held.filter fun u =>
      max 1 (s.fld .acqTuCfg 15 0 u) ≤ min 0xFFFFFFFF ((s.rd .acqTuCount u).toNat + 1)
    let b0 := s.rd .acqSeqBr0 a.seq
    s.Canonical ∧ a.state = .live ∧ a.sampled = e :: rest ∧ a.firstEval.isSome = true ∧ (s.isHalted = false ∨ a.seg = none) ∧ branchHolds b0 outs = true ∧ bits b0 11 0 = 0x800 ∧ 0 < q) ∧
  (
    let e : Sample := ⟨41, 2 ^ 41, [(0, 5)], false⟩
    let rest : List Sample := [⟨42, 2 ^ 42, [], false⟩]
    let s : State := acqs .live 0x00085200 [(0, 5)]
    let a := s.acq
    let held := s.tuConds e.batch (e.ext.map fun x => x.1)
    let outs := held.filter fun u =>
      max 1 (s.fld .acqTuCfg 15 0 u) ≤ min 0xFFFFFFFF ((s.rd .acqTuCount u).toNat + 1)
    let b0 := s.rd .acqSeqBr0 a.seq
    s.Canonical ∧ a.state = .live ∧ a.sampled = e :: rest ∧ a.firstEval.isSome = true ∧ (s.isHalted = false ∨ a.seg = none) ∧ branchHolds b0 outs = true ∧ bits b0 11 0 = 0x200 ∧ s.run.state = .run ∧ s.run.inBatch = true) ∧
  (
    let e : Sample := ⟨41, 2 ^ 41, [(0, 5)], false⟩
    let rest : List Sample := [⟨42, 2 ^ 42, [], false⟩]
    let g : Segment := ⟨40, 38, 40, 2 ^ 40, 0, [], [], [], [], []⟩
    let s : State := acqs .window 0 [(0, 5)]
    let a := s.acq
    let q := s.fld .acqSegCfg 15 0
    s.Canonical ∧ a.state = .window ∧ a.sampled = e :: rest ∧ a.seg = some g ∧ e.batch.toNat < g.trigger.toNat + q) ∧
  (
    let e : Sample := ⟨41, 2 ^ 41, [(0, 5)], false⟩
    let rest : List Sample := [⟨42, 2 ^ 42, [], false⟩]
    let g : Segment := ⟨40, 38, 40, 2 ^ 40, 0, [], [], [], [], []⟩
    let s : State := put (acqs .window 0 [(0, 5)]) [(Reg.addr .acqSegCfg, 1)]
    let a := s.acq
    let q := s.fld .acqSegCfg 15 0
    s.Canonical ∧ a.state = .window ∧ a.sampled = e :: rest ∧ a.seg = some g ∧ g.trigger.toNat + q ≤ e.batch.toNat) ∧
  (
    let d : DirEntry := aDir
    let s : State := acqs .rearm 0 []
    let a := s.acq
    s.Canonical ∧ a.state = .rearm ∧ s.isHalted = false ∧ a.dirs.find? (fun f => f.segment = a.segment) = some d ∧ a.closed < s.segMax) :=
  ⟨⟨(State.canonical_of_check (by decide +kernel)), by decide +kernel⟩,
   ⟨(State.canonical_of_check (by decide +kernel)), by decide +kernel⟩,
   ⟨(State.canonical_of_check (by decide +kernel)), by decide +kernel⟩,
   ⟨(State.canonical_of_check (by decide +kernel)), by decide +kernel⟩,
   ⟨(State.canonical_of_check (by decide +kernel)), by decide +kernel⟩,
   ⟨(State.canonical_of_check (by decide +kernel)), by decide +kernel⟩,
   ⟨(State.canonical_of_check (by decide +kernel)), by decide +kernel⟩,
   ⟨(State.canonical_of_check (by decide +kernel)), by decide +kernel⟩,
   ⟨(State.canonical_of_check (by decide +kernel)), by decide +kernel⟩,
   ⟨(State.canonical_of_check (by decide +kernel)), by decide +kernel⟩,
   ⟨(State.canonical_of_check (by decide +kernel)), by decide +kernel⟩,
   ⟨(State.canonical_of_check (by decide +kernel)), by decide +kernel⟩,
   ⟨(State.canonical_of_check (by decide +kernel)), by decide +kernel⟩⟩

end Sys2Proof.Tests
end

section
/-! ## Tables and tiles -/

namespace Sys2Proof.Machine

/-- Storing what a canonical table reads changes nothing. -/
theorem Table.set_get_from {α : Type} [DecidableEq α] {d : Nat → α} {k : Nat} :
    ∀ {m : Table α} {lo : Nat}, Table.wfFrom d lo m = true → Table.set d m k (Table.get d m k) = m
  | [], _, _ => by simp [Table.set]
  | (a, x) :: rest, _, w => by
    simp only [Table.wfFrom, Bool.and_eq_true, decide_eq_true_eq] at w
    by_cases e : k = a
    · subst e; simp [Table.set, Table.get, w.1.2]
    · by_cases l : k < a
      · simp [Table.set, Table.get, e, l]
      · simp [Table.set, Table.get, e, l, Table.set_get_from w.2]

/-- The tiles stand in canonical form. -/
def State.TilesWf (s : State) : Prop := Table.wf (fun _ => Tile.reset) s.tiles = true

/-- Storing a tile as it is changes nothing. -/
theorem State.setTile_tile {s : State} (w : s.TilesWf) (t : Nat) : s.setTile t (s.tile t) = s := by
  simp only [State.setTile, State.tile, Table.set_get_from w]

theorem State.setTile_only (s : State) (t : Nat) (x : Tile) : Only [.tiles] s (s.setTile t x) :=
  ⟨rfl, fun p hp => by cases p <;> first | rfl | simp at hp⟩

/-- What one step of a fold leaves alone, the fold leaves alone. -/
theorem Only.foldl {α : Type} {l : List Part} {F : State → α → State} (step : ∀ s a, Only l s (F s a)) :
    ∀ (as : List α) (s : State), Only l s (as.foldl F s)
  | [], s => Only.refl l s
  | a :: as, s => (step s a).trans (Only.foldl step as (F s a))

/-- The tiles of l change as R says, and no other tile changes; the tiles stand in canonical form. -/
structure MapsTiles (l : List Nat) (R : Tile → Tile → Prop) (s r : State) : Prop where
  wf : r.TilesWf
  on : ∀ u ∈ l, R (s.tile u) (r.tile u)
  off : ∀ u, u ∉ l → r.tile u = s.tile u

theorem MapsTiles.mono {l : List Nat} {R Q : Tile → Tile → Prop} {s r : State} (a : MapsTiles l R s r)
    (h : ∀ x y, R x y → Q x y) : MapsTiles l Q s r := ⟨a.wf, fun u hu => h _ _ (a.on u hu), a.off⟩

/-- One change of some tiles after another. -/
theorem MapsTiles.trans {l : List Nat} {R Q : Tile → Tile → Prop} {s t r : State} (a : MapsTiles l R s t)
    (b : MapsTiles l Q t r) : MapsTiles l (Relation.Comp R Q) s r :=
  ⟨b.wf, fun u hu => ⟨t.tile u, a.on u hu, b.on u hu⟩, fun u hu => (b.off u hu).trans (a.off u hu)⟩

/-- A change of other parts before or after one of tiles. -/
theorem MapsTiles.of_tiles {l : List Nat} {R : Tile → Tile → Prop} {s t r q : State} (a : MapsTiles l R s t)
    (before : q.tiles = s.tiles) (after : r.tiles = t.tiles) : MapsTiles l R q r := by
  refine ⟨?_, fun u hu => ?_, fun u hu => ?_⟩
  · rw [State.TilesWf, after]; exact a.wf
  · rw [State.tile_congr after, State.tile_congr before]; exact a.on u hu
  · rw [State.tile_congr after, State.tile_congr before]; exact a.off u hu

/-- A fold over distinct tiles changes each of them once. -/
theorem MapsTiles.foldl {F : State → Nat → State} {R : Tile → Tile → Prop}
    (step : ∀ s t, s.TilesWf → MapsTiles [t] R s (F s t)) :
    ∀ {l : List Nat} {s : State}, l.Nodup → s.TilesWf → MapsTiles l R s (l.foldl F s)
  | [], s, _, w => ⟨w, fun u hu => absurd hu List.not_mem_nil, fun u _ => rfl⟩
  | t :: l, s, nd, w => by
    obtain ⟨ht, hl⟩ := List.nodup_cons.mp nd
    have first := step s t w
    have rest := MapsTiles.foldl step hl first.wf
    refine ⟨rest.wf, fun u hu => ?_, fun u hu => ?_⟩
    · rcases List.mem_cons.mp hu with rfl | h
      · rw [List.foldl_cons, rest.off u ht]
        exact first.on u (List.mem_singleton_self u)
      · rw [← first.off u fun e => ht (List.mem_singleton.mp e ▸ h)]
        exact rest.on u h
    · rw [List.mem_cons, not_or] at hu
      rw [List.foldl_cons, rest.off u hu.2, first.off u fun e => hu.1 (List.mem_singleton.mp e)]

/-- A tile stored. -/
theorem State.setTile_maps {s : State} (w : s.TilesWf) (t : Nat) {x : Tile} {R : Tile → Tile → Prop}
    (h : R (s.tile t) x) : MapsTiles [t] R s (s.setTile t x) := by
  refine ⟨State.wf_setTile w, fun u hu => ?_, fun u hu => ?_⟩
  · obtain rfl := List.mem_singleton.mp hu
    rw [State.tile_setTile w, if_pos rfl]
    exact h
  · rw [State.tile_setTile w, if_neg fun e => hu (List.mem_singleton.mpr e)]

theorem State.mem_mapped {s : State} {t : Nat} : t ∈ s.mapped ↔ t < 136 ∧ (s.tile t).vtile.isSome = true := by
  simp [State.mapped, numTiles]

theorem State.mapped_nodup (s : State) : s.mapped.Nodup := List.Nodup.filter _ List.nodup_range

/-- Every mapped tile changed by f. -/
def State.mapMapped (s : State) (f : Tile → Tile) : State := s.mapTiles fun x => if x.vtile.isSome then f x else x

theorem State.mapMapped_only (s : State) (f : Tile → Tile) : Only [.tiles] s (s.mapMapped f) :=
  Only.foldl (fun s t => State.setTile_only s t _) _ s

theorem State.mapMapped_maps {s : State} (w : s.TilesWf) (f : Tile → Tile) :
    MapsTiles s.mapped (fun x y => y = f x) s (s.mapMapped f) := by
  have all := MapsTiles.foldl (R := fun x y => y = if x.vtile.isSome then f x else x)
    (fun s t w => State.setTile_maps w t rfl) (List.nodup_range (n := numTiles)) w
  refine ⟨all.wf, fun u hu => ?_, fun u hu => ?_⟩
  · obtain ⟨lt, serves⟩ := State.mem_mapped.mp hu
    exact (all.on u (List.mem_range.mpr lt)).trans (if_pos serves)
  · by_cases lt : u < 136
    · exact (all.on u (List.mem_range.mpr lt)).trans (if_neg fun serves => hu (State.mem_mapped.mpr ⟨lt, serves⟩))
    · exact all.off u fun h => lt (List.mem_range.mp h)

/-- The same tiles are mapped in states whose tiles serve the same virtual tiles. -/
theorem State.mapped_congr {s r : State} (h : ∀ u, (r.tile u).vtile = (s.tile u).vtile) : r.mapped = s.mapped := by
  simp only [State.mapped, h]

/-- What R leaves alone in a tile is as it was in every tile. -/
theorem MapsTiles.field {α : Type} {l : List Nat} {R : Tile → Tile → Prop} {s r : State} (a : MapsTiles l R s r)
    (f : Tile → α) (keeps : ∀ x y, R x y → f y = f x) (u : Nat) : f (r.tile u) = f (s.tile u) := by
  by_cases h : u ∈ l
  · exact keeps _ _ (a.on u h)
  · rw [a.off u h]

/-- A change that leaves alone what each tile serves maps the same tiles. -/
theorem MapsTiles.mapped_eq {l : List Nat} {R : Tile → Tile → Prop} {s r : State} (a : MapsTiles l R s r)
    (keeps : ∀ x y, R x y → y.vtile = x.vtile) : r.mapped = s.mapped :=
  State.mapped_congr (a.field Tile.vtile keeps)

end Sys2Proof.Machine
end

section
/-! ## Errors, causes and counters -/

namespace Sys2Proof.Machine

/-- A part replaced: no other part changes. -/
theorem Only.led (s : State) (x : Ledger) : Only [.led] s { s with led := x } :=
  ⟨rfl, fun p hp => by cases p <;> simp_all [Part.same]⟩
theorem Only.tim (s : State) (x : TimeKeeper) : Only [.tim] s { s with tim := x } :=
  ⟨rfl, fun p hp => by cases p <;> simp_all [Part.same]⟩
theorem Only.run (s : State) (x : RunCtl) : Only [.run] s { s with run := x } :=
  ⟨rfl, fun p hp => by cases p <;> simp_all [Part.same]⟩

/-- An error recorded leaves the COUNT of its page above 0. -/
theorem State.err_count_pos {s : State} (w : Table.wf regInit s.regs = true) (page info : Nat) {code : Nat}
    (hc : code < 2 ^ 16) : 0 < bits ((s.err page code info).reg (page + 0x18)) 31 16 := by
  by_cases h : bits (s.reg (page + 0x18)) 31 16 = 0
  · rw [(State.err_first w code info h).1]
    simp only [bits, BitVec.extractLsb'_toNat, BitVec.toNat_ofNat, Nat.shiftRight_eq_div_pow]
    omega
  · unfold State.err
    simp only [h, if_false]
    rw [State.cause, State.reg_raise (State.wf_setReg w), if_neg (by omega), State.reg_setReg w, if_pos rfl]
    simp only [bits, BitVec.extractLsb'_toNat, BitVec.toNat_ofNat, Nat.shiftRight_eq_div_pow, satAdd] at h ⊢
    omega

theorem bit_flagAt {i : Nat} (h : i < 32) : bit (flagAt true i) i = true := by
  simp only [bit, flagAt, b2n, if_true, Nat.one_mul, BitVec.getLsbD_ofNat, h, decide_true, Bool.true_and,
    Nat.testBit_two_pow_self]

/-- A cause raised stands in PG_INT_STAT. -/
theorem State.bit_cause {s : State} (w : Table.wf regInit s.regs = true) (page : Nat) {i : Nat} (h : i < 32) :
    bit ((s.cause page i).reg (page + 0xC)) i = true := by
  rw [State.cause, State.reg_raise w, if_pos rfl, bit, BitVec.getLsbD_or]
  simp [show (flagAt true i).getLsbD i = true from bit_flagAt h]

/-- A counter register that saturates at its width reads back grown. -/
theorem State.rd_countReg {s : State} (w : Table.wf regInit s.regs = true) (r : Reg) (n i j : Nat) :
    ((s.countReg r 0xFFFFFFFF n i j).rd r i j).toNat = min 0xFFFFFFFF ((s.rd r i j).toNat + n) := by
  rw [State.countReg, State.rd_wr w, BitVec.toNat_ofNat, satAdd]
  omega

theorem State.countReg_only (s : State) (r : Reg) (m n i j : Nat) : Only [.regs] s (s.countReg r m n i j) :=
  State.setReg_only _ _ _

theorem State.countReg_regsBut {s : State} (w : Table.wf regInit s.regs = true) (r : Reg) (m n i j : Nat) :
    RegsBut [r.addr i j] s (s.countReg r m n i j) := State.setReg_regsBut w _ _

/-- An alert raised stands in GLB_ALERT. -/
theorem State.bit_alert {s : State} (w : Table.wf regInit s.regs = true) {i : Nat} (h : i < 32) :
    bit ((s.alert i true).rd .glbAlert) i = true := by
  rw [State.alert, State.setFld, State.rd_wr w]
  have m : i + 1 - i = 1 := by omega
  simp only [setBits, b2n, bit, m, if_true, Nat.pow_one, Nat.add_one_sub_one, Nat.one_mul, BitVec.getLsbD_or,
    BitVec.getLsbD_and, BitVec.getLsbD_ofNat, h, decide_true, Bool.true_and, Nat.testBit_two_pow_self, Bool.or_true]

/-! ## A start that the ledger holds (R254, R257) -/

/-- A start given up leaves its slot, and nothing else. -/
theorem State.leaveSlot_eq (s : State) :
    s.leaveSlot = { s with tim := if s.paced then { s.tim with slot := none } else s.tim } := by
  unfold State.leaveSlot
  split <;> rfl

/-- The first start that the ledger holds is counted. -/
theorem State.holdStart_eq {s : State} (h : s.led.holdNs = none) :
    s.holdStart = ({ s.leaveSlot with led := { s.led with holdNs := some 0, starved := false } } : State).countReg
      .pwrPaceHolds 0xFFFFFFFF 1 := by
  simp only [State.holdStart, State.leaveSlot_eq, h, Option.isSome_none, Bool.false_eq_true, if_false]

end Sys2Proof.Machine
end

section
namespace Sys2Proof.Machine

/-- The batch start of a state whose start the ledger holds. -/
theorem execBatchStart_held {s : State} (ready : s.startReady = true) (allowed : s.startAllowed = true)
    (uncovered : s.covered = false) : exec .batchStart s = .next s.holdStart := by
  show execBatchStart s = _
  simp only [execBatchStart, ready, allowed, uncovered, Bool.and_self, if_true, Bool.false_eq_true, if_false]

/-- What a start that the ledger holds does, the first time. -/
theorem State.holdStart_spec {s : State} (w : Table.wf regInit s.regs = true) (h : s.led.holdNs = none) :
    s.holdStart.led = { s.led with holdNs := some 0, starved := false } ∧
    (s.holdStart.rd .pwrPaceHolds).toNat = min 0xFFFFFFFF ((s.rd .pwrPaceHolds).toNat + 1) ∧
    RegsBut [Reg.addr .pwrPaceHolds] s s.holdStart ∧ Only [.led, .regs, .tim] s s.holdStart ∧
    s.holdStart.tim = (if s.paced then { s.tim with slot := none } else s.tim) := by
  rw [State.holdStart_eq h, State.leaveSlot_eq]
  refine ⟨rfl, State.rd_countReg w _ _ _ _, State.countReg_regsBut w _ _ _ _ _, ?_, rfl⟩
  exact (((Only.tim s _).mono (by simp)).trans ((Only.led _ _).mono (by simp))).trans
    ((State.countReg_only _ _ _ _ _ _).mono (by simp))

/-- PACE_STARVED where it is due. -/
theorem execPaceStarved_due {s : State} {ns : Nat} (held : s.heldNow = true) (hold : s.led.holdNs = some ns)
    (fresh : s.led.starved = false) (limit : s.fld .pwrStarveLimit 15 0 ≠ 0)
    (passed : s.fld .pwrStarveLimit 15 0 * 1000 < ns) :
    exec .paceStarved s = .next (((({ s with led := { s.led with starved := true } } : State).err pwrPage 0xA001
      (lo32 s.nextBatch).toNat).cause pwrPage 3).alert 3 true) := by
  show execPaceStarved s = _
  simp only [execPaceStarved, hold, whenDue, held, fresh, limit, passed, ne_eq, not_false_eq_true, decide_true,
    Bool.not_false, Bool.and_self, if_true]

/-- A starved start recorded: error, cause and alert. -/
theorem State.starved_spec {s : State} (w : Table.wf regInit s.regs = true) (info : Nat) :
    let r := ((s.err pwrPage 0xA001 info).cause pwrPage 3).alert 3 true
    bit (r.reg (pwrPage + 0xC)) 3 = true ∧ bit (r.rd .glbAlert) 3 = true ∧
    0 < bits (r.reg (pwrPage + 0x18)) 31 16 ∧ RegsBut (Reg.addr .glbAlert :: errRegs pwrPage) s r ∧
    Only [.regs, .con, .host] s r := by
  have w1 := State.wf_err w pwrPage 0xA001 info
  have w2 : Table.wf regInit ((s.err pwrPage 0xA001 info).cause pwrPage 3).regs = true := State.wf_raise w1 _ _
  have err := State.err_regsBut w pwrPage 0xA001 info
  have cause : RegsBut [pwrPage + 0xC] (s.err pwrPage 0xA001 info) ((s.err pwrPage 0xA001 info).cause pwrPage 3) :=
    fun a ha => by rw [State.cause, State.reg_raise w1, if_neg (by simpa using ha)]
  have alert := State.setReg_regsBut w2 (Reg.addr .glbAlert)
  refine ⟨?_, State.bit_alert w2 (by decide), ?_, ?_, ?_⟩
  · rw [State.alert, State.setFld, State.wr, alert _ _ (by decide)]
    exact State.bit_cause w1 _ (by decide)
  · rw [State.alert, State.setFld, State.wr, alert _ _ (by decide), cause _ (by decide)]
    exact State.err_count_pos w _ _ (by decide)
  · exact ((err.mono fun a => List.mem_cons_of_mem _).trans (cause.mono (by simp [errRegs]))).trans
      ((alert _).mono (by simp))
  · exact ((State.err_only _ _ _ _).trans ((State.raise_only _ _ _).mono (by simp))).trans
      ((State.alert_only _ _ _).mono (by simp))

end Sys2Proof.Machine
end

section
/-! ## Pantry banks handed to their tiles at the release of the set-reset (R287) -/

namespace Sys2Proof.Machine

theorem Only.mem (s : State) (x : Memories) : Only [.mem] s { s with mem := x } :=
  ⟨rfl, fun p hp => by cases p <;> simp_all [Part.same]⟩

/-- Handovers of pantry banks that P names have taken place: registers and messages aside, nothing changed but the
lists of handovers, and every handover that is new in progress is of such a bank. -/
structure BanksGiven (P : Nat → Nat → Prop) (s r : State) : Prop where
  only : Only [.regs, .mem, .host] s r
  ddr : r.mem.ddr = s.mem.ddr
  larder : r.mem.larder = s.mem.larder
  taken : ∀ q ∈ r.mem.handovers, q ∈ s.mem.handovers ∨ q.larder = false ∧ P q.ptile q.bank

/-- No handover of pantry bank k of tile t is in progress. -/
def State.bankFree (s : State) (t k : Nat) : Prop := ∀ q ∈ s.mem.handovers, q.of false t k = false

theorem Handover.of_pantry {q : Handover} {t k : Nat} :
    q.of false t k = true ↔ q.larder = false ∧ q.ptile = t ∧ q.bank = k := by
  simp [Handover.of, and_assoc]

variable {P Q : Nat → Nat → Prop} {s t r : State}

theorem BanksGiven.refl (s : State) : BanksGiven P s s := ⟨Only.refl _ s, rfl, rfl, fun _ h => Or.inl h⟩

theorem BanksGiven.trans (a : BanksGiven P s t) (b : BanksGiven P t r) : BanksGiven P s r :=
  ⟨a.only.trans b.only, b.ddr.trans a.ddr, b.larder.trans a.larder, fun q hq => (b.taken q hq).elim (a.taken q) Or.inr⟩

theorem BanksGiven.mono (a : BanksGiven P s r) (h : ∀ t k, P t k → Q t k) : BanksGiven Q s r :=
  ⟨a.only, a.ddr, a.larder, fun q hq => (a.taken q hq).imp_right fun p => ⟨p.1, h _ _ p.2⟩⟩

/-- A change of registers and messages. -/
theorem BanksGiven.of_only (h : Only [.regs, .host] s r) : BanksGiven P s r := by
  have m : r.mem = s.mem := h.2 .mem (by simp)
  exact ⟨h.mono (by simp), by rw [m], by rw [m], fun q hq => Or.inl (m ▸ hq)⟩

/-- A bank that no handover of P takes stays free. -/
theorem BanksGiven.bankFree (a : BanksGiven P s r) {t k : Nat} (free : s.bankFree t k) (h : ¬ P t k) :
    r.bankFree t k := fun q hq => by
  rcases a.taken q hq with old | ⟨-, new⟩
  · exact free q old
  · by_contra e
    obtain ⟨-, rfl, rfl⟩ := Handover.of_pantry.mp (by simpa using e)
    exact h new

/-- A change of the memories that keeps their bytes and begins no handover but those of banks that P names. -/
theorem BanksGiven.of_mem (s : State) {m : Memories} (ddr : m.ddr = s.mem.ddr) (larder : m.larder = s.mem.larder)
    (taken : ∀ q ∈ m.handovers, q ∈ s.mem.handovers ∨ q.larder = false ∧ P q.ptile q.bank) :
    BanksGiven P s { s with mem := m } := ⟨(Only.mem _ _).mono (by simp), ddr, larder, taken⟩

theorem State.setOwn_given (s : State) (larder : Bool) (t k : Nat) (w : Word) :
    BanksGiven P s (s.setOwn larder t k w) := by
  unfold State.setOwn
  split <;> exact BanksGiven.of_only ((State.setReg_only _ _ _).mono (by simp))

/-- A handover of a pantry bank begun. -/
theorem State.startHandover_given (s : State) {h : Handover} (pantry : h.larder = false) (p : P h.ptile h.bank) :
    BanksGiven P s (s.startHandover h) := by
  refine (State.setOwn_given s _ _ _ _).trans (BanksGiven.of_mem _ rfl rfl fun q hq => ?_)
  rcases List.mem_append.mp hq with old | new
  · exact Or.inl old
  · obtain rfl := List.mem_singleton.mp new
    exact Or.inr ⟨pantry, p⟩

/-- The new owner of a pantry bank recorded at the end of its handover, before one that waits for the bank begins. -/
def State.bankOwned (s : State) (t k kind index : Nat) : State :=
  let w := setBits (setBits (setBit (setBit (s.own false t k) 31 false) 16 false) 11 8 kind) 7 0 index
  let s := s.setOwn false t k (setBit w 29 false)
  ({ s with mem := { s.mem with handovers := s.mem.handovers.erase ⟨false, t, k, kind, index, false⟩ } } :
    State).setBanks.cause (tilePage t 5) 1

/-- The end of a pantry bank's handover without a clear. -/
theorem State.endHandover_pantry (s : State) (t k kind index : Nat) :
    s.endHandover ⟨false, t, k, kind, index, false⟩ =
      ((s.bankOwned t k kind index).mem.waiting.find? fun q => q.of false t k).elim (s.bankOwned t k kind index)
        fun q => ({ s.bankOwned t k kind index with
          mem := { (s.bankOwned t k kind index).mem with
            waiting := (s.bankOwned t k kind index).mem.waiting.erase q } } : State).startHandover q := by
  have e : s.endHandover ⟨false, t, k, kind, index, false⟩ =
      match (s.bankOwned t k kind index).mem.waiting.find? fun q => q.of false t k with
      | some q => ({ s.bankOwned t k kind index with
          mem := { (s.bankOwned t k kind index).mem with
            waiting := (s.bankOwned t k kind index).mem.waiting.erase q } } : State).startHandover q
      | none => s.bankOwned t k kind index := rfl
  rw [e]
  cases (s.bankOwned t k kind index).mem.waiting.find? fun q => q.of false t k <;> rfl

theorem State.bankOwned_given (s : State) (t k kind index : Nat) : BanksGiven P s (s.bankOwned t k kind index) := by
  refine BanksGiven.trans ?_ (BanksGiven.of_only (State.raise_only _ _ _))
  refine BanksGiven.trans ?_ (BanksGiven.of_only ((State.setReg_only _ _ _).mono (by simp)))
  refine (State.setOwn_given s _ _ _ _).trans (BanksGiven.of_mem _ rfl rfl fun q hq => ?_)
  exact Or.inl (List.mem_of_mem_erase hq)

/-- A handover of a pantry bank ended without a clear; one that waits for the bank begins. -/
theorem State.endHandover_given (s : State) {t k : Nat} (kind index : Nat) (p : P t k) :
    BanksGiven P s (s.endHandover ⟨false, t, k, kind, index, false⟩) := by
  have ended : BanksGiven P s (s.bankOwned t k kind index) := State.bankOwned_given s t k kind index
  rw [State.endHandover_pantry]
  cases found : (s.bankOwned t k kind index).mem.waiting.find? fun q => q.of false t k with
  | none => exact ended
  | some q =>
    have ofBank : q.of false t k = true := List.find?_some (p := fun q : Handover => q.of false t k) found
    obtain ⟨pantry, rfl, rfl⟩ := Handover.of_pantry.mp ofBank
    rw [Option.elim_some]
    refine ended.trans (BanksGiven.trans ?_ (State.startHandover_given _ pantry p))
    exact BanksGiven.of_mem _ rfl rfl fun _ h => Or.inl h

/-- A pantry bank that is free given to its tile. -/
theorem State.giveBank_given {s : State} {t k : Nat} (free : s.bankFree t k) (p : P t k) :
    BanksGiven P s (s.giveBank ⟨false, t, k, 1, 0, false⟩) := by
  have none : s.mem.handovers.find? (fun q => q.of false t k) = none :=
    List.find?_eq_none.mpr fun q hq => by simp [free q hq]
  simp only [State.giveBank, none]
  exact (State.startHandover_given s (h := ⟨false, t, k, 1, 0, false⟩) rfl p).trans
    (State.endHandover_given _ 1 0 p)

/-- A fold whose steps hand over disjoint sets of free banks. -/
theorem BanksGiven.foldl {F : State → Nat → State} {P : Nat → Nat → Nat → Prop}
    (step : ∀ s a, (∀ t k, P a t k → s.bankFree t k) → BanksGiven (P a) s (F s a)) :
    ∀ {l : List Nat} {s : State}, l.Pairwise (fun a b => ∀ t k, P b t k → ¬ P a t k) →
      (∀ a ∈ l, ∀ t k, P a t k → s.bankFree t k) → BanksGiven (fun t k => ∃ a ∈ l, P a t k) s (l.foldl F s)
  | [], s, _, _ => BanksGiven.refl s
  | a :: l, s, apart, free => by
    obtain ⟨ha, hl⟩ := List.pairwise_cons.mp apart
    have first := step s a (free a (by simp))
    have rest := BanksGiven.foldl step hl fun b hb t k hp =>
      first.bankFree (free b (by simp [hb]) t k hp) (ha b hb t k hp)
    exact (first.mono fun t k h => ⟨a, by simp, h⟩).trans (rest.mono fun t k ⟨b, hb, h⟩ => ⟨b, by simp [hb], h⟩)

end Sys2Proof.Machine
end

section
/-! ## What a halt request and a batch's boundaries leave alone -/

namespace Sys2Proof.Machine

theorem Only.acq (s : State) (x : Acq) : Only [.acq] s { s with acq := x } :=
  ⟨rfl, fun p hp => by cases p <;> simp_all [Part.same]⟩
theorem Only.prf (s : State) (x : Proofs) : Only [.prf] s { s with prf := x } :=
  ⟨rfl, fun p hp => by cases p <;> simp_all [Part.same]⟩
theorem Only.ldr (s : State) (x : Loader) : Only [.ldr] s { s with ldr := x } :=
  ⟨rfl, fun p hp => by cases p <;> simp_all [Part.same]⟩
theorem Only.pins (s : State) (x : Pins) : Only [.pins] s { s with pins := x } :=
  ⟨rfl, fun p hp => by cases p <;> simp_all [Part.same]⟩
theorem Only.free (s : State) (n : Nat) : Only [.free] s { s with freeCtr := n } :=
  ⟨rfl, fun p hp => by cases p <;> simp_all [Part.same]⟩

/-- The run goes on: the batch in progress, whether the device is halted and whether inputs are logged or replayed are
as they were. -/
structure RunsOn (s r : State) : Prop where
  batch : r.run.batch = s.run.batch
  inBatch : r.run.inBatch = s.run.inBatch
  halted : r.isHalted = s.isHalted
  replay : r.prf.replay = s.prf.replay
  inputOn : r.inputOn = s.inputOn

theorem RunsOn.refl (s : State) : RunsOn s s := ⟨rfl, rfl, rfl, rfl, rfl⟩

theorem RunsOn.trans {s t r : State} (a : RunsOn s t) (b : RunsOn t r) : RunsOn s r :=
  ⟨b.batch.trans a.batch, b.inBatch.trans a.inBatch, b.halted.trans a.halted, b.replay.trans a.replay,
    b.inputOn.trans a.inputOn⟩

/-- What leaves run control and the proofs alone lets the run go on. -/
theorem RunsOn.of_only {l : List Part} {s r : State} (h : Only l s r) (run : Part.run ∉ l) (prf : Part.prf ∉ l) :
    RunsOn s r := by
  have hr : r.run = s.run := h.2 .run run
  have hp : r.prf = s.prf := h.2 .prf prf
  exact ⟨by rw [hr], by rw [hr], by simp only [State.isHalted, hr], by rw [hp], by simp only [State.inputOn, hp]⟩

/-- A halt request lets the batch in progress go on to its end. -/
theorem State.haltRequest_runsOn (s : State) (c : Nat) : RunsOn s (s.haltRequest c) := by
  unfold State.haltRequest
  split
  · exact RunsOn.refl s
  · exact RunsOn.refl s
  · exact ⟨rfl, rfl, rfl, rfl, rfl⟩
  · rename_i h
    simp only [State.setRun, h, reduceCtorEq, if_false]
    refine RunsOn.trans ?_ (RunsOn.of_only (State.event_only _ _ _) (by simp) (by simp))
    exact ⟨rfl, rfl, by simp [State.isHalted, h], rfl, rfl⟩
  · exact ⟨rfl, rfl, rfl, rfl, rfl⟩

/-! ## The start phase (R24, R106, R196, R287) -/

/-- A tile at its place in the exchange: what it serves and what it stores are as they were, and a tile that serves
nothing is as it was. -/
structure Tile.Kept (x y : Tile) : Prop where
  vtile : y.vtile = x.vtile
  pantry : y.pantry = x.pantry
  thenHalf : y.thenHalf = x.thenHalf
  flags : y.flags = x.flags
  unmapped : x.vtile = none → y = x

theorem Tile.Kept.refl (x : Tile) : x.Kept x := ⟨rfl, rfl, rfl, rfl, fun _ => rfl⟩

/-- The pantry banks that the loader holds given to their tiles. -/
def State.givePantries (s : State) : State :=
  s.mapped.foldl (fun s t => (List.range 16).foldl (fun s k =>
    if bit (s.tile t).panOwnMask k && ownKind (s.rd .tilPanOwn t k) = 2 then s.giveBank ⟨false, t, k, 1, 0, false⟩
    else s) s) s

/-- The batch counter at LDR_FIRST, the set-reset released. -/
def State.numberFirst (s : State) : State :=
  { s with
    ldr := { s.ldr with setReset := false, firstBatch := s.ldr.imageFirst }
    run := { s.run with batch := s.ldr.imageFirst } }

/-- The slots written under the set-reset valid. -/
def State.freeSlots (s : State) : State := s.mapped.foldl (fun s t => s.modTile t Tile.freeValid) s

/-- The release of the set-reset in its three parts: the batch number, the valid bits, the pantry banks. -/
theorem State.leaveReset_of_setReset {s : State} (h : s.ldr.setReset = true) :
    s.leaveReset = s.numberFirst.freeSlots.givePantries := by
  simp only [State.leaveReset, h, if_true]
  rfl

theorem State.numberFirst_only (s : State) : Only [.ldr, .run] s s.numberFirst :=
  ((Only.ldr s _).mono (by simp)).trans ((Only.run { s with ldr := s.numberFirst.ldr } _).mono (by simp))

theorem State.freeSlots_only (s : State) : Only [.tiles] s s.freeSlots :=
  Only.foldl (fun s t => State.setTile_only s t _) _ s

theorem State.freeSlots_maps {s : State} (w : s.TilesWf) :
    MapsTiles s.mapped (fun x y => y = x.freeValid) s s.freeSlots :=
  MapsTiles.foldl (R := fun x y => y = x.freeValid) (fun _ t w => State.setTile_maps w t rfl) s.mapped_nodup w

/-- The release of the valid bits keeps what tiles serve and store. -/
theorem State.freeSlots_kept {s : State} (w : s.TilesWf) (u : Nat) : (s.tile u).Kept (s.freeSlots.tile u) := by
  by_cases h : u ∈ s.mapped
  · rw [(State.freeSlots_maps w).on u h]
    exact ⟨rfl, rfl, rfl, rfl, fun e => by simp [State.mem_mapped, e] at h⟩
  · rw [(State.freeSlots_maps w).off u h]
    exact Tile.Kept.refl _

/-- With no handover in progress the banks change hands without a byte changed. -/
theorem State.givePantries_given {s : State} (free : s.mem.handovers = []) :
    BanksGiven (fun _ _ => True) s s.givePantries := by
  have bank : ∀ (t : Nat) (s : State) (k : Nat), (∀ u j, u = t ∧ j = k → s.bankFree u j) →
      BanksGiven (fun u j => u = t ∧ j = k) s
        (if bit (s.tile t).panOwnMask k && ownKind (s.rd .tilPanOwn t k) = 2 then s.giveBank ⟨false, t, k, 1, 0, false⟩
        else s) := fun t s k hk => by
    split
    · exact State.giveBank_given (hk t k ⟨rfl, rfl⟩) ⟨rfl, rfl⟩
    · exact BanksGiven.refl s
  have tile := fun (s : State) (t : Nat) (ht : ∀ u j, u = t → s.bankFree u j) =>
    (BanksGiven.foldl (bank t) (s := s)
      (List.nodup_range (n := 16) |>.imp fun {_ _} h u j hb ha => h (ha.2.symm.trans hb.2))
      (fun k _ u j hk => ht u j hk.1)).mono (Q := fun u _ => u = t) fun u j ⟨k, _, hk⟩ => hk.1
  refine (BanksGiven.foldl (P := fun t u _ => u = t) tile ?_ fun t _ u k _ q hq => ?_).mono fun _ _ _ => trivial
  · exact s.mapped_nodup.imp fun {_ _} h u j hb ha => h (ha.symm.trans hb)
  · simp [free] at hq

/-- The set-reset released: the batch is the next one, and the tiles keep what they store. -/
theorem State.leaveReset_spec {s : State} (w : s.TilesWf) (free : s.mem.handovers = []) :
    Only [.regs, .tiles, .ldr, .run, .mem, .host] s s.leaveReset ∧
    s.leaveReset.run = { s.run with batch := s.nextBatch } ∧ s.leaveReset.ldr.setReset = false ∧
    s.leaveReset.mem.ddr = s.mem.ddr ∧ s.leaveReset.mem.larder = s.mem.larder ∧
    s.leaveReset.TilesWf ∧ ∀ u, (s.tile u).Kept (s.leaveReset.tile u) := by
  cases h : s.ldr.setReset with
  | false =>
    have e : s.leaveReset = s := by simp [State.leaveReset, h]
    rw [e]
    exact ⟨Only.refl _ s, by simp [State.nextBatch, h], h, rfl, rfl, w, fun u => Tile.Kept.refl _⟩
  | true =>
    rw [State.leaveReset_of_setReset h]
    have valid : Only [.ldr, .run, .tiles] s s.numberFirst.freeSlots :=
      ((State.numberFirst_only s).mono (by simp)).trans ((State.freeSlots_only _).mono (by simp))
    have mem : s.numberFirst.freeSlots.mem = s.mem := valid.2 .mem (by simp)
    have given := State.givePantries_given (s := s.numberFirst.freeSlots) (by rw [mem]; exact free)
    have tiles := given.only.2 .tiles (by simp)
    have run := (given.only.2 .run (by simp)).trans ((State.freeSlots_only _).2 .run (by simp))
    have ldr := (given.only.2 .ldr (by simp)).trans ((State.freeSlots_only _).2 .ldr (by simp))
    refine ⟨(valid.mono (by simp)).trans (given.only.mono (by simp)), ?_, ?_, given.ddr.trans (by rw [mem]),
      given.larder.trans (by rw [mem]), ?_, fun u => ?_⟩
    · rw [run, State.nextBatch, if_pos h]; rfl
    · rw [ldr]; rfl
    · rw [State.TilesWf, tiles]; exact (State.freeSlots_maps (s := s.numberFirst) w).wf
    · rw [State.tile_congr tiles]; exact State.freeSlots_kept (s := s.numberFirst) w u

theorem State.captureIn_only (s : State) (cycle src ns frac : Nat) :
    Only [.regs, .tim, .con, .host] s (s.captureIn cycle src ns frac) := by
  unfold State.captureIn
  split
  · exact Only.refl _ s
  · refine Only.trans ?_ (Only.foldl (fun t d => ?_) _ _)
    · split
      · exact ((Only.tim _ _).mono (by simp)).trans ((State.raise_only _ _ _).mono (by simp))
      · exact (Only.tim _ _).mono (by simp)
    · exact ((State.setReg_only _ _ _).mono (by simp)).trans ((State.err_only _ _ _ _).mono (by simp))

theorem State.noteLate_only (s : State) : Only [.regs, .con, .host] s s.noteLate := by
  unfold State.noteLate
  split
  · split
    · exact (State.err_only _ _ _ _).trans ((State.raise_only _ _ _).mono (by simp))
    · exact Only.refl _ s
  · exact Only.refl _ s

/-- A step at a boundary between batches: no storage changes, and the run goes on. -/
structure LiveStep (s r : State) : Prop where
  only : Only [.regs, .run, .svc, .tim, .acq, .prf, .con, .host] s r
  runsOn : RunsOn s r

theorem LiveStep.refl (s : State) : LiveStep s s := ⟨Only.refl _ s, RunsOn.refl s⟩

theorem LiveStep.trans {s t r : State} (a : LiveStep s t) (b : LiveStep t r) : LiveStep s r :=
  ⟨a.only.trans b.only, a.runsOn.trans b.runsOn⟩

theorem LiveStep.of_only {s r : State} (h : Only [.regs, .svc, .tim, .acq, .con, .host] s r) : LiveStep s r :=
  ⟨h.mono (by simp), RunsOn.of_only h (by simp) (by simp)⟩

theorem LiveStep.foldl {α : Type} {F : State → α → State} (step : ∀ s a, LiveStep s (F s a)) :
    ∀ (as : List α) (s : State), LiveStep s (as.foldl F s)
  | [], s => LiveStep.refl s
  | a :: as, s => (step s a).trans (LiveStep.foldl step as (F s a))

theorem State.latchCompare_live (s : State) : LiveStep s s.latchCompare :=
  ⟨(Only.run s _).mono (by simp), ⟨rfl, rfl, rfl, rfl, rfl⟩⟩

theorem State.haltRequest_live (s : State) (c : Nat) : LiveStep s (s.haltRequest c) :=
  ⟨(s.haltRequest_only c).mono (by simp), s.haltRequest_runsOn c⟩

/-- What belongs to the start of a live batch only changes no storage and lets the run go on. -/
theorem State.startLive_live (s : State) : LiveStep s s.startLive := by
  unfold State.startLive
  extract_lets late captured disarmed _ slotted _ started _ unsaved
  have hLate : LiveStep s late :=
    s.latchCompare_live.trans (LiveStep.of_only ((State.noteLate_only _).mono (by simp)))
  have hCaptured : LiveStep late captured := by
    unfold captured
    split
    · exact LiveStep.of_only ((State.captureIn_only _ _ _ _ _).mono (by simp))
    · exact LiveStep.refl late
  have hDisarmed : LiveStep captured disarmed := by
    unfold disarmed
    split
    · exact LiveStep.of_only ((State.setReg_only _ _ _).mono (by simp))
    · exact LiveStep.refl captured
  have hSlotted : LiveStep disarmed slotted := LiveStep.of_only ((Only.tim disarmed _).mono (by simp))
  have hStarted : LiveStep slotted started := ⟨(Only.run slotted _).mono (by simp), ⟨rfl, rfl, rfl, rfl, rfl⟩⟩
  have hUnsaved : LiveStep started unsaved := ⟨(Only.prf started _).mono (by simp), ⟨rfl, rfl, rfl, rfl, rfl⟩⟩
  have all := ((((hLate.trans hCaptured).trans hDisarmed).trans hSlotted).trans hStarted).trans hUnsaved
  split
  · exact (all.trans (LiveStep.of_only ((Only.acq unsaved _).mono (by simp)))).trans (State.haltRequest_live _ 5)
  · exact all

theorem State.freePins_only (s : State) : Only [.free] s s.freePins.2 := by
  have draw : ∀ (l : List Nat) (p : BitVec 128 × State), Only [.free] p.2
      (l.foldl (fun (r : BitVec 128 × State) k =>
        (r.1 ||| (r.2.free.1.setWidth 128 <<< (32 * k)), r.2.free.2)) p).2 := by
    intro l
    induction l with
    | nil => exact fun p => Only.refl _ _
    | cons k l ih => exact fun p => (Only.free p.2 _).trans (ih _)
  exact draw _ (0, s)

theorem State.targetDrives_only (s : State) : Only [.pins, .free] s s.targetDrives := by
  unfold State.targetDrives
  refine Only.trans (((State.freePins_only s).trans (State.freePins_only _)).mono (by simp)) ?_
  exact (Only.pins _ _).mono (by simp)

/-- While no log records inputs, none is logged. -/
theorem State.logInput_off {s : State} (off : s.inputOn = false) (r : LogRec) : s.logInput r = s := by
  simp [State.logInput, off]

/-- With nothing to replay and no log, the design inputs of a batch are sampled and change pins only. -/
theorem State.takeDin_only {s : State} (live : s.prf.replay = []) (off : s.inputOn = false) (n : DWord) :
    Only [.pins, .free] s (s.takeDin n) := by
  have none : s.loggedDin n = none := by simp [State.loggedDin, live]
  have sampled := (State.targetDrives_only s).trans ((Only.pins s.targetDrives
    { s.targetDrives.pins with din := s.targetDrives.pinSample }).mono (by simp))
  have quiet := (RunsOn.of_only sampled (by simp) (by simp)).inputOn.trans off
  simp only [State.takeDin, none]
  rw [State.logInput_off quiet]
  exact sampled

theorem State.replayWindows_live {s : State} (live : s.prf.replay = []) (n : DWord) : s.replayWindows n = s := by
  simp [State.replayWindows, live]

theorem State.releaseTiles_of_on {s : State} (on : s.isHalted = false) :
    s.releaseTiles = { s.debitStart.mapMapped Tile.begin with
      run := { (s.debitStart.mapMapped Tile.begin).run with inBatch := true, stepPending := false } } := by
  simp only [State.releaseTiles, on, Bool.false_eq_true, if_false, State.mapMapped]

/-- The tiles released at step 0 by a device that is not halted. -/
theorem State.releaseTiles_spec {s : State} (w : s.TilesWf) (on : s.isHalted = false) :
    Only [.tiles, .led, .run] s s.releaseTiles ∧
    s.releaseTiles.run = { s.run with inBatch := true, stepPending := false } ∧
    s.releaseTiles.led.level = s.led.level - fjOfNj s.led.est ∧
    MapsTiles s.mapped (fun x y => y = x.begin) s s.releaseTiles := by
  have begun := s.debitStart.mapMapped_only Tile.begin
  have released := Only.run (s.debitStart.mapMapped Tile.begin)
    { (s.debitStart.mapMapped Tile.begin).run with inBatch := true, stepPending := false }
  rw [State.releaseTiles_of_on on]
  refine ⟨((Only.led s _).mono (by simp)).trans ((begun.mono (by simp)).trans (released.mono (by simp))), ?_, ?_,
    (State.mapMapped_maps (s := s.debitStart) w Tile.begin).of_tiles rfl (released.2 .tiles (by simp))⟩
  · rw [begun.2 .run (by simp)]; rfl
  · rw [begun.2 .led (by simp)]; rfl

end Sys2Proof.Machine
end

section
/-! ## BATCH_START (R22, R254, R257) -/

namespace Sys2Proof.Machine

/-- Outside a recovery pause nothing is replayed. -/
theorem State.replays_of_ne_recover {s : State} (live : s.run.state ≠ .recover) : s.replays = false := by
  simp [State.replays, live]

/-- A start that may come, without an arm and without pacing, comes at once. -/
theorem execBatchStart_covered {s : State} (ready : s.startReady = true)
    (allowed : s.startAllowed = true) (covered : s.covered = true) (disarmed : bit (s.rd .timSchedCtrl) 31 = false)
    (unpaced : bit (s.rd .timSchedCtrl) 30 = false) : exec .batchStart s = .next s.startBatch := by
  have paced : s.paced = false := by simp [State.paced, unpaced]
  have armed : s.armed = false := by simp [State.armed, disarmed]
  have prepared : s.prepareStart = s := by
    simp only [State.prepareStart, paced, armed, Bool.false_eq_true, if_false, ite_self]
  have reached : s.timeReached = true := by
    simp only [State.timeReached, paced, armed, Bool.false_eq_true, if_false, ite_self]
  show execBatchStart s = _
  simp only [execBatchStart, ready, allowed, covered, prepared, reached, Bool.and_self, if_true]

/-- A start that is allowed finds the device running or halting. -/
theorem State.isHalted_of_startAllowed {s : State} (allowed : s.startAllowed = true) : s.isHalted = false := by
  cases h : s.run.state <;> simp_all [State.startAllowed, State.replays, State.isHalted]

/-- The start phase outside a recovery pause: what the batch gets and what stays. -/
theorem State.startBatch_spec {s : State} (w : s.TilesWf) (live : s.run.state ≠ .recover) (on : s.isHalted = false)
    (replay : s.prf.replay = []) (off : s.inputOn = false) (free : s.mem.handovers = []) :
    let r := s.startBatch
    r.run.inBatch = true ∧ r.run.batch = s.nextBatch ∧ r.run.stepPending = false ∧ r.ldr.setReset = false ∧
    r.led.level = s.led.level - fjOfNj s.led.est ∧ r.mem.ddr = s.mem.ddr ∧ r.mem.larder = s.mem.larder ∧
    ∀ u, ∃ x : Tile, (s.tile u).Kept x ∧ (u ∈ s.mapped → r.tile u = x.begin) ∧ (u ∉ s.mapped → r.tile u = x) := by
  have idle := State.replays_of_ne_recover live
  have again : s.replayed = false := by simp [State.replayed, idle]
  obtain ⟨leave, run, setReset, ddr, larder, w1, kept⟩ := State.leaveReset_spec w free
  have prf : s.leaveReset.prf = s.prf := leave.2 .prf (by simp)
  have start := s.leaveReset.startLive_live
  have replay2 : s.leaveReset.startLive.prf.replay = [] := by rw [start.runsOn.replay, prf, replay]
  have off2 : s.leaveReset.startLive.inputOn = false := by
    rw [start.runsOn.inputOn, ← off]; simp only [State.inputOn, prf]
  have on2 : s.leaveReset.startLive.isHalted = false := by
    rw [start.runsOn.halted, ← on]; simp only [State.isHalted, run]
  have din := State.takeDin_only replay2 off2 s.leaveReset.run.batch
  have dinOn := RunsOn.of_only din (by simp) (by simp)
  have parts : s.startBatch = (s.leaveReset.startLive.takeDin s.leaveReset.run.batch).releaseTiles := by
    simp only [State.startBatch, idle, again, Bool.false_and, Bool.false_eq_true, if_false]
    rw [State.replayWindows_live (dinOn.replay.trans replay2)]
  have kept2 : Only [.regs, .run, .svc, .tim, .acq, .prf, .con, .host, .pins, .free] s.leaveReset
      (s.leaveReset.startLive.takeDin s.leaveReset.run.batch) :=
    (start.only.mono (by simp)).trans (din.mono (by simp))
  have led : (s.leaveReset.startLive.takeDin s.leaveReset.run.batch).led = s.led :=
    (kept2.2 .led (by simp)).trans (leave.2 .led (by simp))
  have tiles := kept2.2 .tiles (by simp)
  obtain ⟨release, run3, level, begun⟩ := State.releaseTiles_spec
    (s := s.leaveReset.startLive.takeDin s.leaveReset.run.batch) (by rw [State.TilesWf, tiles]; exact w1)
    (dinOn.halted.trans on2)
  have mem := (release.2 .mem (by simp)).trans (kept2.2 .mem (by simp))
  have ldr := (release.2 .ldr (by simp)).trans (kept2.2 .ldr (by simp))
  have same : (s.leaveReset.startLive.takeDin s.leaveReset.run.batch).mapped = s.mapped :=
    State.mapped_congr fun u => by rw [State.tile_congr tiles, (kept u).vtile]
  intro r
  have hr : r = _ := parts
  rw [hr]
  refine ⟨by rw [run3], ?_, by rw [run3], by rw [ldr, setReset], by rw [level, led], by rw [mem, ddr],
    by rw [mem, larder], fun u => ⟨s.leaveReset.tile u, kept u, ?_⟩⟩
  · rw [run3, dinOn.batch, start.runsOn.batch, run]
  · rw [← State.tile_congr tiles, ← same]
    exact ⟨begun.on u, begun.off u⟩

/-- Settles O42: the four conditions lead to the start phase, which debits the estimate and begins every mapped tile; a
start that the ledger does not cover is held, counted once, and recorded when it starves. -/
theorem batchStarts : Obligations.BatchStarts := by
  unfold Obligations.BatchStarts
  intro s canon live sched
  obtain ⟨wRegs, wTiles, -⟩ := canon
  refine ⟨fun ready allowed covered disarmed unpaced replay off free => ?_,
    fun ready allowed uncovered fresh => ⟨_, execBatchStart_held ready allowed uncovered, ?_⟩,
    fun ns held hold fresh limit passed => ⟨_, execPaceStarved_due held hold fresh limit passed, ?_⟩⟩
  · obtain ⟨inBatch, batch, step, setReset, level, ddr, larder, tiles⟩ :=
      State.startBatch_spec wTiles live (State.isHalted_of_startAllowed allowed) replay off free
    refine ⟨_, execBatchStart_covered ready allowed covered disarmed unpaced, inBatch, batch, step, setReset, level,
      ddr, larder, fun t ht mapped => ?_, fun t ht unmapped => ?_⟩ <;> obtain ⟨x, kept, begun, stands⟩ := tiles t
    · rw [begun (State.mem_mapped.mpr ⟨ht, mapped⟩)]
      exact ⟨rfl, rfl, rfl, kept.pantry, kept.thenHalf, kept.flags⟩
    · rw [stands fun h => by simp [State.mem_mapped, unmapped] at h, kept.unmapped unmapped]
  · exact State.holdStart_spec wRegs fresh
  · obtain ⟨cause, alert, count, regs, only⟩ := State.starved_spec
      (s := { s with led := { s.led with starved := true } }) wRegs (lo32 s.nextBatch).toNat
    exact ⟨only.2 .led (by simp), cause, alert, count, regs,
      ((Only.led s _).mono (by simp)).trans (only.mono (by simp))⟩

end Sys2Proof.Machine
end

section
/-! ## The halves of the bit store (R90) -/

namespace Sys2Proof.Machine

/-- A then-half that has taken over what a now-half holds. -/
def mergeHalf (now : Table (Option Bool)) (m : Table Bool) : Table Bool :=
  ({ Tile.reset with nowHalf := now, thenHalf := m } : Tile).swapHalves.thenHalf

theorem Tile.swapHalves_eq (x : Tile) :
    x.swapHalves = { x with thenHalf := mergeHalf x.nowHalf x.thenHalf, nowHalf := [], tap := [] } := rfl

/-- Each position reads what a canonical now-half holds for it, and as before where it holds nothing. -/
theorem get_mergeHalf {k : Nat} : ∀ {now : Table (Option Bool)} {lo : Nat} {m : Table Bool},
    Table.wfFrom (fun _ => none) lo now = true → Table.wf (fun _ => false) m = true →
    Table.get (fun _ => false) (mergeHalf now m) k =
      (Table.get (fun _ => none) now k).getD (Table.get (fun _ => false) m k)
  | [], _, _, _, _ => rfl
  | (a, v) :: rest, lo, m, wn, wm => by
    simp only [Table.wfFrom, Bool.and_eq_true, decide_eq_true_eq] at wn
    obtain ⟨b, rfl⟩ := Option.ne_none_iff_exists'.mp wn.1.2
    have step : mergeHalf ((a, some b) :: rest) m = mergeHalf rest (Table.set (fun _ => false) m a b) := rfl
    rw [step, get_mergeHalf wn.2 (Table.wf_set wm), Table.get_set wm]
    by_cases e : k = a
    · subst e; simp [Table.get, Table.get_below wn.2 (Nat.lt_succ_self k)]
    · by_cases l : k < a
      · simp [Table.get, e, l, Table.get_below wn.2 (Nat.lt_succ_of_lt l)]
      · simp [Table.get, e, l]

/-! ## Sampling and the swap (R133 actions 1 to 3) -/

/-- A tile as a sampled batch leaves it: only its history and its marks are others. -/
def Tile.Sampled (x y : Tile) : Prop := ∃ h m, y = { x with history := h, marks := m }

theorem Tile.sample_sampled (x : Tile) (din : BitVec 128) (n : DWord) (again : Bool) :
    x.Sampled (x.sample din n again) := by
  unfold Tile.sample
  split
  · exact ⟨x.history, x.marks, rfl⟩
  · exact ⟨_, _, rfl⟩

/-- The histories with the vector of batch n. -/
def State.sampleTiles (s : State) (n : DWord) : State :=
  if s.ldr.inService then s.mapMapped fun x => x.sample s.pins.din n false else s

theorem State.sampleBatch_live (s : State) (n : DWord) :
    ∃ a, s.sampleBatch n false = { s.sampleTiles n with acq := a } := ⟨_, rfl⟩

theorem State.sampleTiles_only (s : State) (n : DWord) : Only [.tiles] s (s.sampleTiles n) := by
  unfold State.sampleTiles
  split
  · exact s.mapMapped_only _
  · exact Only.refl _ s

theorem State.sampleTiles_maps {s : State} (w : s.TilesWf) (n : DWord) :
    MapsTiles s.mapped Tile.Sampled s (s.sampleTiles n) := by
  unfold State.sampleTiles
  split
  · exact (State.mapMapped_maps w _).mono fun x y e => e ▸ x.sample_sampled _ _ _
  · exact ⟨w, fun u _ => ⟨_, _, rfl⟩, fun u _ => rfl⟩

theorem State.sampleBatch_only (s : State) (n : DWord) : Only [.tiles, .acq] s (s.sampleBatch n false) := by
  obtain ⟨a, e⟩ := s.sampleBatch_live n
  rw [e]
  exact ((s.sampleTiles_only n).mono (by simp)).trans ((Only.acq _ a).mono (by simp))

theorem State.sampleBatch_maps {s : State} (w : s.TilesWf) (n : DWord) :
    MapsTiles s.mapped Tile.Sampled s (s.sampleBatch n false) := by
  obtain ⟨a, e⟩ := s.sampleBatch_live n
  rw [e]
  exact (State.sampleTiles_maps w n).of_tiles rfl ((Only.acq _ a).2 .tiles (by simp))

/-- The first part of a batch-end phase: exchange batch, sampling, the halves swapped. -/
def State.swapBatch (s : State) : State :=
  ((s.mapMapped fun x => { x with xbatch := s.run.batch + 1, phase := .batchEnd }).sampleBatch s.run.batch
    false).mapMapped Tile.swapHalves

theorem State.swapBatch_only (s : State) : Only [.tiles, .acq] s s.swapBatch :=
  (((s.mapMapped_only _).mono (by simp)).trans (State.sampleBatch_only _ _)).trans
    ((State.mapMapped_only _ _).mono (by simp))

/-- A tile after the swap. -/
def Tile.Swapped (n1 : DWord) (x y : Tile) : Prop :=
  ∃ h m, y = { x.swapHalves with xbatch := n1, phase := .batchEnd, history := h, marks := m }

theorem State.swapBatch_maps {s : State} (w : s.TilesWf) :
    MapsTiles s.mapped (Tile.Swapped (s.run.batch + 1)) s s.swapBatch := by
  have marked := State.mapMapped_maps w fun x => { x with xbatch := s.run.batch + 1, phase := .batchEnd }
  have same := marked.mapped_eq fun x y e => by rw [e]
  have sampled := State.sampleBatch_maps marked.wf s.run.batch
  have same2 := sampled.mapped_eq fun x y ⟨_, _, e⟩ => by rw [e]
  have swapped := State.mapMapped_maps sampled.wf Tile.swapHalves
  rw [same2, same] at swapped
  rw [same] at sampled
  refine ((marked.trans sampled).trans swapped).mono fun x y ⟨v, ⟨u, hu, h, m, hv⟩, hy⟩ => ⟨h, m, ?_⟩
  rw [hy, hv, hu]
  rfl

end Sys2Proof.Machine
end

section
/-! ## Sums of bit blocks -/

namespace Sys2Proof.Machine

/-- Blocks of w bits that are all 1 or all 0, block k as f k says. -/
theorem testBit_blocks {w : Nat} (hw : 0 < w) (f : Nat → Bool) : ∀ n,
    ((List.range n).map fun k => b2n (f k) * (2 ^ w - 1) * 2 ^ (w * k)).sum < 2 ^ (w * n) ∧
    ∀ p < w * n, ((List.range n).map fun k => b2n (f k) * (2 ^ w - 1) * 2 ^ (w * k)).sum.testBit p = f (p / w)
  | 0 => by simp
  | n + 1 => by
    obtain ⟨bound, bits⟩ := testBit_blocks hw f n
    have block : ∀ j < w, (b2n (f n) * (2 ^ w - 1)).testBit j = f n := fun j hj => by
      cases f n <;> simp [b2n, hj]
    have small : b2n (f n) * (2 ^ w - 1) < 2 ^ w := by
      have := Nat.two_pow_pos w
      cases f n <;> simp [b2n]
    rw [List.range_succ, List.map_append, List.sum_append, List.map_singleton, List.sum_singleton, Nat.add_comm,
      Nat.mul_comm _ (2 ^ (w * n))]
    refine ⟨?_, fun p hp => ?_⟩
    · rw [Nat.mul_succ, Nat.pow_add]
      calc _ < 2 ^ (w * n) * (b2n (f n) * (2 ^ w - 1)) + 2 ^ (w * n) := by omega
        _ = 2 ^ (w * n) * (b2n (f n) * (2 ^ w - 1) + 1) := by ring
        _ ≤ _ := Nat.mul_le_mul_left _ small
    · rw [Nat.testBit_two_pow_mul_add _ bound]
      split
      · exact bits p ‹_›
      · rename_i h
        have e : p / w = n := Nat.div_eq_of_lt_le (by rw [Nat.mul_comm]; exact Nat.not_lt.mp h)
          (by rw [Nat.mul_comm]; exact hp)
        rw [block _ (by rw [Nat.mul_succ] at hp; omega), e]

/-- A vector of 128 bits given bit by bit. -/
theorem bit_sum_pins (f : Nat → Bool) {p : Nat} (hp : p < 128) :
    bit (BitVec.ofNat 128 ((List.range 128).map fun k => b2n (f k) * 2 ^ k).sum) p = f p := by
  have h := (testBit_blocks Nat.one_pos f 128).2 p (by omega)
  simp only [Nat.pow_one, Nat.add_one_sub_one, Nat.mul_one, Nat.one_mul, Nat.div_one] at h
  rw [bit, BitVec.getLsbD_ofNat, h, decide_eq_true hp, Bool.true_and]

/-- The pins of a bank are powered with the bank (R533). -/
theorem State.bit_poweredPins (s : State) {p : Nat} (hp : p < 128) :
    bit s.poweredPins p = bit s.sup.vdioOn (p / 32) := by
  have h := (testBit_blocks (w := 32) (by omega) (fun k => bit s.sup.vdioOn k) 4).2 p (by omega)
  rw [bit, State.poweredPins, BitVec.getLsbD_ofNat, decide_eq_true hp, Bool.true_and]
  exact h

/-! ## The design output pins (R107, R170, R535) -/

/-- The value of a source word: constant 1, or a then-half bit of the tile that serves its virtual tile. -/
theorem State.pinSource_eq (s : State) (w : Word) :
    s.pinSource w = if bits w 31 30 = 1 then true else if bits w 31 30 = 2 then
      (s.ptile (bits w 29 23)).elim false fun t => (s.tile t).thenBit (bits w 22 14) (bits w 13 4) else false := by
  unfold State.pinSource
  split
  · simp [*]
  · simp only [*, OfNat.ofNat_ne_one, if_false, if_true]
    cases s.ptile (bits w 29 23) <;> rfl
  · rename_i one two
    rw [if_neg one, if_neg two]

theorem State.drivePins_runsOn (s : State) : Only [.pins, .run] s s.drivePins ∧ RunsOn s s.drivePins := by
  unfold State.drivePins
  split
  · exact ⟨Only.refl _ s, RunsOn.refl s⟩
  · exact ⟨⟨rfl, fun p hp => by cases p <;> simp_all [Part.same]⟩, ⟨rfl, rfl, rfl, rfl, rfl⟩⟩

/-- The watchdog holds the drivers off: the pins stay. -/
theorem State.drivePins_off {s : State} (off : s.run.driversOff = true) (unarmed : s.run.driversArmed = false) :
    s.drivePins = s := by
  simp [State.drivePins, off, unarmed]

/-- A driven pin of a powered bank: its enable and its level. -/
theorem State.drivePins_pin {s : State} (on : s.run.driversOff = false) {p : Nat} (hp : p < 128) :
    bit s.drivePins.pins.dioDrive p =
      (s.pinSource (Table.get (fun _ => 0) s.ldr.pinEnable p) && bit s.sup.vdioOn (p / 32)) ∧
    bit s.drivePins.pins.dioLevel p =
      (s.pinSource (Table.get (fun _ => 0) s.ldr.pinData p) && bit s.drivePins.pins.dioDrive p) := by
  have enable := bit_sum_pins (fun k => s.pinSource (Table.get (fun _ => 0) s.ldr.pinEnable k)) hp
  have data := bit_sum_pins (fun k => s.pinSource (Table.get (fun _ => 0) s.ldr.pinData k)) hp
  have powered := s.bit_poweredPins hp
  simp only [bit] at enable data powered ⊢
  simp only [State.drivePins, on, Bool.false_and, Bool.false_eq_true, if_false, BitVec.getLsbD_and, enable, data,
    powered, Bool.and_assoc, and_self]

/-! ## Exchange state, energy and the ledger (R132, R133 actions 5 and 6, R252, R253) -/

/-- Registers below an address read as they did, and the registers stand in canonical form. -/
structure RegsBelow (top : Nat) (s r : State) : Prop where
  wf : Table.wf regInit r.regs = true
  same : ∀ a < top, r.reg a = s.reg a

theorem RegsBelow.trans {top : Nat} {s t r : State} (a : RegsBelow top s t) (b : RegsBelow top t r) :
    RegsBelow top s r := ⟨b.wf, fun i hi => (b.same i hi).trans (a.same i hi)⟩

theorem State.setFld_below {s : State} (w : Table.wf regInit s.regs = true) {top : Nat} {r : Reg} {t : Nat}
    (high : top ≤ r.addr t) (hi lo v : Nat) : RegsBelow top s (s.setFld r hi lo v t) :=
  ⟨State.wf_setReg w, fun a ha => State.setReg_regsBut w _ _ a (by simp only [List.mem_singleton]; omega)⟩

theorem State.residue_below {s : State} (w : Table.wf regInit s.regs = true) {top : Nat} {r : Reg} {t : Nat}
    (high : top ≤ r.addr t) (hi n : Nat) : RegsBelow top s (s.residue r t hi n) := by
  have last := State.setFld_below w high hi 0 n
  unfold State.residue
  split
  · exact last
  · exact last.trans (State.setFld_below last.wf high _ _ _)

theorem State.residue_only (s : State) (r : Reg) (t hi n : Nat) : Only [.regs] s (s.residue r t hi n) := by
  unfold State.residue
  split
  · exact State.setReg_only _ _ _
  · exact (State.setReg_only _ _ _).trans (State.setReg_only _ _ _)

/-- The exchange state of a tile cleared. -/
def Tile.exchangeCleared (x : Tile) : Tile := { x with mbxValid := 0, flags := [], qCount := [] }

/-- The residues of a tile counted. -/
def State.countResidues (s : State) (t : Nat) : State :=
  (s.residue .tilFlagResidue t 10 (s.tile t).flagsLeft).residue .tilQResidue t 6 (s.tile t).queuesLeft

theorem State.clearExchange_eq (s : State) (t : Nat) :
    s.clearExchange t = (s.countResidues t).setTile t (s.tile t).exchangeCleared := rfl

theorem State.countResidues_only (s : State) (t : Nat) : Only [.regs] s (s.countResidues t) :=
  (State.residue_only _ _ _ _ _).trans (State.residue_only _ _ _ _ _)

theorem State.clearExchange_only (s : State) (t : Nat) : Only [.regs, .tiles] s (s.clearExchange t) :=
  ((s.countResidues_only t).mono (by simp)).trans ((State.setTile_only _ _ _).mono (by simp))

theorem State.clearExchange_maps {s : State} (w : s.TilesWf) (t : Nat) :
    MapsTiles [t] (fun x y => y = x.exchangeCleared) s (s.clearExchange t) :=
  (State.setTile_maps (R := fun x y => y = x.exchangeCleared) w t rfl).of_tiles rfl (by
    rw [State.clearExchange_eq, State.setTile, (s.countResidues_only t).2 .tiles (by simp)]; rfl)

theorem Reg.base_le_addr (r : Reg) (t : Nat) : r.row.base ≤ r.addr t := by
  simp only [Reg.addr]
  omega

theorem State.clearExchange_below {s : State} (w : Table.wf regInit s.regs = true) (t : Nat) :
    RegsBelow 0x1000000 s (s.clearExchange t) := by
  have flags := State.residue_below w (top := 0x1000000) (r := .tilFlagResidue) (t := t)
    ((by decide : 0x1000000 ≤ _).trans (Reg.base_le_addr _ t)) 10 (s.tile t).flagsLeft
  have queues := State.residue_below flags.wf (top := 0x1000000) (r := .tilQResidue) (t := t)
    ((by decide : 0x1000000 ≤ _).trans (Reg.base_le_addr _ t)) 6 (s.tile t).queuesLeft
  exact ⟨queues.wf, (flags.trans queues).same⟩

theorem State.foldl_clearExchange_below : ∀ (l : List Nat) {s : State}, Table.wf regInit s.regs = true →
    RegsBelow 0x1000000 s (l.foldl State.clearExchange s)
  | [], _, w => ⟨w, fun _ _ => rfl⟩
  | t :: l, _, w => (State.clearExchange_below w t).trans
      (State.foldl_clearExchange_below l (State.clearExchange_below w t).wf)

/-- A tile whose activity counters are frozen. -/
def Tile.Frozen (x y : Tile) : Prop := ∃ nj, y = { x with frozen := x.energy, frozenNj := nj }

theorem State.freezeTile_maps {s : State} (w : s.TilesWf) (t : Nat) : MapsTiles [t] Tile.Frozen s (s.freezeTile t) :=
  State.setTile_maps w t ⟨_, rfl⟩

/-- E_batch and E_max are those of any state with the same fuses whose tiles serve, count and hold the same. -/
theorem State.energy_congr {s r : State} (vtile : ∀ u, (r.tile u).vtile = (s.tile u).vtile)
    (energy : ∀ u, (r.tile u).energy = (s.tile u).energy) (depth : ∀ u, (r.tile u).depth = (s.tile u).depth)
    (fuses : r.fuses = s.fuses) : r.batchEnergy = s.batchEnergy ∧ r.eMax = s.eMax := by
  have coef : ∀ i, r.coef i = s.coef i := fun i => by simp only [State.coef, fuses]
  simp only [State.batchEnergy, State.eMax, State.tileEnergy16, State.mapped_congr vtile, energy, depth, coef, and_self]

/-- MARGIN and the capacity are those of any state with the same ledger settings. -/
theorem State.ledgerCfg_congr {s r : State} (cfg : r.rd .pwrLedgerCfg = s.rd .pwrLedgerCfg)
    (budget : r.led.budgetUw = s.led.budgetUw) : r.margin = s.margin ∧ r.capacityFj = s.capacityFj := by
  have field : ∀ hi lo, r.fld .pwrLedgerCfg hi lo = s.fld .pwrLedgerCfg hi lo := fun hi lo => by
    simp only [State.fld, cfg]
  have window : r.windowUs = s.windowUs := by simp only [State.windowUs, field]
  exact ⟨field 15 8, by rw [State.capacityFj, State.capacityFj, budget, window]⟩

/-- The ledger at the freeze (R252, R253). -/
theorem State.settleLedger_led (s : State) :
    s.settleLedger.led = { s.led with
      level := min (s.led.level + fjOfNj s.led.estCurrent - fjOfNj s.batchEnergy) s.capacityFj
      last := s.batchEnergy
      est := s.nextEst s.batchEnergy } := rfl

theorem State.settleLedger_only (s : State) : Only [.led] s s.settleLedger := Only.led s _

end Sys2Proof.Machine
end

section
/-! ## The last part of a batch-end phase (R221, R458) -/

namespace Sys2Proof.Machine

theorem Only.svc (s : State) (x : Service) : Only [.svc] s { s with svc := x } :=
  ⟨rfl, fun p hp => by cases p <;> simp_all [Part.same]⟩

theorem State.issueInternal_only (s : State) (i : SvcItem) : Only [.svc] s (s.issueInternal i).2 := by
  unfold State.issueInternal
  split
  · exact (Only.svc s _).trans ((Only.svc _ _).trans (Only.svc _ _))
  · exact Only.refl _ s

theorem State.issueWaiting_only (s : State) : Only [.svc] s s.issueWaiting := by
  unfold State.issueWaiting
  split
  · exact Only.refl _ s
  · rename_i i rest _
    have issued := s.issueInternal_only i
    split <;> rename_i e <;> rw [e] at issued
    · exact issued.trans (Only.svc _ _)
    · exact issued

theorem State.dropItem_only (s : State) (id : Nat) : Only [.svc] s (s.dropItem id) := by
  unfold State.dropItem
  exact (Only.svc s _).trans (State.issueWaiting_only _)

theorem State.svcErr_only (s : State) (code info : Nat) : Only [.regs, .con, .host] s (s.svcErr code info) :=
  State.err_only s svcPage code info

/-- Incomplete items reported as orphans stop nothing at once. -/
theorem State.orphans_live (s : State) (n : DWord) : LiveStep s (s.orphans n) := by
  unfold State.orphans
  refine LiveStep.foldl (fun s i => LiveStep.trans ?_ (State.haltRequest_live _ 8)) _ s
  exact LiveStep.of_only (((s.dropItem_only i.id).mono (by simp)).trans ((State.svcErr_only _ _ _).mono (by simp)))

/-- A batch comparator that hits asks for a halt at most. -/
theorem State.bcmp_live (s : State) (n : DWord) (i : Nat) : LiveStep s (s.bcmp n i) := by
  have cause : ∀ (s : State) (b : Bool), LiveStep s (if b then s.cause runPage 2 else s) := fun s b => by
    split
    · exact LiveStep.of_only ((s.raise_only _ _).mono (by simp))
    · exact LiveStep.refl s
  have halt : ∀ (s : State) (b : Bool), LiveStep s (if b then s.haltRequest 3 else s) := fun s b => by
    split
    · exact s.haltRequest_live 3
    · exact LiveStep.refl s
  unfold State.bcmp
  extract_lets
  split
  · exact ((LiveStep.of_only ((State.setReg_only _ _ _).mono (by simp))).trans (halt _ _)).trans (cause _ _)
  · exact LiveStep.refl s

theorem State.bcmpAll_live (s : State) (n : DWord) : LiveStep s (s.bcmpAll n) :=
  LiveStep.foldl (fun s i => s.bcmp_live n i) _ s

/-- With empty racks no racked packet is applied. -/
theorem State.foldl_unrack_empty {s : State} (w : s.TilesWf) (n1 : DWord) :
    ∀ l : List Nat, (∀ t ∈ l, (s.tile t).rack = []) → l.foldl (fun s t => s.unrack t n1) s = s
  | [], _ => rfl
  | t :: l, empty => by
    have one : s.unrack t n1 = s := by
      simp only [State.unrack, empty t (by simp), List.filter_nil, List.foldl_nil]
      rw [← empty t (by simp)]
      exact State.setTile_tile w t
    rw [List.foldl_cons, one]
    exact State.foldl_unrack_empty w n1 l fun u hu => empty u (by simp [hu])

theorem State.rackArrivals_live {s : State} (live : s.prf.replay = []) (p : DWord) : s.rackArrivals p = s := by
  simp [State.rackArrivals, live]

/-- The exchange state of the tiles of l cleared, and batch n1 next. -/
def State.clearBatch (s : State) (l : List Nat) (n1 : DWord) : State :=
  let s := l.foldl State.clearExchange s
  { s with run := { s.run with batch := n1, inBatch := false } }

/-- The exchange state of the tiles of l cleared, their counters frozen and the ledger settled. -/
def State.settleBatch (s : State) (l : List Nat) (n1 : DWord) : State :=
  (l.foldl State.freezeTile (s.clearBatch l n1)).settleLedger

/-- The mapped tiles idle at step 0, and what the end of batch n reports. -/
def State.closeBatch (s : State) (n : DWord) : State :=
  let s := ((s.mapMapped fun x => { x with phase := .idle, step := 0 }).bcmpAll n).orphans n
  { s with prf := { s.prf with redo := false } }

/-- The state in which the ledger of the batch that s ends is settled. -/
def State.settled (s : State) : State := s.swapBatch.drivePins.settleBatch s.mapped (s.run.batch + 1)

/-- Outside a recovery pause a batch-end phase swaps, drives the pins, settles, applies racked packets and closes. -/
theorem State.endBatch_live {s : State} (live : s.run.state ≠ .recover) :
    s.endBatch =
      let q := (s.mapped.foldl (fun q t => q.unrack t (s.run.batch + 1)) s.settled).rackArrivals (s.run.batch + 1)
      if q.isHalted then q else q.closeBatch s.run.batch := by
  simp only [State.endBatch, live, if_false, decide_false]
  rfl

end Sys2Proof.Machine
end

section
/-! ## BATCH_END (R133) -/

namespace Sys2Proof.Machine

section
variable {s : State} {l : List Nat}

theorem State.foldl_clearExchange_only (s : State) (l : List Nat) :
    Only [.regs, .tiles] s (l.foldl State.clearExchange s) := Only.foldl (fun s t => s.clearExchange_only t) l s

theorem State.clearBatch_only (s : State) (l : List Nat) (n1 : DWord) :
    Only [.regs, .tiles, .run] s (s.clearBatch l n1) :=
  ((s.foldl_clearExchange_only l).mono (by simp)).trans ((Only.run (l.foldl State.clearExchange s) _).mono (by simp))

theorem State.clearBatch_run (s : State) (l : List Nat) (n1 : DWord) :
    (s.clearBatch l n1).run = { s.run with batch := n1, inBatch := false } := by
  rw [← (s.foldl_clearExchange_only l).2 .run (by simp)]
  rfl

theorem State.clearBatch_maps (w : s.TilesWf) (nd : l.Nodup) (n1 : DWord) :
    MapsTiles l (fun x y => y = x.exchangeCleared) s (s.clearBatch l n1) :=
  (MapsTiles.foldl (fun _ t w => State.clearExchange_maps w t) nd w).of_tiles rfl rfl

theorem State.foldl_freezeTile_only (s : State) (l : List Nat) : Only [.tiles] s (l.foldl State.freezeTile s) :=
  Only.foldl (fun s t => s.setTile_only t _) l s

theorem State.settleBatch_only (s : State) (l : List Nat) (n1 : DWord) :
    Only [.regs, .tiles, .run, .led] s (s.settleBatch l n1) :=
  (((s.clearBatch_only l n1).mono (by simp)).trans ((State.foldl_freezeTile_only _ l).mono (by simp))).trans
    ((State.settleLedger_only _).mono (by simp))

theorem State.settleBatch_run (s : State) (l : List Nat) (n1 : DWord) :
    (s.settleBatch l n1).run = { s.run with batch := n1, inBatch := false } := by
  rw [← s.clearBatch_run l n1]
  exact (State.foldl_freezeTile_only _ l).2 .run (by simp)

theorem State.settleBatch_maps (w : s.TilesWf) (nd : l.Nodup) (n1 : DWord) :
    MapsTiles l (Relation.Comp (fun x y => y = x.exchangeCleared) Tile.Frozen) s (s.settleBatch l n1) := by
  have clear := State.clearBatch_maps w nd n1
  have freeze : MapsTiles l Tile.Frozen _ _ := MapsTiles.foldl (fun _ t w => State.freezeTile_maps w t) nd clear.wf
  exact clear.trans (freeze.of_tiles rfl rfl)

/-- The ledger after the freeze of the batch that s ends. -/
theorem State.settleBatch_led (wr : Table.wf regInit s.regs = true) (w : s.TilesWf) (nd : l.Nodup) (n1 : DWord) :
    (s.settleBatch l n1).led = { s.led with
      level := min (s.led.level + fjOfNj s.led.estCurrent - fjOfNj s.batchEnergy) s.capacityFj
      last := s.batchEnergy
      est := s.nextEst s.batchEnergy } := by
  have below := State.foldl_clearExchange_below l wr
  have freeze := State.foldl_freezeTile_only (s.clearBatch l n1) l
  have tiles : MapsTiles l _ s (l.foldl State.freezeTile (s.clearBatch l n1)) :=
    (State.settleBatch_maps w nd n1).of_tiles rfl rfl
  have only := ((s.clearBatch_only l n1).mono (m := [.regs, .tiles, .run]) (by simp)).trans (freeze.mono (by simp))
  have led := only.2 .led (by simp)
  obtain ⟨energy, eMax⟩ := State.energy_congr
    (tiles.field Tile.vtile fun x z ⟨y, hy, _, hz⟩ => by rw [hz, hy]; rfl)
    (tiles.field Tile.energy fun x z ⟨y, hy, _, hz⟩ => by rw [hz, hy]; rfl)
    (tiles.field Tile.depth fun x z ⟨y, hy, _, hz⟩ => by rw [hz, hy]; rfl) (only.2 .fuses (by simp))
  obtain ⟨margin, capacity⟩ := State.ledgerCfg_congr (s := s) (r := l.foldl State.freezeTile (s.clearBatch l n1))
    ((State.reg_congr (freeze.2 .regs (by simp)) _).trans (below.same _ (by decide))) (by rw [led])
  rw [State.settleBatch, State.settleLedger_led, State.nextEst, State.nextEst, energy, eMax, margin, capacity, led]

theorem State.closeBatch_only (s : State) (n : DWord) :
    Only [.tiles, .regs, .run, .svc, .tim, .acq, .prf, .con, .host] s (s.closeBatch n) := by
  have idle := s.mapMapped_only fun x => { x with phase := .idle, step := 0 }
  have report := (State.bcmpAll_live (s.mapMapped fun x => { x with phase := .idle, step := 0 }) n).trans
    (State.orphans_live _ n)
  unfold State.closeBatch
  exact ((idle.mono (by simp)).trans (report.only.mono (by simp))).trans ((Only.prf _ _).mono (by simp))

theorem State.closeBatch_run (s : State) (n : DWord) :
    (s.closeBatch n).run.batch = s.run.batch ∧ (s.closeBatch n).run.inBatch = s.run.inBatch := by
  have idle := s.mapMapped_only fun x => { x with phase := .idle, step := 0 }
  have report := ((State.bcmpAll_live (s.mapMapped fun x => { x with phase := .idle, step := 0 }) n).trans
    (State.orphans_live _ n)).runsOn
  have run : (s.mapMapped fun x => { x with phase := .idle, step := 0 }).run = s.run := idle.2 .run (by simp)
  exact ⟨report.batch.trans (by rw [run]), report.inBatch.trans (by rw [run])⟩

theorem State.closeBatch_maps (w : s.TilesWf) (n : DWord) :
    MapsTiles s.mapped (fun x y => y = { x with phase := .idle, step := 0 }) s (s.closeBatch n) := by
  have report := (State.bcmpAll_live (s.mapMapped fun x => { x with phase := .idle, step := 0 }) n).trans
    (State.orphans_live _ n)
  exact (State.mapMapped_maps w _).of_tiles rfl (report.only.2 .tiles (by simp))

/-- A mapped tile whose batch is settled. -/
def Tile.Settled (n1 : DWord) (x y : Tile) : Prop :=
  ∃ h m e j, y = { x.swapHalves with
    xbatch := n1, phase := .batchEnd, history := h, marks := m
    mbxValid := 0, flags := [], qCount := [], frozen := e, frozenNj := j }

theorem State.drivePins_tiles (s : State) : s.drivePins.tiles = s.tiles :=
  s.drivePins_runsOn.1.2 .tiles (by simp)

theorem State.settled_maps (w : s.TilesWf) :
    MapsTiles s.mapped (Tile.Settled (s.run.batch + 1)) s s.settled := by
  have swap := (State.swapBatch_maps w).of_tiles rfl s.swapBatch.drivePins_tiles
  refine (swap.trans (State.settleBatch_maps swap.wf s.mapped_nodup _)).mono ?_
  rintro x y ⟨u, ⟨h, m, rfl⟩, v, rfl, j, rfl⟩
  exact ⟨h, m, _, j, rfl⟩

theorem State.settled_only (s : State) : Only [.tiles, .acq, .pins, .regs, .run, .led] s s.settled :=
  ((s.swapBatch_only.mono (by simp)).trans (s.swapBatch.drivePins_runsOn.1.mono (by simp))).trans
    ((State.settleBatch_only _ _ _).mono (by simp))

/-- The run after the freeze: batch n + 1 is next, and the device is halted if it was. -/
theorem State.settled_run (s : State) : s.settled.run.batch = s.run.batch + 1 ∧ s.settled.run.inBatch = false ∧
    s.settled.isHalted = s.isHalted := by
  have drive := (RunsOn.of_only s.swapBatch_only (by simp) (by simp)).trans s.swapBatch.drivePins_runsOn.2
  have run := State.settleBatch_run s.swapBatch.drivePins s.mapped (s.run.batch + 1)
  refine ⟨by rw [State.settled, run], by rw [State.settled, run], ?_⟩
  rw [← drive.halted]
  simp only [State.isHalted, State.settled, run]

/-- A batch end without racked packets and without a replay. -/
theorem State.endBatch_eq (w : s.TilesWf) (on : s.isHalted = false) (live : s.run.state ≠ .recover)
    (replay : s.prf.replay = []) (empty : ∀ t < 136, (s.tile t).rack = []) :
    s.endBatch = s.settled.closeBatch s.run.batch := by
  have maps := State.settled_maps w
  have rack := maps.field Tile.rack fun x y ⟨_, _, _, _, e⟩ => by rw [e]; rfl
  have applied := State.foldl_unrack_empty maps.wf (s.run.batch + 1) s.mapped fun t ht =>
    (rack t).trans (empty t (State.mem_mapped.mp ht).1)
  have prf : s.settled.prf = s.prf := s.settled_only.2 .prf (by simp)
  have arrived := State.rackArrivals_live (s := s.settled) (by rw [prf, replay]) (s.run.batch + 1)
  have running : s.settled.isHalted = false := s.settled_run.2.2.trans on
  rw [State.endBatch_live live]
  simp only [applied, arrived, running, Bool.false_eq_true, if_false]

/-- A mapped tile that has passed a batch end. -/
def Tile.Ended (n1 : DWord) (x y : Tile) : Prop :=
  ∃ h m e j, y = { x.swapHalves with
    xbatch := n1, phase := .idle, step := 0, history := h, marks := m
    mbxValid := 0, flags := [], qCount := [], frozen := e, frozenNj := j }

theorem State.closed_maps (w : s.TilesWf) :
    MapsTiles s.mapped (Tile.Ended (s.run.batch + 1)) s (s.settled.closeBatch s.run.batch) := by
  have settled := State.settled_maps w
  have close := State.closeBatch_maps settled.wf s.run.batch
  rw [settled.mapped_eq fun x y ⟨_, _, _, _, e⟩ => by rw [e]; rfl] at close
  refine (settled.trans close).mono ?_
  rintro x y ⟨u, ⟨h, m, e, j, rfl⟩, rfl⟩
  exact ⟨h, m, e, j, rfl⟩

end

end Sys2Proof.Machine
end

section
/-! ## The state after a batch end (R133, R252, R253, R535) -/

namespace Sys2Proof.Machine

/-- The tile that serves a virtual tile is that of any state with the same registers whose tiles serve the same. -/
theorem State.ptile_congr {s r : State} (regs : r.regs = s.regs) (vtile : ∀ u, (r.tile u).vtile = (s.tile u).vtile)
    (v : Nat) : r.ptile v = s.ptile v := by
  have rd : r.rd .glbVmap v = s.rd .glbVmap v := State.reg_congr regs _
  simp only [State.ptile, rd, vtile]

/-- The state after a batch end without racked packets and without a replay. -/
def State.closed (s : State) : State := s.settled.closeBatch s.run.batch

section
variable {s : State}

theorem State.closed_run (s : State) : s.closed.run.inBatch = false ∧ s.closed.run.batch = s.run.batch + 1 := by
  obtain ⟨batch, inBatch⟩ := s.settled.closeBatch_run s.run.batch
  obtain ⟨batch1, inBatch1, _⟩ := s.settled_run
  exact ⟨inBatch.trans inBatch1, batch.trans batch1⟩

/-- The ledger after the batch: the estimate comes back, and what the batch took goes (R252, R253). -/
theorem State.closed_led (wr : Table.wf regInit s.regs = true) (w : s.TilesWf) :
    s.closed.led = { s.led with
      level := min (s.led.level + fjOfNj s.led.estCurrent - fjOfNj s.batchEnergy) s.capacityFj
      last := s.batchEnergy
      est := s.nextEst s.batchEnergy } := by
  have swap := (State.swapBatch_maps w).of_tiles rfl s.swapBatch.drivePins_tiles
  have only := (s.swapBatch_only.mono (m := [.tiles, .acq, .pins, .run]) (by simp)).trans
    (s.swapBatch.drivePins_runsOn.1.mono (by simp))
  have regs := only.2 .regs (by simp)
  have led := only.2 .led (by simp)
  obtain ⟨energy, eMax⟩ := State.energy_congr (swap.field Tile.vtile fun x y ⟨_, _, e⟩ => by rw [e]; rfl)
    (swap.field Tile.energy fun x y ⟨_, _, e⟩ => by rw [e]; rfl)
    (swap.field Tile.depth fun x y ⟨_, _, e⟩ => by rw [e]; rfl) (only.2 .fuses (by simp))
  obtain ⟨margin, capacity⟩ := State.ledgerCfg_congr (s := s) (r := s.swapBatch.drivePins) (State.reg_congr regs _)
    (by rw [led])
  have wr1 : Table.wf regInit s.swapBatch.drivePins.regs = true := by rw [regs]; exact wr
  have close := (s.settled.closeBatch_only s.run.batch).2 .led (by simp)
  have settle := State.settleBatch_led wr1 swap.wf s.mapped_nodup (s.run.batch + 1)
  rw [State.nextEst, energy, eMax, margin, capacity, led] at settle
  exact close.trans settle

theorem State.closed_pins (s : State) : s.closed.pins = s.swapBatch.drivePins.pins :=
  ((s.settled.closeBatch_only s.run.batch).2 .pins (by simp)).trans
    ((State.settleBatch_only s.swapBatch.drivePins s.mapped (s.run.batch + 1)).2 .pins (by simp))

/-- After the swap the then-halves stand. -/
theorem State.closed_thenHalf (w : s.TilesWf) (u : Nat) :
    (s.closed.tile u).thenHalf = (s.swapBatch.tile u).thenHalf := by
  have closed := State.closed_maps w
  have swap := State.swapBatch_maps w
  rw [State.closed]
  by_cases h : u ∈ s.mapped
  · obtain ⟨_, _, _, _, e⟩ := closed.on u h
    obtain ⟨_, _, e2⟩ := swap.on u h
    rw [e, e2]
  · rw [closed.off u h, swap.off u h]

/-- A source word gives the pins after the swap what the then-halves give it afterwards. -/
theorem State.swapBatch_pinSource (w : s.TilesWf) (word : Word) :
    s.swapBatch.pinSource word = if bits word 31 30 = 1 then true else if bits word 31 30 = 2 then
      (s.ptile (bits word 29 23)).elim false fun t => (s.closed.tile t).thenBit (bits word 22 14) (bits word 13 4)
      else false := by
  have vtile := (State.swapBatch_maps w).field Tile.vtile fun x y ⟨_, _, e⟩ => by rw [e]; rfl
  rw [State.pinSource_eq, State.ptile_congr (s.swapBatch_only.2 .regs (by simp)) vtile]
  simp only [Tile.thenBit, State.closed_thenHalf w]

/-- The pins of a device whose drivers are on. -/
theorem State.closed_pin (on : s.run.driversOff = false) {p : Nat} (hp : p < 128) :
    bit s.closed.pins.dioDrive p =
      (s.swapBatch.pinSource (Table.get (fun _ => 0) s.ldr.pinEnable p) && bit s.sup.vdioOn (p / 32)) ∧
    bit s.closed.pins.dioLevel p =
      (s.swapBatch.pinSource (Table.get (fun _ => 0) s.ldr.pinData p) && bit s.closed.pins.dioDrive p) := by
  have run := s.swapBatch_only.2 .run (by simp)
  have ldr := s.swapBatch_only.2 .ldr (by simp)
  have sup := s.swapBatch_only.2 .sup (by simp)
  have pin := State.drivePins_pin (s := s.swapBatch) (by rw [run]; exact on) hp
  rw [ldr, sup] at pin
  rw [s.closed_pins]
  exact pin

/-- The pins of a device whose drivers the watchdog holds off. -/
theorem State.closed_pins_off (off : s.run.driversOff = true) (unarmed : s.run.driversArmed = false) :
    s.closed.pins = s.pins := by
  have run := s.swapBatch_only.2 .run (by simp)
  rw [s.closed_pins, State.drivePins_off (by rw [run]; exact off) (by rw [run]; exact unarmed)]
  exact s.swapBatch_only.2 .pins (by simp)

/-- What a canonical mapped tile has lost and kept at the end of a batch. -/
theorem Tile.Ended.facts {n1 : DWord} {x y : Tile} (canon : x.Canonical) (h : Tile.Ended n1 x y) :
    y.phase = .idle ∧ y.step = 0 ∧ y.xbatch = n1 ∧ y.tap = [] ∧ y.nowHalf = [] ∧ (∀ f : Nat, y.flag f = 0) ∧
      (∀ q : Nat, y.qLen q = 0) ∧ y.mbxValid = 0 ∧ y.pantry = x.pantry ∧ y.wuReg = x.wuReg ∧ y.qHead = x.qHead ∧
      ∀ b n : Nat, n < 1024 →
        y.thenBit b n = (Table.get (fun _ => none) x.nowHalf (b * 1024 + n)).getD (x.thenBit b n) := by
  obtain ⟨_, thenWf, nowWf, _⟩ := canon
  obtain ⟨_, _, _, _, rfl⟩ := h
  exact ⟨rfl, rfl, rfl, rfl, rfl, fun _ => rfl, fun _ => rfl, rfl, rfl, rfl, rfl,
    fun b n _ => get_mergeHalf nowWf thenWf⟩

end

/-- Outside a recovery pause a batch end whose packets have all been applied comes at once. -/
theorem execBatchEnd_over {s : State} (w : s.TilesWf) (ended : s.batchOver = true) (on : s.isHalted = false)
    (live : s.run.state ≠ .recover) (replay : s.prf.replay = []) (empty : ∀ t < 136, (s.tile t).rack = []) :
    exec .batchEnd s = .next s.closed := by
  have ends := State.endBatch_eq w on live replay empty
  show execBatchEnd s = _
  simp [execBatchEnd, whenDue, ended, ends, State.closed]

/-- Settles O43: the phase is a chain of changes, each of which says what it does to the mapped tiles and which parts
of the device it leaves; the swap fixes the then-halves that the pins take, the freeze settles the ledger, and with
empty racks and no replay nothing after that reaches either. -/
theorem batchEnds : Obligations.BatchEnds := by
  intro s canon ended runs replay racks took source word
  obtain ⟨wr, w, tilesCanon, _⟩ := canon
  have on : s.isHalted = false := by rcases runs with h | h <;> simp [State.isHalted, h]
  have live : s.run.state ≠ .recover := by rcases runs with h | h <;> simp [h]
  have led := State.closed_led wr w
  have sources : ∀ v, s.swapBatch.pinSource v = source v s.closed := fun v => by
    rw [State.swapBatch_pinSource w]
    simp only [source]
    cases s.ptile (bits v 29 23) <;> rfl
  have tiles := State.closed_maps w
  refine ⟨s.closed, execBatchEnd_over w ended on live replay racks, s.closed_run.1, s.closed_run.2, by rw [led],
    by rw [led]; rfl, by rw [led]; rfl, fun drivers p hp => ?_, State.closed_pins_off, fun t ht => ⟨fun none => ?_, ?_⟩⟩
  · rw [← sources, ← sources]
    exact State.closed_pin drivers hp
  · exact tiles.off t fun h => by simp [State.mem_mapped, none] at h
  · exact fun some => (tiles.on t (State.mem_mapped.mpr ⟨ht, some⟩)).facts (tilesCanon t)

end Sys2Proof.Machine
end

section
namespace Sys2Proof.Machine

/-- The item of a crier, running on service engine 0. -/
def crierItem : SvcItem := { blankItem .crier 0x60 0x60 0 with stage := .running 0 }

/-- A live acquisition engine whose stream has larder bank 0, with one unit of the block in progress written, while
service engine 0 runs a crier's item and self-test runs slice 136, that of larder banks 0 to 7. -/
def crierUnderTest : State :=
  { State.reset with
    svc := { Service.reset with store := [crierItem], engines := [(0, some 0)], nextId := 1 }
    acq := { Acq.reset with state := .live, banks := [0], wrUnits := 1 }
    bst := { Selftest.reset with slice := some 136 } }

theorem crierUnderTest_canonical : crierUnderTest.Canonical := State.canonical_of_check (by decide +kernel)

/-- A bank under self-test takes no bytes (R495): the crier's item ends and the larder holds what it held. -/
theorem crierUnderTest_larder : ∃ t, exec (.crier 0) crierUnderTest = .next t ∧ t.mem.larder = [] :=
  ⟨_, rfl, by decide +kernel⟩

/-- Refutes O39: a crier's record whose larder bank is under self-test is not stored (R495), so 0x07 does not stand at
its first byte; the last clause does not exclude such a bank. -/
theorem not_deviceItemsComplete : ¬ Obligations.DeviceItemsComplete := by
  unfold Obligations.DeviceItemsComplete
  intro h
  obtain ⟨-, -, -, -, record⟩ := h 0 0 0 0 0 0 0 crierItem crierUnderTest crierUnderTest_canonical
    (by decide) (by decide +kernel) rfl rfl (by decide)
  obtain ⟨r, hr, -, -, bytes, -⟩ :=
    record rfl rfl rfl rfl rfl (by decide) (by decide) (by decide)
  obtain ⟨t, ht, larder⟩ := crierUnderTest_larder
  obtain rfl : t = r := by rw [ht] at hr; exact Host.Outcome.next.inj hr
  rw [larder] at bytes
  have first : (0 : Byte) = 0x07 := congrArg (fun l => l.headD 0) bytes
  exact absurd first (by decide)

end Sys2Proof.Machine
end

section
/-! ## Fields of a word in which a field was stored -/

namespace Sys2Proof.Machine

/-- Bit i of a word in which a field was stored. -/
theorem bit_setBits (x : Word) (hi lo v : Nat) {i : Nat} (hi32 : i < 32) :
    bit (setBits x hi lo v) i = if lo ≤ i ∧ i ≤ hi then v.testBit (i - lo) else bit x i := by
  have field : (i - lo < hi + 1 - lo ∧ lo ≤ i) ↔ lo ≤ i ∧ i ≤ hi := by omega
  simp only [bit, setBits, BitVec.getLsbD_or, BitVec.getLsbD_and, BitVec.getLsbD_not, BitVec.getLsbD_ofNat,
    Nat.testBit_mul_two_pow, Nat.testBit_two_pow_sub_one, hi32, decide_true, Bool.true_and]
  by_cases h : lo ≤ i ∧ i ≤ hi
  · obtain ⟨width, above⟩ := field.mpr h
    simp [h, width]
  · rcases not_and_or.mp fun e => h (field.mp e) with n | n <;> simp [h, n]

/-- Bit i of a field. -/
theorem testBit_bits {w : Nat} (x : BitVec w) (hi lo i : Nat) :
    (bits x hi lo).testBit i = (decide (i < hi + 1 - lo) && bit x (lo + i)) := by
  rw [bits, BitVec.testBit_toNat, BitVec.getLsbD_extractLsb', bit]

/-- A field of v within the word reads back from a word in which it was stored. -/
theorem bits_setBits_same {x : Word} {hi lo v : Nat} (hv : v < 2 ^ (hi + 1 - lo)) (h : hi < 32) :
    bits (setBits x hi lo v) hi lo = v := by
  refine Nat.eq_of_testBit_eq fun i => ?_
  rw [testBit_bits]
  by_cases hw : i < hi + 1 - lo
  · rw [bit_setBits _ _ _ _ (by omega), if_pos (by omega), Nat.add_sub_cancel_left]
    simp [hw]
  · rw [Nat.testBit_lt_two_pow (hv.trans_le (Nat.pow_le_pow_right (by decide) (Nat.not_lt.mp hw)))]
    simp [hw]

/-- A field keeps what it reads when another field of the word is stored. -/
theorem bits_setBits_other {x : Word} {hi lo hi' lo' v : Nat} (h : hi < 32) (apart : hi < lo' ∨ hi' < lo) :
    bits (setBits x hi' lo' v) hi lo = bits x hi lo := by
  refine Nat.eq_of_testBit_eq fun i => ?_
  rw [testBit_bits, testBit_bits]
  by_cases hw : i < hi + 1 - lo
  · rw [bit_setBits _ _ _ _ (by omega), if_neg (by omega)]
  · simp [hw]
/-- Bit j of a word in which bit i was set. -/
theorem bit_setBit (x : Word) (i : Nat) (b : Bool) {j : Nat} (h : j < 32) :
    bit (setBit x i b) j = if j = i then b else bit x j := by
  rw [setBit, bit_setBits _ _ _ _ h]
  by_cases e : j = i
  · subst e; cases b <;> simp [b2n]
  · rw [if_neg (by omega), if_neg e]

end Sys2Proof.Machine
end

section
/-! ## Reads of registers through BAR0, and counters that a read clears (R41, R462) -/

namespace Sys2Proof.Machine

/-- A BAR0 read of a page that masters reach is carried out. -/
theorem onRead_bar0 {s : State} (reach : s.reachable = true) (page : Nat) (k : Out) : onRead page .bar0 s k = k := by
  simp [onRead, State.hidden, reach]

/-- A BAR0 read leaves side effects out only where PEEK of the page holds. -/
@[simp] theorem State.peeks_bar0 (s : State) (page : Nat) : s.peeks page .bar0 = s.pagePeek page := by
  simp [State.peeks]

theorem State.answer_only (s : State) (v : List Word) : Only [.host] s (s.answer v) :=
  ⟨rfl, fun p hp => by cases p <;> simp_all [Part.same, State.answer]⟩

/-- A field of a register reads back what was stored in it. -/
theorem State.fld_setFld {s : State} (w : Table.wf regInit s.regs = true) {r : Reg} {hi lo v i j : Nat}
    (hv : v < 2 ^ (hi + 1 - lo)) (h : hi < 32) : (s.setFld r hi lo v i j).fld r hi lo i j = v := by
  rw [State.fld, State.setFld, State.rd_wr w, bits_setBits_same hv h]

/-- A register that a BAR0 read gives is v where the read leaves the state t behind. -/
theorem State.answer_reads {s t : State} {r : Reg} {i j : Nat} (only : Only [.regs] s t)
    (regs : RegsBut [r.addr i j] s t)
    (v : Word) : (t.answer [v]).host.readData = [v] ∧ RegsBut [r.addr i j] s (t.answer [v]) ∧
      Only [.regs, .host] s (t.answer [v]) :=
  ⟨rfl, regs, (only.mono (by simp)).trans ((t.answer_only _).mono (by simp))⟩

/-- A BAR0 read of a counter gives its value, and clears it unless PEEK of the page holds. -/
theorem State.readClear_counter {s : State} (w : Table.wf regInit s.regs = true) (page : Nat) (r : Reg) (i j : Nat) :
    let t := s.readClear page .bar0 r 0xFFFFFFFF i j
    t.host.readData = [s.rd r i j] ∧ RegsBut [r.addr i j] s t ∧ Only [.regs, .host] s t ∧
      (s.pagePeek page = false → t.rd r i j = 0) ∧ (s.pagePeek page = true → t.rd r i j = s.rd r i j) := by
  intro t
  cases peek : s.pagePeek page with
  | true =>
    have e : t = s.answer [s.rd r i j] := by simp [t, State.readClear, peek]
    obtain ⟨data, regs, only⟩ := State.answer_reads (Only.refl _ s) (RegsBut.refl [r.addr i j] s) (s.rd r i j)
    exact e ▸ ⟨data, regs, only, by simp, fun _ => rfl⟩
  | false =>
    have e : t = (s.wr r 0 i j).answer [s.rd r i j] := by simp [t, State.readClear, peek]
    obtain ⟨data, regs, only⟩ :=
      State.answer_reads (State.setReg_only s _ 0) (State.setReg_regsBut w (r.addr i j) 0) (s.rd r i j)
    exact e ▸ ⟨data, regs, only, fun _ => State.rd_wr w, by simp⟩

theorem guardUnit_of {ok : Bool} (h : ok = true) (k : Out) : guardUnit ok k = k := if_pos h

theorem onTile_of {t : Nat} (h : t < 136) (k : Out) : onTile t k = k := guardUnit_of (decide_eq_true h) k

/-- Settles O44: every such read is `readClear` of its register behind the guards of its unit and page, but those of
CRI_STAT and RUN_BATCH, which store a field of their own. -/
theorem countersClearOnRead : Obligations.CountersClearOnRead := by
  unfold Obligations.CountersClearOnRead
  intro k s canon reach reads
  have w := canon.1
  have counter {c : Instr} {r : Reg} {i page : Nat}
      (h : exec c s = onRead page .bar0 s (.next (s.readClear page .bar0 r 0xFFFFFFFF i))) : reads c r i page :=
    ⟨_, h.trans (onRead_bar0 reach _ _), State.readClear_counter w page r i 0⟩
  refine ⟨fun hk on => ⟨counter ?_, counter ?_⟩, fun hk => counter (guardUnit_of (decide_eq_true hk) _),
    fun hk => counter (guardUnit_of (decide_eq_true hk) _), fun hk => counter (guardUnit_of (decide_eq_true hk) _),
    fun hk => ⟨counter (guardUnit_of (decide_eq_true hk) _), counter (guardUnit_of (decide_eq_true hk) _)⟩,
    fun hk => ?_, counter rfl, counter rfl, counter rfl, counter rfl, counter rfl, counter rfl, counter rfl, ?_, ?_⟩
  · exact (onTile_of hk _).trans (by simp only [on, if_true])
  · exact (onTile_of hk _).trans (by simp only [on, if_true])
  · obtain ⟨data, regs, only, clears, -⟩ := State.readClear_counter w (portPage (k / 9) 1) .lnkLaneErr (k / 9) (k % 9)
    have exists_ : (decide (k / 9 < 8) && decide (k % 9 < 9)) = true := by
      simp only [Bool.and_eq_true, decide_eq_true_eq]; omega
    exact ⟨_, (guardUnit_of exists_ _).trans (onRead_bar0 reach _ _), data, regs, only, clears⟩
  · refine ⟨_, onRead_bar0 reach _ _, ?_⟩
    simp only [State.peeks_bar0]
    cases peek : s.pagePeek criPage with
    | true =>
      obtain ⟨data, regs, only⟩ :=
        State.answer_reads (Only.refl _ s) (RegsBut.refl [Reg.addr .criStat] s) s.criStatNow
      exact ⟨data, only, regs, by simp⟩
    | false =>
      obtain ⟨data, regs, only⟩ :=
        State.answer_reads (State.setReg_only s _ _) (State.setReg_regsBut w (Reg.addr .criStat)
          (setBits (s.rd .criStat) 31 16 0)) s.criStatNow
      exact ⟨data, only, regs, fun _ => State.fld_setFld w (r := .criStat) (by decide) (by decide)⟩
  · refine ⟨_, onRead_bar0 reach _ _, ?_⟩
    simp only [State.peeks_bar0]
    cases peek : s.pagePeek runPage with
    | true =>
      obtain ⟨data, regs, only⟩ :=
        State.answer_reads (Only.refl _ s) (RegsBut.refl [Reg.addr .runBatchHi] s) (lo32 s.run.batch)
      exact ⟨data, only, regs, by simp⟩
    | false =>
      obtain ⟨data, regs, only⟩ :=
        State.answer_reads (State.setReg_only s _ _) (State.setReg_regsBut w (Reg.addr .runBatchHi)
          (hi32 s.run.batch)) (lo32 s.run.batch)
      exact ⟨data, only, regs, fun _ => State.rd_wr w⟩

end Sys2Proof.Machine
end

section
/-! ## Writes to the common header of a page (R48, R49, R60) -/

namespace Sys2Proof.Machine

theorem Only.host (s : State) (x : HostPort) : Only [.host] s { s with host := x } :=
  ⟨rfl, fun p hp => by cases p <;> simp_all [Part.same]⟩

/-- A write to a page that masters reach and that is not being reset is carried out. -/
theorem onWrite_open {page : Nat} {s : State} (reach : s.reachable = true) (srst : s.srst page = false) (k : Out) :
    onWrite page s k = k := by
  simp [onWrite, reach, srst]

/-- A write to the header of a page that is not locked is carried out. -/
theorem onHeader_open {page : Nat} {s : State} (reach : s.reachable = true) (srst : s.srst page = false)
    (unlocked : s.pageLocked page = false) (off : Nat) (k : Out) : onHeader page off s k = k := by
  simp [onHeader, onWrite_open reach srst, unlocked]

/-- A write to the header of a locked page is ACQ_BUSY. -/
theorem onHeader_locked {page : Nat} {s : State} (reach : s.reachable = true) (srst : s.srst page = false)
    (locked : s.pageLocked page = true) (off : Nat) (k : Out) :
    onHeader page off s k = .next (s.lockedWrite page off) := by
  simp [onHeader, onWrite_open reach srst, locked]

/-- An event that is due comes about. -/
theorem whenDue_of {due : Bool} (h : due = true) (s t : State) : whenDue due s t = .next t := by
  simp [whenDue, h]

/-- An event that is not due leaves the state as it is. -/
theorem whenDue_not {due : Bool} (h : due = false) (s t : State) : whenDue due s t = .next s := by
  simp [whenDue, h]

/-- An error recorded: what changes, and that COUNT of its page is above 0. -/
theorem State.err_recorded {s : State} (w : Table.wf regInit s.regs = true) (page info : Nat) {code : Nat}
    (hc : code < 2 ^ 16) : Only [.regs, .con, .host] s (s.err page code info) ∧
      RegsBut (errRegs page) s (s.err page code info) ∧
      0 < bits ((s.err page code info).reg (page + 0x18)) 31 16 :=
  ⟨s.err_only page code info, State.err_regsBut w page code info, State.err_count_pos w page info hc⟩

theorem State.lockedWrite_recorded {s : State} (w : Table.wf regInit s.regs = true) (page off : Nat) :
    Only [.regs, .con, .host] s (s.lockedWrite page off) ∧ RegsBut (errRegs acqPage) s (s.lockedWrite page off) ∧
      0 < bits ((s.lockedWrite page off).reg (acqPage + 0x18)) 31 16 :=
  State.err_recorded w _ _ (by decide)

/-! ## Messages (R60) -/

/-- A message on a vector that is open is sent. -/
theorem State.msix_open {s : State} {vec : Nat} (fn : s.host.fnMask = false) (vecOpen : vec ∉ s.host.masked) :
    s.msix vec = { s with host := { s.host with sent := s.host.sent ++ [vec] } } := by
  simp [State.msix, fn, vecOpen]

/-- The message after a register of page p's interrupts was stored in state t: none with no cause pending and enabled,
and on an open vector one. -/
theorem State.resend_setReg {s : State} (w : Table.wf regInit s.regs = true) (page a : Nat) (v : Word)
    (ha : a ≠ page + 0x14) :
    let t := s.setReg a v
    Only [.regs, .host] s (t.resend page) ∧ RegsBut [a] s (t.resend page) ∧ (t.resend page).reg a = v ∧
    (t.reg (page + 0xC) &&& t.reg (page + 0x10) = 0 → (t.resend page).host = s.host) ∧
    (t.reg (page + 0xC) &&& t.reg (page + 0x10) ≠ 0 → s.host.fnMask = false →
      bits (s.reg (page + 0x14)) 7 0 ∉ s.host.masked →
      (t.resend page).host = { s.host with sent := s.host.sent ++ [bits (s.reg (page + 0x14)) 7 0] }) := by
  intro t
  have stored : Only [.regs] s t := s.setReg_only a v
  have message : Only [.host] t (t.resend page) := by
    unfold State.resend
    split
    · exact Only.refl _ t
    · exact t.msix_only _
  have regs : (t.resend page).regs = t.regs := message.2 .regs (by simp)
  have vec : t.pageVec page = bits (s.reg (page + 0x14)) 7 0 := by
    rw [State.pageVec, State.reg_setReg w, if_neg ha.symm]
  refine ⟨(stored.mono (by simp)).trans (message.mono (by simp)),
    fun b hb => (State.reg_congr regs b).trans (State.setReg_regsBut w a v b hb),
    (State.reg_congr regs a).trans (by rw [State.reg_setReg w, if_pos rfl]), fun none => ?_, fun some fn vecOpen => ?_⟩
  · rw [State.resend, State.pendingSet, if_pos none]; rfl
  · rw [State.resend, State.pendingSet, if_neg some, vec, State.msix_open (s := t) fn vecOpen]; rfl

/-- The pending messages of the vectors of l sent: no other pending bit changes, and the masks stay. -/
theorem State.foldl_sendPending (l : List Nat) (s : State) :
    let r := l.foldl State.sendPending s
    Only [.host] s r ∧ r.host.masked = s.host.masked ∧ r.host.fnMask = s.host.fnMask ∧
      ∀ v ∈ r.host.pendingBits, v ∈ s.host.pendingBits ∧ v ∉ l := by
  induction l generalizing s with
  | nil => exact ⟨Only.refl _ s, rfl, rfl, fun v hv => ⟨hv, by simp⟩⟩
  | cons a l ih =>
    obtain ⟨only, masked, fn, left⟩ := ih (s.sendPending a)
    have one : Only [.host] s (s.sendPending a) ∧ (s.sendPending a).host.masked = s.host.masked ∧
        (s.sendPending a).host.fnMask = s.host.fnMask ∧
        ∀ v ∈ (s.sendPending a).host.pendingBits, v ∈ s.host.pendingBits ∧ v ≠ a := by
      unfold State.sendPending
      split
      · exact ⟨Only.host s _, rfl, rfl, fun v hv => by simpa using hv⟩
      · rename_i h
        exact ⟨Only.refl _ s, rfl, rfl, fun v hv => ⟨hv, fun e => h (e ▸ hv)⟩⟩
    obtain ⟨only1, masked1, fn1, left1⟩ := one
    refine ⟨only1.trans only, masked.trans masked1, fn.trans fn1, fun v hv => ?_⟩
    obtain ⟨hv1, hl⟩ := left v hv
    exact ⟨(left1 v hv1).1, by simp [(left1 v hv1).2, hl]⟩

theorem State.unmaskFn_spec (s : State) : s.unmaskFn.host.fnMask = false ∧ s.unmaskFn.host.masked = s.host.masked ∧
    (∀ v ∈ s.unmaskFn.host.pendingBits, v ∈ s.host.masked) ∧ Only [.host] s s.unmaskFn := by
  obtain ⟨only, masked, fn, left⟩ := State.foldl_sendPending
    (s.host.pendingBits.filter fun v => decide (v ∉ s.host.masked)) { s with host := { s.host with fnMask := false } }
  refine ⟨fn, masked, fun v hv => ?_, (Only.host s { s.host with fnMask := false }).trans only⟩
  obtain ⟨pending, sent⟩ := left v hv
  by_contra h
  exact sent (List.mem_filter.mpr ⟨pending, decide_eq_true h⟩)

theorem State.unmaskVec_spec (s : State) (v : Nat) :
    v ∉ (s.unmaskVec v).host.masked ∧
    (∀ w : Nat, w ≠ v → (w ∈ (s.unmaskVec v).host.masked ↔ w ∈ s.host.masked)) ∧
    (s.host.fnMask = false → v ∈ s.host.pendingBits →
      (s.unmaskVec v).host.sent = s.host.sent ++ [v] ∧ v ∉ (s.unmaskVec v).host.pendingBits) ∧
    (v ∉ s.host.pendingBits → (s.unmaskVec v).host.sent = s.host.sent) ∧ Only [.host] s (s.unmaskVec v) := by
  obtain ⟨only, masked⟩ : Only [.host] s (s.unmaskVec v) ∧
      (s.unmaskVec v).host.masked = s.host.masked.filter (· ≠ v) := by
    unfold State.unmaskVec State.sendPending
    dsimp only
    split_ifs <;> exact ⟨Only.host s _, rfl⟩
  refine ⟨by simp [masked], fun w hw => by simp [masked, hw], fun fn pending => ?_, fun none => ?_, only⟩
  · simp [State.unmaskVec, State.sendPending, fn, pending]
  · simp [State.unmaskVec, State.sendPending, none]

/-! ## PG_ERR_CLR (R49) -/

theorem State.clearErr_spec {s : State} (w : Table.wf regInit s.regs = true) {page : Nat}
    (aligned : page % 0x1000 = 0) :
    (s.clearErr page).reg (page + 0x18) = 0 ∧ (s.clearErr page).reg (page + 0x1C) = 0 ∧
    Only [.regs] s (s.clearErr page) ∧
    RegsBut [page + 0x18, page + 0x1C, Reg.addr .glbAlert] s (s.clearErr page) := by
  let t := (s.setReg (page + 0x18) 0).setReg (page + 0x1C) 0
  have wt : Table.wf regInit t.regs = true := State.wf_setReg (State.wf_setReg w)
  have only : Only [.regs] s t := (State.setReg_only _ _ _).trans (State.setReg_only _ _ _)
  have regs : RegsBut [page + 0x18, page + 0x1C, Reg.addr .glbAlert] s t :=
    ((State.setReg_regsBut w _ _).mono (by simp)).trans ((State.setReg_regsBut (State.wf_setReg w) _ _).mono (by simp))
  have code : t.reg (page + 0x18) = 0 := by
    rw [State.reg_setReg (State.wf_setReg w), if_neg (by omega), State.reg_setReg w, if_pos rfl]
  have info : t.reg (page + 0x1C) = 0 := by rw [State.reg_setReg (State.wf_setReg w), if_pos rfl]
  have alert : ∀ i, (t.alert i false).reg (page + 0x18) = 0 ∧ (t.alert i false).reg (page + 0x1C) = 0 ∧
      Only [.regs] s (t.alert i false) ∧
      RegsBut [page + 0x18, page + 0x1C, Reg.addr .glbAlert] s (t.alert i false) := fun i => by
    have other := State.setReg_regsBut wt (Reg.addr .glbAlert) (setBits (t.rd .glbAlert) i i (b2n false))
    have far : ∀ o, o = 0x18 ∨ o = 0x1C → page + o ∉ [Reg.addr .glbAlert] := fun o ho => by
      rw [List.mem_singleton, show Reg.addr .glbAlert = 0x40 from rfl]; omega
    exact ⟨(other _ (far _ (.inl rfl))).trans code, (other _ (far _ (.inr rfl))).trans info,
      only.trans (t.alert_only _ _), regs.trans (RegsBut.mono other (by simp))⟩
  unfold State.clearErr
  dsimp only
  split_ifs
  · exact alert 4
  · exact alert 3
  · exact ⟨code, info, only, regs⟩

end Sys2Proof.Machine
end

section
namespace Sys2Proof.Machine

theorem pageExists_aligned {page : Nat} (h : pageExists page = true) : page % 0x1000 = 0 := by
  simp only [pageExists, Bool.and_eq_true, decide_eq_true_eq] at h
  exact h.1

/-- Settles O30: a header write of a page that is open stores its register and sends at most one message, a locked page
records ACQ_BUSY, and an unmasked vector sends what waited. -/
theorem interruptRegisters : Obligations.InterruptRegisters := by
  unfold Obligations.InterruptRegisters
  intro page v val s canon there reach vec open_ busy
  have w := canon.1
  have unit : ∀ k, guardUnit (pageExists page) k = k := guardUnit_of there
  refine ⟨fun srst unlocked => ⟨?_, ?_⟩, fun clear unlocked => ?_, fun hv => ?_, ⟨_, rfl, s.unmaskFn_spec⟩,
    fun srst locked => ⟨⟨_, (unit _).trans (onHeader_locked reach srst locked _ _), State.lockedWrite_recorded w _ _⟩,
      ⟨_, (unit _).trans (onHeader_locked reach srst locked _ _), State.lockedWrite_recorded w _ _⟩, fun clear => ?_⟩⟩
  · obtain ⟨only, regs, reads, none, some⟩ :=
      State.resend_setReg w page (page + 0xC) (s.reg (page + 0xC) &&& ~~~val) (by omega)
    rw [State.reg_setReg w, if_pos rfl, State.reg_setReg w, if_neg (by omega)] at none some
    exact ⟨_, (unit _).trans (onHeader_open reach srst unlocked _ _), reads, regs, only, none,
      fun h o => some h o.1 o.2⟩
  · obtain ⟨only, regs, reads, none, some⟩ := State.resend_setReg w page (page + 0x10) val (by omega)
    rw [State.reg_setReg w, if_neg (by omega), State.reg_setReg w, if_pos rfl] at none some
    exact ⟨_, (unit _).trans (onHeader_open reach srst unlocked _ _), reads, regs, only, none,
      fun h o => some h o.1 o.2⟩
  · refine ⟨s.clearErr page, ?_, State.clearErr_spec w (pageExists_aligned there)⟩
    refine (unit _).trans ((whenDue_of (by simp [reach, clear]) _ _).trans ?_)
    simp [unlocked]
  · exact ⟨_, (guardUnit_of (decide_eq_true hv) _).trans (whenDue_of reach _ _), s.unmaskVec_spec v⟩
  · refine ⟨s.lockedWrite page 0x20, ?_, State.lockedWrite_recorded w _ _⟩
    refine (unit _).trans ((whenDue_of (by simp [reach, clear]) _ _).trans ?_)
    simp [locked]

end Sys2Proof.Machine
end

section
/-! ## The management chain (R68 to R72) -/

namespace Sys2Proof.Machine

theorem Only.chain (s : State) (x : Chain) : Only [.chain] s { s with chain := x } :=
  ⟨rfl, fun p hp => by cases p <;> simp_all [Part.same]⟩

/-- The bits of a frame: start bit, ID, even parity, stop bit (R69). -/
theorem chainFrame_bits (id : Byte) : (chainFrame id).getLsbD 0 = false ∧ (chainFrame id).extractLsb' 1 8 = id ∧
    (chainFrame id).getLsbD 10 = true ∧ b2n ((chainFrame id).getLsbD 9) = ones id % 2 := by
  have bound := id.isLt
  have parity : ones id % 2 < 2 := Nat.mod_lt _ (by decide)
  unfold chainFrame
  generalize ones id % 2 = p at parity
  have value : id.toNat * 2 + p * 2 ^ 9 + 2 ^ 10 < 2 ^ 11 := by omega
  refine ⟨?_, BitVec.eq_of_toNat_eq ?_, ?_, ?_⟩
  · simp only [BitVec.getLsbD_ofNat, Nat.testBit_eq_decide_div_mod_eq]
    simp; omega
  · rw [BitVec.extractLsb'_toNat, BitVec.toNat_ofNat, Nat.mod_eq_of_lt value, Nat.shiftRight_eq_div_pow]
    omega
  · simp only [BitVec.getLsbD_ofNat, Nat.testBit_eq_decide_div_mod_eq]
    simp; omega
  · simp only [BitVec.getLsbD_ofNat, Nat.testBit_eq_decide_div_mod_eq, b2n]
    simp; split <;> omega

theorem frameValid_iff (f : BitVec 11) (idle : Bool) : frameValid f idle = true ↔
    idle = true ∧ f.getLsbD 10 = true ∧ b2n (f.getLsbD 9) = ones (f.extractLsb' 1 8) % 2 := by
  simp [frameValid, and_assoc]

/-- An ID taken stands, and nothing but the ID, VALID and the frame timer changes. -/
theorem Chain.take_spec (c : Chain) (id : Byte) :
    ∃ ns, c.take id = { c with id := id, valid := true, timerNs := ns } := by
  unfold Chain.take
  split
  · rename_i h
    simp only [Bool.and_eq_true, decide_eq_true_eq] at h
    exact ⟨c.timerNs, by rw [← h.1, ← h.2]⟩
  · exact ⟨1000, rfl⟩

/-- Settles O25: `take` stores the ID of the head and of a frame that is taken, a frame that is not valid only ends the
count, and the frame sent has the bits of R69. -/
theorem chainGivesIds : Obligations.ChainGivesIds := by
  unfold Obligations.ChainGivesIds
  intro f idle s canon aon id good
  have arrives (start : f.getLsbD 0 = false) : (s.aon && !f.getLsbD 0) = true := by rw [aon, start]; rfl
  refine ⟨fun passed unstable => ?_, fun start valid unstable notLast => ?_, fun start valid stable notLast own => ?_,
    fun start invalid => ?_, fun valid timer => ?_⟩
  · obtain ⟨ns, taken⟩ := s.chain.take_spec (BitVec.ofNat 8 (s.pins.idbase.toNat * 16))
    have small := s.pins.idbase.isLt
    refine ⟨_, whenDue_of (by simp [aon, passed, unstable]) _ _, ?_, rfl, rfl, ?_, Only.chain s _⟩
    · rw [taken, BitVec.toNat_ofNat]; omega
    · rw [taken]
  · obtain ⟨ns, taken⟩ := ({ s.chain with run := s.chain.count id, last := id } : Chain).take_spec (id + 1)
    have step : exec (.chainFrame f idle) s = .next (s.chainUnstable id) :=
      (whenDue_of (arrives start) _ _).trans (by simp [(frameValid_iff f idle).mpr valid, unstable, id])
    simp only [State.chainUnstable, notLast, if_false, taken] at step
    exact ⟨_, step, rfl, rfl, rfl, rfl, Only.chain s _⟩
  · have step : exec (.chainFrame f idle) s = .next (s.chainStable id) :=
      (whenDue_of (arrives start) _ _).trans (by simp [(frameValid_iff f idle).mpr valid, stable, id])
    rw [State.chainStable, if_pos ⟨notLast, own⟩] at step
    exact ⟨_, step, rfl, Only.chain s _⟩
  · obtain ⟨only, regs, count⟩ := State.err_recorded (s := { s with chain := { s.chain with run := 0 } }) canon.1
      glbPage id.toNat (code := 0x0112) (by decide)
    refine ⟨_, (whenDue_of (arrives start) _ _).trans ?_, only.2 .chain (by simp), count, regs,
      ((Only.chain s _).mono (by simp)).trans (only.mono (by simp))⟩
    simp [Bool.eq_false_iff.mpr fun h => invalid ((frameValid_iff f idle).mp h), id]
  · refine ⟨_, whenDue_of (by simp [aon, valid, timer]) _ _, rfl, ?_, chainFrame s.chain.id, rfl,
      chainFrame_bits s.chain.id⟩
    exact ⟨rfl, fun p hp => by cases p <;> simp_all [Part.same]⟩

end Sys2Proof.Machine
end

section
/-! ## Plaintext DDR within one line (R310, R314, R327) -/

namespace Sys2Proof.Machine

/-- Bytes read are those that stand at their addresses. -/
theorem Memory.readBytes_eq {m : Memory} {a : Nat} {l : List Byte}
    (h : ∀ i < l.length, m.read (a + i) = l.getD i 0) : m.readBytes a l.length = l := by
  refine List.ext_getElem (by simp) fun i hi hl => ?_
  have at_ := (Memory.readBytes_getD m l.length a i hl).trans (h i hl)
  simpa [List.getD_eq_getElem?_getD, List.getElem?_eq_getElem hi, List.getElem?_eq_getElem hl] using at_

/-- A part of the bytes read. -/
theorem Memory.readBytes_part (m : Memory) (a : Nat) {o k n : Nat} (h : o + k ≤ n) :
    ((m.readBytes a n).drop o).take k = m.readBytes (a + o) k := by
  have len : (((m.readBytes a n).drop o).take k).length = k := by simp; omega
  have e := Memory.readBytes_eq (m := m) (a := a + o) (l := ((m.readBytes a n).drop o).take k) fun i hi => by
    rw [len] at hi
    rw [Nat.add_assoc, ← Memory.readBytes_getD m n a (o + i) (by omega)]
    simp [List.getD_eq_getElem?_getD, List.getElem?_take_of_lt hi, List.getElem?_drop]
  rw [len] at e
  exact e.symm

/-- A line with d put at offset o. -/
theorem splice_getD {line d : List Byte} {o : Nat} (h : o + d.length ≤ line.length) (i : Nat) :
    (splice line o d).getD i 0 = if o ≤ i ∧ i < o + d.length then d.getD (i - o) 0 else line.getD i 0 := by
  have first : (line.take o).length = o := by simp; omega
  simp only [splice, List.getD_eq_getElem?_getD]
  split
  · rw [List.append_assoc, List.getElem?_append_right (by omega), List.getElem?_append_left (by omega), first]
  · by_cases before : i < o
    · rw [List.append_assoc, List.getElem?_append_left (by omega), List.getElem?_take_of_lt before]
    · rw [List.getElem?_append_right (by simp; omega), List.getElem?_drop]
      congr 2
      simp; omega

theorem splice_length {line d : List Byte} {o : Nat} (h : o + d.length ≤ line.length) :
    (splice line o d).length = line.length := by
  simp [splice]; omega

/-- Bytes put in their line are stored, and no other byte of the memory changes. -/
theorem Memory.stored_splice {m : Memory} (w : m.wf = true) {a : Nat} {d : List Byte} (h : a % 64 + d.length ≤ 64) :
    let q := m.writeBytes (a / 64 * 64) (splice (m.readBytes (a / 64 * 64) 64) (a % 64) d)
    q.readBytes a d.length = d ∧ ∀ b : Nat, b < a ∨ a + d.length ≤ b → q.read b = m.read b := by
  intro q
  have fits : a % 64 + d.length ≤ (m.readBytes (a / 64 * 64) 64).length := by simpa using h
  have reads : ∀ b, q.read b = if a ≤ b ∧ b < a + d.length then d.getD (b - a) 0 else m.read b := fun b => by
    rw [Memory.read_writeBytes w, splice_length fits, Memory.readBytes_length, splice_getD fits]
    by_cases line : a / 64 * 64 ≤ b ∧ b < a / 64 * 64 + 64
    · rw [if_pos line]
      by_cases part : a ≤ b ∧ b < a + d.length
      · rw [if_pos part, if_pos (by omega), show b - a / 64 * 64 - a % 64 = b - a by omega]
      · rw [if_neg part, if_neg (by omega), Memory.readBytes_getD _ _ _ _ (by omega)]
        congr 1; omega
    · rw [if_neg line, if_neg (by omega)]
  refine ⟨Memory.readBytes_eq fun i hi => ?_, fun b hb => ?_⟩
  · rw [reads, if_pos (by omega), Nat.add_sub_cancel_left]
  · rw [reads, if_neg (by omega)]

/-- A request of bytes within one line has one part. -/
theorem lineParts_one {fuel a n : Nat} (some : 0 < n) (line : a % 64 + n ≤ 64) :
    lineParts (fuel + 2) a n = [(a, n)] := by
  simp [lineParts, show n ≠ 0 by omega, show min n (64 - a % 64) = n by omega]

theorem lineParts_zero (fuel a : Nat) : lineParts fuel a 0 = [] := by
  cases fuel <;> simp [lineParts]

/-- A range within a line that holds no byte of a model range holds none. -/
theorem State.inModel_line {s : State} {a n : Nat} (outside : s.inModel (a / 64 * 64) 64 = false)
    (line : a % 64 + n ≤ 64) : s.inModel a n = false := by
  simp only [State.inModel, Bool.and_eq_false_iff] at outside ⊢
  refine outside.imp_right fun none => ?_
  simp only [List.any_eq_false, Bool.and_eq_true, decide_eq_true_eq] at none ⊢
  exact fun e he => fun ⟨below, above⟩ => none e he ⟨by omega, by omega⟩

section
variable {s : State} {r : Requester} {q a n : Nat}

/-- A request wakes its channel, and no byte changes. -/
theorem State.meetChannel_eq (s : State) (a : Nat) :
    ∃ m : Memories, s.meetChannel a = { s with mem := m } ∧ m.ddr = s.mem.ddr ∧ m.larder = s.mem.larder := by
  unfold State.meetChannel
  split
  · exact ⟨_, rfl, rfl, rfl⟩
  · exact ⟨s.mem, rfl, rfl, rfl⟩

@[simp] theorem State.dramFails_clean (s : State) (c : Nat) : s.dramFails c .clean = false := rfl
@[simp] theorem State.dramMeets_clean (s : State) (c : Nat) : s.dramMeets c .clean = s := rfl
@[simp] theorem State.decrypt_zero (s : State) (a : Nat) (d : List Byte) : s.decrypt 0 a d = d := rfl
@[simp] theorem State.encrypt_zero (s : State) (a : Nat) (d : List Byte) : s.encrypt 0 a d = d := rfl

/-- What a request for a plaintext line finds once its channel is awake. -/
theorem State.Plain.awake {rd wr : Bool} {lo hi : Nat} (plain : s.Plain r q lo hi rd wr) (above : lo ≤ a)
    (below : a < hi) :
    s.encRefuse r 0 a rd wr = none ∧ (s.meetChannel a).useSlot 0 a = 0 ∧ (s.meetChannel a).engineTakes a = true ∧
      ∀ b, lo ≤ b → b < hi → (s.meetChannel a).integ b = false := by
  obtain ⟨-, -, lock, addr⟩ := plain
  obtain ⟨m, meets, -⟩ := s.meetChannel_eq a
  rw [meets]
  refine ⟨(addr a above below).1, ?_, (addr a above below).2.2, fun b lo hi => (addr b lo hi).2.1⟩
  show s.useSlot 0 a = 0
  simp [State.useSlot, lock]

/-- A plaintext read of a line gives its stored bytes. -/
theorem State.lineRead_plain (plain : s.Plain r q (a / 64 * 64) (a / 64 * 64 + 64) true false) :
    s.lineRead r 0 a true false .clean = (.ok (s.rawLine a), s.meetChannel a) := by
  obtain ⟨refuse, slot, takes, integ⟩ := plain.awake (a := a) (by omega) (by omega)
  obtain ⟨m, meets, ddr, -⟩ := s.meetChannel_eq a
  have line : (s.meetChannel a).rawLine a = s.rawLine a := by rw [meets, State.rawLine, ddr, State.rawLine]
  have unchecked : (s.meetChannel a).checked a = false := by simp [State.checked, integ a (by omega) (by omega)]
  simp only [State.lineRead, plain.1, refuse, slot, takes, unchecked, State.dramFails_clean, State.dramMeets_clean,
    State.decrypt_zero, line, Bool.not_true, Bool.or_self, Bool.false_and, Bool.false_eq_true, if_false]

/-- Bytes within a plaintext line put in it. -/
theorem State.linePut_plain (plain : s.Plain r q (a / 64 * 64) (a / 64 * 64 + 64) false true) (d : List Byte) :
    s.linePut r 0 a d .clean =
      (.ok [], (s.meetChannel a).ddrPut (a / 64 * 64) (splice (s.rawLine a) (a % 64) d)) := by
  obtain ⟨refuse, slot, takes, integ⟩ := plain.awake (a := a) (by omega) (by omega)
  obtain ⟨m, meets, ddr, -⟩ := s.meetChannel_eq a
  have line : (s.meetChannel a).rawLine (a / 64 * 64) = s.rawLine a := by
    rw [meets, State.rawLine, ddr, State.rawLine, Nat.mul_div_cancel _ (by decide)]
  have unchecked : (s.meetChannel a).checked a = false := by simp [State.checked, integ a (by omega) (by omega)]
  have untagged : ∀ x, ((s.meetChannel a).ddrPut (a / 64 * 64) x).integ (a / 64 * 64) = false := fun x =>
    integ _ (by omega) (by omega)
  simp only [State.linePut, plain.1, refuse, slot, takes, unchecked, State.dramFails_clean, State.dramMeets_clean,
    State.decrypt_zero, State.encrypt_zero, line, untagged, Bool.not_true, Bool.or_self, Bool.and_false,
    Bool.false_and, Bool.false_eq_true, if_false, ite_self]

/-- A write outside the model ranges makes no undo entry. -/
theorem State.lineWrite_plain (outside : s.inModel (a / 64 * 64) 64 = false)
    (plain : s.Plain r q (a / 64 * 64) (a / 64 * 64 + 64) false true) (d : List Byte) :
    s.lineWrite r 0 a d .clean =
      (.ok [], (s.meetChannel a).ddrPut (a / 64 * 64) (splice (s.rawLine a) (a % 64) d)) := by
  have before : s.undoBefore r 0 a = s := by simp [State.undoBefore, outside]
  rw [State.lineWrite, before, State.linePut_plain plain]

end

end Sys2Proof.Machine
end

section
/-! ## BAR2 (R35, R38, R43) -/

namespace Sys2Proof.Machine

section
variable {s : State} {r : Requester} {q a n : Nat}

/-- A plaintext read within one line. -/
theorem State.ddrRead_plain (line : a % 64 + n ≤ 64)
    (plain : s.Plain r q (a / 64 * 64) (a / 64 * 64 + 64) true false) :
    ∃ m : Memories, s.ddrRead r 0 a n .clean = (.ok (s.mem.ddr.readBytes a n), { s with mem := m }) ∧
      m.ddr = s.mem.ddr ∧ m.larder = s.mem.larder := by
  unfold State.ddrRead
  rcases Nat.eq_zero_or_pos n with rfl | some
  · exact ⟨s.mem, by rw [lineParts_zero]; rfl, rfl, rfl⟩
  · obtain ⟨m, meets, ddr, larder⟩ := s.meetChannel_eq a
    refine ⟨m, ?_, ddr, larder⟩
    rw [lineParts_one some line, State.ddrReadParts, State.lineRead_plain plain, meets]
    simp only [State.ddrReadParts, State.rawLine, List.nil_append, Memory.readBytes_part _ _ line]
    rw [show a / 64 * 64 + a % 64 = a by omega]

/-- A host write outside the model ranges leaves protection alone (R484). -/
theorem State.hostTouches_outside (outside : s.inModel a n = false) : s.hostTouches a n = s := by
  simp [State.hostTouches, outside]

/-- A plaintext write by BAR2 within one line outside the model ranges. -/
theorem State.ddrWrite_plain (w : s.mem.ddr.wf = true) {d : List Byte} (line : a % 64 + d.length ≤ 64)
    (outside : s.inModel (a / 64 * 64) 64 = false)
    (plain : s.Plain r q (a / 64 * 64) (a / 64 * 64 + 64) false true) :
    ∃ t, s.ddrWrite r 0 a d .clean = (.ok [], t) ∧ DdrStored a d s t ∧ t.mem.larder = s.mem.larder ∧
      Only [.mem, .svc] s t := by
  unfold State.ddrWrite
  rcases Nat.eq_zero_or_pos d.length with none | some
  · obtain rfl := List.length_eq_zero_iff.mp none
    exact ⟨s, by rw [List.length_nil, lineParts_zero]; rfl, ⟨rfl, fun _ _ => rfl⟩, rfl, Only.refl _ s⟩
  · obtain ⟨m, meets, ddr, larder⟩ := (s.snoop a).meetChannel_eq a
    let t := ((s.snoop a).meetChannel a).ddrPut (a / 64 * 64) (splice (s.rawLine a) (a % 64) d)
    have write : (s.snoop a).lineWrite r 0 a d .clean = (.ok [], t) := 
      State.lineWrite_plain (s := s.snoop a) outside plain d
    have untouched : t.inModel a d.length = false := by
      simp only [t, meets]
      exact State.inModel_line outside line
    refine ⟨t, ?_, ?_, ?_, ?_⟩
    · rw [lineParts_one some line, State.ddrWriteParts, List.take_length, write]
      simp only [State.hostTouches_outside untouched, ite_self, State.ddrWriteParts]
    · have stored : t.mem.ddr = s.mem.ddr.writeBytes (a / 64 * 64) (splice (s.rawLine a) (a % 64) d) := by
        simp only [t, meets, State.ddrPut, ddr]; rfl
      rw [DdrStored, stored]
      exact Memory.stored_splice w line
    · simp only [t, meets, State.ddrPut, larder]; rfl
    · simp only [t, meets, State.ddrPut]
      have snooped : Only [.svc] s (s.snoop a) := Only.svc s _
      exact (snooped.mono (by simp)).trans ((Only.mem (s.snoop a) _).mono (by simp))

end

/-- The state as an access through BAR2 finds it: the PCIe link is out of L1. -/
def State.linkAwake (s : State) : State := { s with host := { s.host with cfg := { s.host.cfg with l1 := false } } }

theorem State.linkAwake_eq (s : State) :
    ({ s with host := { s.host with cfg := { s.host.cfg with l1 := false } } } : State) = s.linkAwake := rfl

theorem State.linkAwake_only (s : State) : Only [.host] s s.linkAwake := Only.host s _

section
variable {s : State} {off size : Nat} {d : List Byte}

/-- In D3hot a read is an Unsupported Request. -/
theorem State.bar2Read_d3hot (d3 : s.host.cfg.d3hot = true) :
    s.bar2Read off size .clean = { s.linkAwake.unsupported s.host.cfg.bar2 off with
      host := { (s.linkAwake.unsupported s.host.cfg.bar2 off).host with readData := [], ca := false } } := by
  simp only [State.bar2Read, State.linkAwake_eq]
  simp only [d3, if_true]

/-- In D3hot a write is an Unsupported Request. -/
theorem State.bar2Write_d3hot (d3 : s.host.cfg.d3hot = true) :
    s.bar2Write off d .clean = s.linkAwake.unsupported s.host.cfg.bar2 off := by
  simp only [State.bar2Write, State.linkAwake_eq]
  exact if_pos d3

/-- A recovery pause turns away no access outside the model ranges. -/
theorem State.bar2Paused_outside {a n : Nat} (outside : s.inModel a n = false) : s.bar2Paused a n = false := by
  simp [State.bar2Paused, outside]

/-- A read of the window by a function in D0 within the usable DDR goes to the engine. -/
theorem State.bar2Read_within (open_ : s.bar2Open = true) (d0 : s.host.cfg.d3hot = false)
    (within : s.bar2Addr off + size ≤ s.ddrCap) (outside : s.inModel (s.bar2Addr off) size = false)
    {l : List Byte} {t : State}
    (read : s.linkAwake.ddrRead s.bar2Req (s.qkey 0) (s.bar2Addr off) size .clean = (.ok l, t)) :
    s.bar2Read off size .clean = t.answer (wordsOf size l) := by
  have open' : s.linkAwake.bar2Open = true := open_
  have within' : ¬ s.linkAwake.ddrCap < s.bar2Addr off + size := Nat.not_lt.mpr within
  have unpaused := State.bar2Paused_outside (s := s.linkAwake) outside
  have read' : s.linkAwake.ddrRead s.linkAwake.bar2Req (s.linkAwake.qkey 0) (s.bar2Addr off) size .clean = (.ok l, t) :=
    read
  simp only [State.bar2Read, State.linkAwake_eq]
  simp only [d0, open', within', unpaused, read', Bool.not_true,
    Bool.false_eq_true, if_false]

/-- A read of the window past the usable DDR is aborted and recorded. -/
theorem State.bar2Read_beyond (open_ : s.bar2Open = true) (d0 : s.host.cfg.d3hot = false)
    (beyond : s.ddrCap < s.bar2Addr off + size) :
    s.bar2Read off size .clean = (s.linkAwake.bar2Err 0x9003 off).completerAbort off := by
  have open' : s.linkAwake.bar2Open = true := open_
  have beyond' : s.linkAwake.ddrCap < s.bar2Addr off + size := beyond
  simp only [State.bar2Read, State.linkAwake_eq]
  simp only [d0, open', beyond', Bool.not_true, Bool.false_eq_true, if_false,
    if_true]

/-- A write of the window by a function in D0 within the usable DDR goes to the engine. -/
theorem State.bar2Write_within (open_ : s.bar2Open = true) (d0 : s.host.cfg.d3hot = false)
    (within : s.bar2Addr off + d.length ≤ s.ddrCap) (outside : s.inModel (s.bar2Addr off) d.length = false)
    {l : List Byte} {t : State}
    (write : s.linkAwake.ddrWrite s.bar2Req (s.qkey 0) (s.bar2Addr off) d .clean = (.ok l, t)) :
    s.bar2Write off d .clean = t := by
  have open' : s.linkAwake.bar2Open = true := open_
  have within' : ¬ s.linkAwake.ddrCap < s.bar2Addr off + d.length := Nat.not_lt.mpr within
  have unpaused := State.bar2Paused_outside (s := s.linkAwake) outside
  have write' : s.linkAwake.ddrWrite s.linkAwake.bar2Req (s.linkAwake.qkey 0) (s.bar2Addr off) d .clean = (.ok l, t) :=
    write
  simp only [State.bar2Write, State.linkAwake_eq]
  simp only [d0, open', within', unpaused, write', Bool.not_true,
    Bool.false_eq_true, if_false]

/-- A write of the window past the usable DDR is dropped and recorded. -/
theorem State.bar2Write_beyond (open_ : s.bar2Open = true) (d0 : s.host.cfg.d3hot = false)
    (beyond : s.ddrCap < s.bar2Addr off + d.length) :
    s.bar2Write off d .clean = s.linkAwake.bar2Err 0x9003 off := by
  have open' : s.linkAwake.bar2Open = true := open_
  have beyond' : s.linkAwake.ddrCap < s.bar2Addr off + d.length := beyond
  simp only [State.bar2Write, State.linkAwake_eq]
  simp only [d0, open', beyond', Bool.not_true, Bool.false_eq_true, if_false,
    if_true]

end

/-- An uncorrectable error stands in the status of AER. -/
theorem State.aerError_spec (s : State) {n : Nat} (h : n < 32) (a : DWord) :
    bit (s.aerError n a).host.cfg.uncStatus n = true ∧ Only [.host, .free] s (s.aerError n a) := by
  refine ⟨(bit_setBit _ _ _ h).trans (if_pos rfl), ?_⟩
  exact (((Only.free s _).trans (Only.free _ _)).mono (by simp)).trans ((Only.host _ _).mono (by simp))

theorem State.unsupported_spec (s : State) (base : DWord) (off : Nat) :
    (s.unsupported base off).host.ur = true ∧ bit (s.unsupported base off).host.cfg.uncStatus 20 = true ∧
      Only [.host, .free] s (s.unsupported base off) := by
  obtain ⟨status, only⟩ := s.aerError_spec (n := 20) (by decide) (base + BitVec.ofNat 64 off)
  exact ⟨rfl, status, only.trans ((Only.host _ _).mono (by simp))⟩

theorem State.completerAbort_spec (s : State) (off : Nat) :
    (s.completerAbort off).host.ca = true ∧ (s.completerAbort off).host.readData = [] ∧
      bit (s.completerAbort off).host.cfg.uncStatus 15 = true ∧ Only [.host, .free] s (s.completerAbort off) := by
  obtain ⟨status, only⟩ := s.aerError_spec (n := 15) (by decide) (s.host.cfg.bar2 + BitVec.ofNat 64 off)
  exact ⟨rfl, rfl, status, only.trans ((Only.host _ _).mono (by simp))⟩

end Sys2Proof.Machine
end

section
namespace Sys2Proof.Machine

/-- Settles O31: an access within a plaintext line is one part for the engine, which wakes the channel and moves the
bytes; past the usable DDR it is recorded, and in D3hot it is unsupported. -/
theorem bar2Accesses : Obligations.Bar2Accesses := by
  unfold Obligations.Bar2Accesses
  intro off size bytes s canon open_ up a outside d0 refused
  have w := canon.1
  obtain ⟨-, -, -, -, ddrWf, -⟩ := canon
  have place : a % 64 = off % 64 := by
    show (s.fld .pciBar2Win 10 0 * 2 ^ 30 + off) % 64 = off % 64
    omega
  have arrivesRead (fits : off + size ≤ 2 ^ 36) :
      exec (.bar2Read off size .clean) s = .next (s.bar2Read off size .clean) :=
    (guardUnit_of (decide_eq_true fits) _).trans (whenDue_of up _ _)
  have arrivesWrite (fits : off + bytes.length ≤ 2 ^ 36) :
      exec (.bar2Write ⟨off, .clean⟩ bytes) s = .next (s.bar2Write off bytes .clean) :=
    (guardUnit_of (decide_eq_true fits) _).trans (whenDue_of up _ _)
  have awake := s.linkAwake_only
  refine ⟨fun d0 line fits within outside plain => ?_, fun d0 line fits within outside plain => ?_,
    fun d0 fits beyond => ?_, fun d0 fits beyond => ?_, fun d3 => ⟨fun fits => ?_, fun fits => ?_⟩,
    fun q down => ⟨fun fits => ?_, fun fits => ?_⟩⟩
  · rw [← place] at line
    obtain ⟨m, read, ddr, larder⟩ := State.ddrRead_plain (s := s.linkAwake) (r := s.bar2Req) line plain
    rw [show (0 : Nat) = s.qkey 0 from plain.2.1.symm] at read
    refine ⟨_, (arrivesRead fits).trans (congrArg _ (State.bar2Read_within open_ d0 within
      (State.inModel_line outside line) read)), rfl, rfl, ddr, larder, ?_⟩
    exact ((awake.mono (by simp)).trans ((Only.mem _ m).mono (by simp))).trans ((State.answer_only _ _).mono (by simp))
  · rw [← place] at line
    obtain ⟨t, write, stored, larder, only⟩ :=
      State.ddrWrite_plain (s := s.linkAwake) (r := s.bar2Req) ddrWf line outside plain
    rw [show (0 : Nat) = s.qkey 0 from plain.2.1.symm] at write
    exact ⟨t, (arrivesWrite fits).trans (congrArg _ (State.bar2Write_within open_ d0 within
      (State.inModel_line outside line) write)), stored, larder, (awake.mono (by simp)).trans (only.mono (by simp))⟩
  · obtain ⟨ca, data, status, only⟩ := (s.linkAwake.bar2Err 0x9003 off).completerAbort_spec off
    obtain ⟨errOnly, -, count⟩ := State.err_recorded (s := s.linkAwake) w pciPage (off / 16 % 2 ^ 32) (code := 0x9003)
      (by decide)
    refine ⟨_, (arrivesRead fits).trans (congrArg _ (State.bar2Read_beyond open_ d0 beyond)), ca, data, status, ?_,
      ((awake.mono (by simp)).trans (errOnly.mono (by simp))).trans (only.mono (by simp))⟩
    rw [State.reg_congr (only.2 .regs (by simp))]
    exact count
  · obtain ⟨errOnly, -, count⟩ := State.err_recorded (s := s.linkAwake) w pciPage (off / 16 % 2 ^ 32) (code := 0x9003)
      (by decide)
    exact ⟨_, (arrivesWrite fits).trans (congrArg _ (State.bar2Write_beyond open_ d0 beyond)), count,
      (awake.mono (by simp)).trans (errOnly.mono (by simp))⟩
  · obtain ⟨ur, status, only⟩ := s.linkAwake.unsupported_spec s.host.cfg.bar2 off
    refine ⟨_, (arrivesRead fits).trans (congrArg _ (State.bar2Read_d3hot d3)), rfl, ur, status, ?_⟩
    exact ((awake.mono (by simp)).trans only).trans ((Only.host _ _).mono (by simp))
  · obtain ⟨ur, status, only⟩ := s.linkAwake.unsupported_spec s.host.cfg.bar2 off
    exact ⟨_, (arrivesWrite fits).trans (congrArg _ (State.bar2Write_d3hot d3)), ur, status,
      (awake.mono (by simp)).trans only⟩
  · exact (guardUnit_of (decide_eq_true fits) _).trans (whenDue_not down _ _)
  · exact (guardUnit_of (decide_eq_true fits) _).trans (whenDue_not down _ _)

end Sys2Proof.Machine
end

section
/-! ## Where registers lie (R44) -/

namespace Sys2Proof.Machine

theorem findReg_some {a : Nat} {r : Reg} {x : Nat × Nat × Nat} :
    ∀ {l : List Reg}, findReg a l = some (r, x) → r ∈ l ∧ r.row.locate a = some x
  | q :: l, h => by
    unfold findReg at h
    split at h
    · rename_i y found
      obtain ⟨rfl, rfl⟩ := Prod.mk.inj (Option.some.inj h)
      exact ⟨List.mem_cons_self, found⟩
    · obtain ⟨mem, found⟩ := findReg_some h
      exact ⟨List.mem_cons_of_mem _ mem, found⟩

/-- The highest address at which a row of the map lies. -/
def RegRow.last (w : RegRow) : Nat := w.base + w.s1 * (w.c1 - 1) + w.s2 * (w.c2 - 1) + w.s3 * (w.c3 - 1)

/-- A row lies at its indices' addresses only. -/
theorem RegRow.locate_spec {w : RegRow} {a i j k : Nat} (h : w.locate a = some (i, j, k)) :
    a = w.base + w.s1 * i + w.s2 * j + w.s3 * k ∧ i < w.c1 ∧ j < w.c2 ∧ k < w.c3 := by
  have part : ∀ d s : Nat, (if s = 0 then 0 else d / s) * s ≤ d := fun d s => by
    split
    · omega
    · exact Nat.div_mul_le_self d s
  unfold RegRow.locate at h
  by_cases above : a < w.base
  · rw [if_pos above] at h
    cases h
  · rw [if_neg above] at h
    extract_lets d i' d1 j' d2 k' d3 at h
    have hi : i' * w.s1 ≤ d := part d w.s1
    have hj : j' * w.s2 ≤ d1 := part d1 w.s2
    have hk : k' * w.s3 ≤ d2 := part d2 w.s3
    by_cases inside : d3 = 0 ∧ i' < w.c1 ∧ j' < w.c2 ∧ k' < w.c3
    · rw [if_pos inside] at h
      simp only [Option.some.injEq, Prod.mk.injEq] at h
      obtain ⟨rfl, rfl, rfl⟩ := h
      refine ⟨?_, inside.2⟩
      have zero : d2 - k' * w.s3 = 0 := inside.1
      rw [Nat.mul_comm w.s1, Nat.mul_comm w.s2, Nat.mul_comm w.s3]
      have h1 : d1 = d - i' * w.s1 := rfl
      have h2 : d2 = d1 - j' * w.s2 := rfl
      have h0 : d = a - w.base := rfl
      clear_value d i' d1 j' d2 k'
      omega
    · rw [if_neg inside] at h
      cases h

/-- A register found at an address lies there. -/
theorem regAt_spec {a i j k : Nat} {r : Reg} (h : regAt a = some (r, i, j, k)) :
    r ∈ allRegs ∧ r.row.base ≤ a ∧ a ≤ r.row.last := by
  obtain ⟨mem, found⟩ := findReg_some h
  obtain ⟨at_, hi, hj, hk⟩ := RegRow.locate_spec found
  have m1 := Nat.mul_le_mul_left r.row.s1 (Nat.le_sub_one_of_lt hi)
  have m2 := Nat.mul_le_mul_left r.row.s2 (Nat.le_sub_one_of_lt hj)
  have m3 := Nat.mul_le_mul_left r.row.s3 (Nat.le_sub_one_of_lt hk)
  exact ⟨mem, by omega, by unfold RegRow.last; omega⟩

/-! ## Writes to the PWR page (R56, R259) -/

/-- The registers of the PWR page whose write stores their bits and does nothing else. -/
def pwrStored : List Reg :=
  [.pwrLimits, .pwrLevel, .pwrEst, .pwrLast, .pwrSupply, .pwrUncore, .pwrPaceHolds, .pwrPaceTime, .pwrDeferMax,
   .pwrStarveLimit, .pwrIdle, .pwrThCfg, .pwrCoef, .pwrTileSleep, .pwrVdio, .pwrVdioStat]

theorem mem_pwr_of_span : ∀ r ∈ allRegs, 0x2000 ≤ r.row.last → r.row.base < 0x3000 →
    r = .pwrLedgerCfg ∨ r = .pwrHostCap ∨ r ∈ pwrStored := by decide +kernel

theorem State.writeReg_pwrStored (s : State) (i j k a : Nat) (v : Word) :
    ∀ r ∈ pwrStored, s.writeReg r i j k a v = s.storeRow r a v := by
  simp [pwrStored, State.writeReg, State.writeCtl, State.writeData, State.writeFabric, State.writeTim, State.writeRest,
    acqSetting]

/-- What a write to the PWR page can change: registers, the ledger, the console and the PCIe side, where what the I²C
target holds stays. -/
structure PwrWrite (s r : State) : Prop where
  only : Only [.regs, .led, .con, .host] s r
  nack : r.host.i2cNack = s.host.i2cNack
  off : r.host.i2cOff = s.host.i2cOff

section
variable {s t r : State}

theorem PwrWrite.refl (s : State) : PwrWrite s s := ⟨Only.refl _ s, rfl, rfl⟩

theorem PwrWrite.trans (a : PwrWrite s t) (b : PwrWrite t r) : PwrWrite s r :=
  ⟨a.only.trans b.only, b.nack.trans a.nack, b.off.trans a.off⟩

theorem PwrWrite.of_only (h : Only [.regs, .led, .con] s r) : PwrWrite s r := by
  have host : r.host = s.host := h.2 .host (by simp)
  exact ⟨h.mono (by simp), by rw [host], by rw [host]⟩

theorem PwrWrite.setReg (s : State) (a : Nat) (v : Word) : PwrWrite s (s.setReg a v) :=
  PwrWrite.of_only ((s.setReg_only a v).mono (by simp))

theorem PwrWrite.msix (s : State) (v : Nat) : PwrWrite s (s.msix v) := by
  refine ⟨(s.msix_only v).mono (by simp), ?_, ?_⟩ <;> (unfold State.msix; split_ifs <;> rfl)

theorem PwrWrite.raise (s : State) (page : Nat) (m : Word) : PwrWrite s (s.raise page m) := by
  unfold State.raise
  dsimp only
  split
  · exact (PwrWrite.setReg s _ _).trans (PwrWrite.msix _ _)
  · exact PwrWrite.setReg s _ _

theorem PwrWrite.resend (s : State) (page : Nat) : PwrWrite s (s.resend page) := by
  unfold State.resend
  split
  · exact PwrWrite.refl s
  · exact PwrWrite.msix s _

theorem PwrWrite.rebudget (s : State) : PwrWrite s s.rebudget := by
  unfold State.rebudget
  dsimp only
  split
  · exact PwrWrite.of_only ((Only.led s _).mono (by simp))
  · exact (PwrWrite.of_only ((Only.led s _).mono (by simp))).trans (PwrWrite.raise _ _ _)

/-- The PWR page holds no work, so that a disable only clears EN. -/
theorem State.disablePage_pwr (s : State) :
    s.disablePage 0x2000 = s.setReg 0x2004 (setBit (s.reg 0x2004) 0 false) := by
  simp [State.disablePage, State.stopBlock, State.workLeft, isLinkPage, isPorterPage, isEngPage, ldrPage, acqPage,
    svcPage, criPage]

theorem PwrWrite.beginReset (s : State) : PwrWrite s (s.beginReset 0x2000) := by
  have cleared : PwrWrite s (s.disablePage 0x2000) := by
    rw [State.disablePage_pwr]
    exact PwrWrite.setReg s _ _
  have reset := cleared.trans (PwrWrite.setReg (s.disablePage 0x2000) (0x2000 + 4) (setBit
    ((s.disablePage 0x2000).reg (0x2000 + 4)) 1 true))
  simp only [State.beginReset, ldrPage, Nat.reduceEqDiff, false_and, if_false]
  generalize (s.disablePage 0x2000).setReg _ _ = t at reset
  exact reset.trans ⟨(Only.host _ _).mono (by simp), rfl, rfl⟩

theorem PwrWrite.clearErr (s : State) (page : Nat) : PwrWrite s (s.clearErr page) := by
  have clear : PwrWrite s ((s.setReg (page + 0x18) 0).setReg (page + 0x1C) 0) :=
    (PwrWrite.setReg _ _ _).trans (PwrWrite.setReg _ _ _)
  unfold State.clearErr
  dsimp only
  split_ifs
  · exact clear.trans (PwrWrite.setReg _ _ _)
  · exact clear.trans (PwrWrite.setReg _ _ _)
  · exact clear

/-- A command behind the guards of a header register of the PWR page. -/
theorem PwrWrite.onHeader {off : Nat} {k : Out} (h : ∀ t, k = .next t → PwrWrite s t) :
    PwrWrite s ((guardUnit (pageExists 0x2000) (Machine.onHeader 0x2000 off s k)).orStay s) := by
  have unlocked : s.pageLocked 0x2000 = false := by simp [State.pageLocked, acqPage]
  rw [guardUnit_of (by decide), Machine.onHeader, Machine.onWrite, unlocked]
  split
  · cases k with
    | next t => exact h t rfl
    | _ => exact PwrWrite.refl s
  · exact PwrWrite.refl s

theorem PwrWrite.enablePage (s : State) : PwrWrite s (s.enablePage 0x2000) := by
  have set := PwrWrite.setReg s (0x2000 + 4) (setBit (s.reg (0x2000 + 4)) 0 true)
  unfold State.enablePage
  dsimp only
  generalize s.setReg _ _ = t at set
  split
  · exact set
  · exact set.trans ⟨(Only.host _ _).mono (by simp), rfl, rfl⟩

theorem PwrWrite.writePgCtrl (s : State) (v : Word) : PwrWrite s (s.writePgCtrl 0x2000 v) := by
  have stored : PwrWrite s (s.store (0x2000 + 4) 0xC v) := PwrWrite.setReg s _ _
  unfold State.writePgCtrl
  dsimp only
  split_ifs
  · refine PwrWrite.onHeader fun t h => ?_
    rw [show isTilePage 0x2000 = false by decide, Bool.false_and, if_neg Bool.false_ne_true] at h
    split_ifs at h
    · cases h
      exact PwrWrite.refl s
    · cases h
      exact PwrWrite.beginReset s
  · exact stored
  · exact stored.trans (PwrWrite.enablePage _)
  · rw [State.disablePage_pwr]
    exact stored.trans (PwrWrite.setReg _ _ _)

theorem PwrWrite.writeHeader (s : State) (o : Nat) (v : Word) : PwrWrite s (s.writeHeader 0x2000 o v) := by
  have store (a : Nat) (w : Word) : PwrWrite s ((s.setReg a w).resend 0x2000) :=
    (PwrWrite.setReg s a w).trans (PwrWrite.resend _ _)
  unfold State.writeHeader
  split
  case h_1 => exact PwrWrite.writePgCtrl s v
  case h_2 =>
    refine PwrWrite.onHeader fun t h => ?_
    cases h
    exact store _ _
  case h_3 =>
    refine PwrWrite.onHeader fun t h => ?_
    cases h
    exact store _ _
  case h_4 => exact PwrWrite.setReg s _ _
  case h_5 =>
    have unlocked : s.pageLocked 0x2000 = false := by simp [State.pageLocked, acqPage]
    simp only [State.andThen, execPgErrClr, guardUnit_of (show pageExists 0x2000 = true by decide), whenDue, unlocked,
      Bool.false_eq_true, if_false, Out.orStay]
    split
    · exact PwrWrite.clearErr s _
    · exact PwrWrite.refl s
  case h_6 => exact PwrWrite.refl s

theorem PwrWrite.writeReg {r : Reg} {i j k a : Nat} (v : Word) (found : regAt a = some (r, i, j, k))
    (page : a / 0x1000 = 2) : PwrWrite s (s.writeReg r i j k a v) := by
  have store (r : Reg) : PwrWrite s (s.storeRow r a v) := PwrWrite.setReg s _ _
  obtain ⟨known, low, high⟩ := regAt_spec found
  rcases mem_pwr_of_span r known (by omega) (by omega) with rfl | rfl | plain
  · exact (store _).trans (PwrWrite.rebudget _)
  · exact (store _).trans (PwrWrite.rebudget _)
  · rw [State.writeReg_pwrStored s i j k a v r plain]
    exact store r

/-- A write to the PWR page. -/
theorem PwrWrite.writeAt {a : Nat} (s : State) (v : Word) (page : a / 0x1000 = 2) : PwrWrite s (s.writeAt a v) := by
  have unlocked : s.pageLocked 0x2000 = false := by simp [State.pageLocked, acqPage]
  have noTile : isTilePage 0x2000 = false := by decide
  unfold State.writeAt
  dsimp only
  rw [page]
  simp only [Nat.reduceMul, unlocked, noTile, Bool.false_eq_true, Bool.false_and, if_false]
  split
  · exact PwrWrite.refl s
  · split
    · exact PwrWrite.writeHeader s _ v
    · split
      · exact PwrWrite.refl s
      · rename_i found
        exact PwrWrite.writeReg v found page

end

/-! ## Reads of the I²C target (R57) -/

theorem onRead_answer_nack {s t x : State} {page : Nat} {via : Via} {v : List Word} (hx : x.host = s.host)
    (h : onRead page via s (.next (x.answer v)) = .next t) : t.host.i2cNack = s.host.i2cNack := by
  unfold onRead at h
  split at h
  · cases h
    rw [State.answer, hx]
  · cases h
    rfl

theorem State.readClear_nack {s t : State} {page : Nat} {via : Via} {r : Reg} {m : Word} {i j : Nat}
    (h : onRead page via s (.next (s.readClear page via r m i j)) = .next t) :
    t.host.i2cNack = s.host.i2cNack := by
  unfold State.readClear at h
  refine onRead_answer_nack ?_ h
  split <;> rfl

/-- The registers with a read side effect below 0x10000 are counters, whose reads leave the I²C target alone. -/
theorem State.rsRead_nack {s t : State} {r : Reg} {i j k : Nat} {via : Via} (low : r.row.base < 0x10000)
    (h : s.rsRead r i j k via = some (.next t)) : t.host.i2cNack = s.host.i2cNack := by
  unfold State.rsRead at h
  split at h
  case h_6 => exact State.readClear_nack (Option.some.inj h)
  case h_7 => exact State.readClear_nack (Option.some.inj h)
  case h_19 =>
    refine onRead_answer_nack ?_ (Option.some.inj h)
    split <;> rfl
  case h_20 => exact State.readClear_nack (guardUnit_next.mp (Option.some.inj h)).2
  case h_21 =>
    refine onRead_answer_nack ?_ (Option.some.inj h)
    split <;> rfl
  case h_22 => exact State.readClear_nack (Option.some.inj h)
  case h_23 => cases h
  all_goals exact absurd low (by decide)

/-- What an I²C offset names: a register page at its own address, or nothing. -/
theorem State.target_low (s : State) {a : Nat} (low : a < 0x10000) :
    s.target a = .reg a ∨ s.target a = .unmapped := by
  unfold State.target
  rw [if_neg (by omega), if_neg (by omega), if_neg (by omega)]
  split
  · exact .inl rfl
  · exact .inr rfl

theorem State.readReg_nack (s : State) {a : Nat} (low : a < 0x10000) (via : Via) :
    (s.readReg a via).2.host.i2cNack = s.host.i2cNack := by
  unfold State.readReg
  rcases s.target_low low with e | e <;> rw [e]
  dsimp only
  split_ifs
  · rfl
  · rfl
  · split
    · rfl
    · rename_i r i j k found
      obtain ⟨-, base, -⟩ := regAt_spec found
      split
      · rename_i t read
        exact (State.rsRead_nack (show r.row.base < 0x10000 by omega) read :
          t.host.i2cNack = s.host.i2cNack)
      · rfl
      · rfl

/-- A read of n registers gives n words, and the target does not refuse it. -/
theorem State.i2cGet_spec (n off : Nat) (s : State) :
    (State.i2cGet n off s).1.length = n ∧ (State.i2cGet n off s).2.host.i2cNack = s.host.i2cNack := by
  induction n generalizing off s with
  | zero => exact ⟨rfl, rfl⟩
  | succ n ih =>
    obtain ⟨len, nack⟩ := ih (off + 4) (s.readReg (off % 0x10000) .i2c).2
    exact ⟨congrArg (· + 1) len, nack.trans (s.readReg_nack (Nat.mod_lt _ (by decide)) .i2c)⟩

theorem State.readReg_glbScratch (s : State) (via : Via) : s.readReg (Reg.addr .glbScratch) via =
    (s.rd .glbScratch, s) := by
  have found : regAt (Reg.addr .glbScratch) = some (.glbScratch, 0, 0, 0) := by decide +kernel
  have target : s.target (Reg.addr .glbScratch) = .reg (Reg.addr .glbScratch) := by
    unfold State.target
    rw [if_neg (by decide), if_neg (by decide), if_neg (by decide), if_pos (by decide)]
  unfold State.readReg
  rw [target]
  dsimp only
  rw [if_neg (by decide), if_neg (by simp [show isTilePage (Reg.addr .glbScratch / 0x1000 * 0x1000) = false by decide]),
    found]
  rfl

/-! ## Writes of the I²C target (R56) -/

/-- A write to the PWR page, whatever state the PCIe link is in. -/
theorem State.asReachable_pwr (s : State) {a : Nat} (v : Word) (page : a / 0x1000 = 2) :
    let r := (s.asReachable fun s => (v, s.writeAt a v)).2
    r.host.i2cNack = s.host.i2cNack ∧ r.host.i2cOff = s.host.i2cOff ∧ r.tiles = s.tiles ∧ r.mem = s.mem := by
  obtain ⟨only, nack, off⟩ := PwrWrite.writeAt { s with sup := { s.sup with power := .running } } v page
  exact ⟨nack, off, only.2 .tiles (by simp), only.2 .mem (by simp)⟩

/-- PWR_IDLE takes every bit. -/
theorem State.asReachable_pwrIdle {s : State} (w : Table.wf regInit s.regs = true) (v : Word)
    (srst : s.srst pwrPage = false) :
    let r := (s.asReachable fun s => (v, s.writeAt (Reg.addr .pwrIdle) v)).2
    r.rd .pwrIdle = v ∧ RegsBut [Reg.addr .pwrIdle] s r ∧ Only [.regs] s r := by
  have found : regAt (Reg.addr .pwrIdle) = some (.pwrIdle, 0, 0, 0) := by decide +kernel
  have write (t : State) (ht : t.srst pwrPage = false) :
      t.writeAt (Reg.addr .pwrIdle) v = t.setReg (Reg.addr .pwrIdle) v := by
    have page : Reg.addr .pwrIdle / 0x1000 * 0x1000 = pwrPage := by decide
    have unlocked : t.pageLocked pwrPage = false := by simp [State.pageLocked, acqPage, pwrPage]
    unfold State.writeAt
    dsimp only
    rw [page, ht, Bool.false_and, if_neg Bool.false_ne_true, unlocked, if_neg Bool.false_ne_true, if_neg (by decide),
      if_neg (by simp [show isTilePage pwrPage = false by decide]), found]
    dsimp only
    rw [State.writeReg_pwrStored _ _ _ _ _ _ _ (by decide)]
    have all : v &&& 0xFFFFFFFF#32 = v := BitVec.and_allOnes
    simp [State.storeRow, State.store, Reg.row, all]
  unfold State.asReachable
  dsimp only
  rw [write { s with sup := { s.sup with power := .running } } srst]
  refine ⟨?_, State.setReg_regsBut w (Reg.addr .pwrIdle) v, rfl, fun p hp => ?_⟩
  · exact (State.reg_setReg (s := s) w).trans (if_pos rfl)
  · cases p <;> simp_all [Part.same, State.setReg]

/-! ## The console (R58, R59) -/

theorem asciiHex_length : ∀ n v : Nat, (asciiHex n v).length = n
  | 0, _ => rfl
  | n + 1, v => by rw [asciiHex, List.length_append, asciiHex_length]; rfl

theorem lineText_length (c : Nat) (fields : List (List Byte)) :
    (lineText c fields).length = (fields.map fun f => f.length + 1).sum + 3 := by
  induction fields with
  | nil => rfl
  | cons f l ih =>
    simp only [lineText, List.cons_append, List.length_cons, List.length_append, List.flatMap_cons, List.map_cons,
      List.sum_cons] at ih ⊢
    omega

/-- The text of a status line. -/
def State.statusText (s : State) (off : Nat) : List Byte :=
  lineText 0x53 [asciiHex 8 off, asciiHex 8 (s.readReg off .bar0).1.toNat]

theorem State.statusText_length (s : State) (off : Nat) : (s.statusText off).length = 21 := by
  simp [State.statusText, lineText_length, asciiHex_length]

theorem State.statusLine_eq (s : State) (off : Nat) : s.statusLine off = s.sayLine (s.statusText off) := rfl

/-- A status line is queued when the console has room for it. -/
theorem State.statusLine_room {s : State} (off : Nat) (on : bit (s.rd .glbUartCfg) 31 = true) (lost : s.con.lost = 0)
    (room : s.con.held + 21 ≤ 4096) :
    s.statusLine off = { s with con := { s.con with lines := s.con.lines ++ [s.statusText off] } } := by
  rw [State.statusLine_eq, State.sayLine, if_pos on, Console.queue, if_pos lost, State.statusText_length, if_pos room]

/-- What a status line can change. -/
theorem State.statusLine_only (s : State) (off : Nat) :
    Only [.con] s (s.statusLine off) ∧ (s.statusLine off).con.txd = s.con.txd := by
  rw [State.statusLine_eq, State.sayLine]
  split
  · refine ⟨⟨rfl, fun p hp => by cases p <;> simp_all [Part.same]⟩, ?_⟩
    unfold Console.queue
    dsimp only
    split_ifs <;> rfl
  · exact ⟨Only.refl _ s, rfl⟩

/-- Status lines queued one after the other while the console has room for them all. -/
theorem State.foldl_statusLine_room (offs : List Nat) (s : State) (on : bit (s.rd .glbUartCfg) 31 = true)
    (lost : s.con.lost = 0) (room : s.con.held + 21 * offs.length ≤ 4096) :
    ∃ ls : List (List Byte), ls.length = offs.length ∧ (∀ l ∈ ls, l.length = 21 ∧ l.head? = some 0x53) ∧
      (offs.foldl State.statusLine s).con = { s.con with lines := s.con.lines ++ ls } ∧
      Only [.con] s (offs.foldl State.statusLine s) := by
  induction offs generalizing s with
  | nil => exact ⟨[], rfl, by simp, by simp, Only.refl _ s⟩
  | cons off offs ih =>
    have roomOne : s.con.held + 21 ≤ 4096 := by rw [List.length_cons] at room; omega
    have queued := State.statusLine_room off on lost roomOne
    have con : (s.statusLine off).con = { s.con with lines := s.con.lines ++ [s.statusText off] } := by rw [queued]
    have only := (s.statusLine_only off).1
    have onNext : bit ((s.statusLine off).rd .glbUartCfg) 31 = true := by rw [queued]; exact on
    have heldNext : (s.statusLine off).con.held = s.con.held + 21 := by
      rw [con]
      simp [Console.held, State.statusText_length]
    obtain ⟨ls, len, lines, conAll, onlyAll⟩ := ih (s.statusLine off) onNext (by rw [con]; exact lost)
      (by rw [heldNext]; rw [List.length_cons] at room; omega)
    refine ⟨s.statusText off :: ls, by simp [len], ?_, ?_, only.trans onlyAll⟩
    · simp only [List.mem_cons, forall_eq_or_imp]
      exact ⟨⟨s.statusText_length off, rfl⟩, lines⟩
    · rw [List.foldl_cons, conAll, con, List.append_assoc]
      rfl

theorem State.foldl_statusLine_only (offs : List Nat) (s : State) :
    Only [.con] s (offs.foldl State.statusLine s) ∧ (offs.foldl State.statusLine s).con.txd = s.con.txd := by
  induction offs generalizing s with
  | nil => exact ⟨Only.refl _ s, rfl⟩
  | cons off offs ih =>
    obtain ⟨only, txd⟩ := s.statusLine_only off
    obtain ⟨onlyAll, txdAll⟩ := ih (s.statusLine off)
    exact ⟨only.trans onlyAll, txdAll.trans txd⟩

/-! ## Obligation O26 -/

theorem execI2cWrite_refused {s : State} {addr : BitVec 7} {off : BitVec 16}
    (h : s.i2cAnswers addr = false ∨ off.toNat % 4 ≠ 0) (val : Option Word) :
    execI2cWrite addr off val s = .next s.i2cRefuse := by
  rw [execI2cWrite, if_pos (by simpa using h)]

theorem execI2cWrite_taken {s : State} {addr : BitVec 7} {off : BitVec 16} (answers : s.i2cAnswers addr = true)
    (aligned : off.toNat % 4 = 0) (val : Option Word) :
    execI2cWrite addr off val s = .next (s.i2cPut off.toNat val) := by
  rw [execI2cWrite, if_neg (by simp [answers, aligned])]

/-- A read that the target takes gives n words from the offset o. -/
theorem execI2cRead_taken {s : State} {addr : BitVec 7} {off : Option (BitVec 16)} {o : Nat}
    (start : (off.map fun o => o.toNat).getD s.host.i2cOff = o) (answers : s.i2cAnswers addr = true)
    (aligned : o % 4 = 0) (n : Nat) :
    let r := State.i2cGet n o (s.i2cSeek o)
    execI2cRead addr off n s = .next { r.2 with host := { r.2.host with i2cData := r.1 } } := by
  simp only [execI2cRead, start, answers, aligned, Bool.not_true, Bool.false_or, ne_eq, not_true_eq_false, decide_false,
    Bool.false_eq_true, if_false]

theorem execI2cRead_refused {s : State} {addr : BitVec 7} {off : BitVec 16}
    (h : s.i2cAnswers addr = false ∨ off.toNat % 4 ≠ 0) (n : Nat) :
    execI2cRead addr (some off) n s = .next s.i2cRefuse := by
  simp only [execI2cRead, Option.map_some, Option.getD_some]
  rw [if_pos (by simpa using h)]

/-- Settles O26: a write to the PWR page leaves the I²C target as it is (`PwrWrite`), a read of n registers is an
induction on n, and each status line has 21 bytes. -/
theorem i2cAndConsole : Obligations.I2cAndConsole := by
  unfold Obligations.I2cAndConsole
  refine ⟨fun addr off v val n s canon => ⟨fun answers aligned => ?_, fun answers aligned => ?_, fun h => ?_⟩,
    fun b s aon => ⟨?_, fun on lost room => ?_, fun l rest on lines => ?_⟩⟩
  · have write (val : Option Word) : exec (.i2cWrite addr off val) s = .next (s.i2cPut off.toNat val) :=
      execI2cWrite_taken answers aligned val
    have seek : Only [.host] s (s.i2cSeek off.toNat) := Only.host s _
    have read (n : Nat) := execI2cRead_taken (off := some off) (o := off.toNat) rfl answers aligned n
    refine ⟨⟨_, write none, rfl, seek⟩, fun page => ⟨_, write (some v), ?_⟩, fun page => ⟨_, write (some v), ?_⟩,
      fun at_ srst => ⟨_, write (some v), ?_⟩, ⟨_, read n, ?_⟩, fun at_ => ⟨_, read 1, ?_⟩⟩
    · obtain ⟨nack, held, tiles, mem⟩ := (s.i2cSeek off.toNat).asReachable_pwr v page
      simp only [State.i2cPut, if_pos page]
      exact ⟨nack, held, State.tile_congr tiles, congrArg (·.ddr) mem⟩
    · simp only [State.i2cPut, if_neg page]
      exact ⟨rfl, seek.trans (Only.host _ _)⟩
    · obtain ⟨value, regs, only⟩ := State.asReachable_pwrIdle (s := s.i2cSeek off.toNat) canon.1 v srst
      have page : Reg.addr .pwrIdle / 0x1000 = 2 := by decide
      simp only [State.i2cPut, at_, if_pos page]
      rw [at_] at seek value regs only
      exact ⟨value, regs, (seek.mono (by simp)).trans (only.mono (by simp))⟩
    · exact (State.i2cGet_spec n off.toNat (s.i2cSeek off.toNat))
    · have one : State.i2cGet 1 (Reg.addr .glbScratch) (s.i2cSeek (Reg.addr .glbScratch)) =
          ([s.rd .glbScratch], s.i2cSeek (Reg.addr .glbScratch)) := by
        have low : Reg.addr .glbScratch % 0x10000 = Reg.addr .glbScratch := by decide
        simp only [State.i2cGet, low, State.readReg_glbScratch]
        rfl
      simp only [at_, one]
      rw [at_] at seek
      exact ⟨trivial, seek.trans (Only.host _ _)⟩
  · exact ⟨_, execI2cRead_taken (off := none) rfl answers aligned n, State.i2cGet_spec n _ (s.i2cSeek _)⟩
  · exact ⟨⟨_, execI2cWrite_refused h val, rfl, Only.host s _⟩, ⟨_, execI2cRead_refused h n, rfl, Only.host s _⟩⟩
  · by_cases query : b = 0x3F
    · obtain ⟨only, txd⟩ := State.foldl_statusLine_only [0x404C, 0x7044, 0x6048, 0x2048] s
      exact ⟨_, whenDue_of (by simp [aon, query]) s _, txd, only, fun other => absurd query other⟩
    · exact ⟨s, whenDue_not (by rw [decide_eq_false query, Bool.and_false]) s _, rfl, Only.refl _ s, fun _ => rfl⟩
  · obtain ⟨ls, len, each, con, only⟩ := State.foldl_statusLine_room [0x404C, 0x7044, 0x6048, 0x2048] s on lost room
    match ls, len with
    | [x, y, z, w], _ =>
    exact ⟨_, whenDue_of (by simp [aon]) s _, x, y, z, w, con, each, only⟩
  · refine ⟨{ s with con := { s.con with lines := rest, txd := s.con.txd ++ l } }, ?_, rfl, rfl, fun p hp => ?_⟩
    · show execUartLineSent s = _
      rw [execUartLineSent, lines]
      exact whenDue_of (by simp [aon, on]) s _
    · cases p <;> simp_all [Part.same]

end Sys2Proof.Machine
end

section
/-! ## What only stores and records leaves alone -/

namespace Sys2Proof.Machine

/-- Registers are stored and errors recorded, and the registers at the addresses K keep their values. -/
structure Records (K : List Nat) (s t : State) : Prop where
  only : Only [.regs, .con, .host] s t
  regs : Table.wf regInit s.regs = true → Table.wf regInit t.regs = true ∧ ∀ a ∈ K, t.reg a = s.reg a

section
variable {K : List Nat} {s t r : State}

theorem Records.refl (s : State) : Records K s s := ⟨Only.refl _ s, fun w => ⟨w, fun _ _ => rfl⟩⟩

theorem Records.trans (a : Records K s t) (b : Records K t r) : Records K s r := by
  refine ⟨a.only.trans b.only, fun w => ?_⟩
  obtain ⟨wt, kt⟩ := a.regs w
  obtain ⟨wr, kr⟩ := b.regs wt
  exact ⟨wr, fun x hx => (kr x hx).trans (kt x hx)⟩

theorem Records.foldl {α : Type} {f : State → α → State} {l : List α} (step : ∀ a ∈ l, ∀ s, Records K s (f s a))
    (s : State) : Records K s (l.foldl f s) := by
  induction l generalizing s with
  | nil => exact Records.refl s
  | cons a l ih =>
    exact (step a List.mem_cons_self s).trans (ih (fun b hb => step b (List.mem_cons_of_mem _ hb)) _)

theorem Records.setReg {a : Nat} (ha : a ∉ K) (s : State) (v : Word) : Records K s (s.setReg a v) :=
  ⟨(s.setReg_only a v).mono (by simp), fun w => ⟨State.wf_setReg w, fun b hb => by
    rw [State.reg_setReg w, if_neg (ne_of_mem_of_not_mem hb ha)]⟩⟩

theorem Records.err {page : Nat} (h : ∀ a ∈ K, a ∉ errRegs page) (s : State) (code info : Nat) :
    Records K s (s.err page code info) :=
  ⟨s.err_only page code info, fun w => ⟨State.wf_err w page code info, fun a ha =>
    State.err_regsBut w page code info a (h a ha)⟩⟩

theorem Records.cause {page : Nat} (h : page + 0xC ∉ K) (s : State) (i : Nat) : Records K s (s.cause page i) :=
  ⟨(s.raise_only page _).mono (by simp), fun w => ⟨State.wf_raise w page _, fun a ha => by
    rw [State.cause, State.reg_raise w, if_neg (ne_of_mem_of_not_mem ha h)]⟩⟩

theorem Records.event (s : State) (c : Nat) (f : List (List Byte)) : Records K s (s.event c f) := by
  have only := s.event_only c f
  have regs := only.2 .regs (by simp)
  exact ⟨only.mono (by simp), fun w => ⟨by rw [regs]; exact w, fun a _ => State.reg_congr regs a⟩⟩

end

end Sys2Proof.Machine
end

section
/-! ## Messages (R60) -/

namespace Sys2Proof.Machine

theorem Only.sup (s : State) (x : Supply) : Only [.sup] s { s with sup := x } :=
  ⟨rfl, fun p hp => by cases p <;> simp_all [Part.same]⟩

/-- Of the PCIe side only the messages sent and the messages that wait change. -/
def MessagesOnly (s t : State) : Prop :=
  t.host = { s.host with sent := t.host.sent, pendingBits := t.host.pendingBits }

theorem MessagesOnly.of_eq {s t : State} (h : t.host = s.host) : MessagesOnly s t := by
  rw [MessagesOnly, h]

theorem MessagesOnly.trans {s t r : State} (a : MessagesOnly s t) (b : MessagesOnly t r) : MessagesOnly s r := by
  unfold MessagesOnly at *
  rw [b, a]

theorem State.msix_messages (s : State) (v : Nat) : MessagesOnly s (s.msix v) := by
  unfold State.msix
  split_ifs <;> rfl

theorem State.raise_messages (s : State) (page : Nat) (m : Word) : MessagesOnly s (s.raise page m) := by
  have stored : MessagesOnly s (s.setReg (page + 0xC) (s.reg (page + 0xC) ||| m)) := rfl
  unfold State.raise
  dsimp only
  split
  · exact stored.trans (State.msix_messages _ _)
  · exact stored

theorem State.err_messages (s : State) (page code info : Nat) : MessagesOnly s (s.err page code info) := by
  unfold State.err
  dsimp only
  refine MessagesOnly.trans ?_ (State.raise_messages _ _ _)
  split
  · exact MessagesOnly.of_eq ((State.event_only _ _ _).2 .host (by simp))
  · rfl

end Sys2Proof.Machine
end

section
/-! ## The end of DDR training (R296, R297, R512, R514) -/

namespace Sys2Proof.Machine

/-- GLB_BOOT_STAT, which a training of DDR leaves alone. -/
def bootAddr : List Nat := [Reg.addr .glbBootStat]

theorem chanCfg_not_boot {k : Nat} (hk : k < 8) : Reg.addr .memChCfg k ∉ bootAddr := by
  interval_cases k <;> decide

theorem chan_err_not_boot {k : Nat} : ∀ a ∈ bootAddr, a ∉ errRegs (chanPage k) := by
  simp only [bootAddr, forall_eq, errRegs, chanPage, Reg.addr, Reg.row, List.mem_cons,
    List.not_mem_nil, or_false, not_or]
  omega

theorem State.trainChannel_records (s : State) {k : Nat} (hk : k < 8) (c : ChannelProbe) (rate : Nat) :
    Records bootAddr s (s.trainChannel k c rate) := by
  have stored (v : Word) : Records bootAddr s (s.wr .memChCfg v k) := Records.setReg (chanCfg_not_boot hk) s v
  unfold State.trainChannel
  dsimp only
  split
  · split
    · exact stored _
    · exact (stored _).trans (Records.err chan_err_not_boot _ _ _)
  · exact stored _

theorem State.setInstalled_records (s : State) (n : Nat) (l : List ChannelProbe) :
    Records bootAddr s (s.setInstalled n l) := by
  have store (r : Reg) (hr : r.addr 0 0 0 ∉ bootAddr) (s : State) (v : Word) : Records bootAddr s (s.wr r v) :=
    Records.setReg hr s v
  unfold State.setInstalled State.setCap State.setFld
  exact ((store .memCapInst (by decide) s _).trans (store .memCapUse (by decide) _ _)).trans
    (store .encCarve (by decide) _ _)

theorem mem_zip_range {α : Type} {l : List α} {e : Nat × α} (h : e ∈ (List.range 8).zip l) : e.1 < 8 :=
  List.mem_range.mp (List.of_mem_zip h).1

theorem State.ddrTrained_records (s : State) (probes : List ChannelProbe) :
    Records bootAddr s (s.ddrTrained probes) := by
  unfold State.ddrTrained
  dsimp only
  split
  · refine ((Records.foldl (fun e he s => ?_) s).trans (State.setInstalled_records _ _ _)).trans
      (Records.err chan_err_not_boot _ _ _)
    split
    · exact Records.refl s
    · exact Records.setReg (chanCfg_not_boot (mem_zip_range he)) s _
  · exact (Records.foldl (fun e he s =>
      s.trainChannel_records (mem_zip_range (List.mem_of_mem_filter he)) e.2 _) s).trans
      (State.setInstalled_records _ _ _)

/-- A field stored in a register reads back as its word with the field. -/
theorem State.rd_setFld {s : State} (w : Table.wf regInit s.regs = true) (r : Reg) (hi lo v i j : Nat) :
    (s.setFld r hi lo v i j).rd r i j = setBits (s.rd r i j) hi lo v := State.rd_wr w

theorem State.wf_setFld {s : State} (w : Table.wf regInit s.regs = true) (r : Reg) (hi lo v i j : Nat) :
    Table.wf regInit (s.setFld r hi lo v i j).regs = true := State.wf_setReg w

/-- READY as GLB_BOOT_STAT, the console and the cause of a page show it. -/
def State.readyShown (s : State) : State :=
  let s := (s.setFld .glbBootStat 31 31 1).setFld .glbBootStat 15 0 (min 0xFFFF (s.sup.ns / 100000))
  ((s.setFld .glbBootStat 26 26 0).event 0x42 [decText 1]).cause rstPage 1

theorem State.becomeReady_eq (s : State) : s.becomeReady =
    { s.readyShown with
      flash := { s.readyShown.flash with clean := false }, sup := { s.readyShown.sup with power := .running } } := rfl

theorem State.readyShown_records (s : State) : Records [] s s.readyShown := by
  have store (t : State) (hi lo v : Nat) : Records [] t (t.setFld .glbBootStat hi lo v) :=
    Records.setReg List.not_mem_nil t _
  unfold State.readyShown
  exact ((((store s _ _ _).trans (store _ _ _ _)).trans (store _ _ _ _)).trans (Records.event _ _ _)).trans
    (Records.cause List.not_mem_nil _ _)

theorem State.readyShown_boot {s : State} (w : Table.wf regInit s.regs = true) :
    s.readyShown.rd .glbBootStat = setBits (setBits (setBits (s.rd .glbBootStat) 31 31 1) 15 0
      (min 0xFFFF (s.sup.ns / 100000))) 26 26 0 := by
  have told (t : State) : Records bootAddr t ((t.event 0x42 [decText 1]).cause rstPage 1) :=
    (Records.event t _ _).trans (Records.cause (by decide) _ _)
  have w1 := State.wf_setFld w .glbBootStat 31 31 1 0 0
  have w2 := State.wf_setFld w1 .glbBootStat 15 0 (min 0xFFFF (s.sup.ns / 100000)) 0 0
  have w3 := State.wf_setFld w2 .glbBootStat 26 26 0 0 0
  refine (((told _).regs w3).2 _ (List.mem_singleton.mpr rfl)).trans ?_
  rw [← State.rd_setFld w, ← State.rd_setFld w1, ← State.rd_setFld w2]
  rfl

/-- READY set (R514): the device runs, and of GLB_BOOT_STAT only READY, the clean flag and the time change. -/
theorem State.becomeReady_spec {s : State} (w : Table.wf regInit s.regs = true) :
    Only [.regs, .sup, .con, .host, .flash] s s.becomeReady ∧ s.becomeReady.sup.power = .running ∧
      bit (s.becomeReady.rd .glbBootStat) 31 = true ∧
      ∀ i, 26 < i → i < 31 → bit (s.becomeReady.rd .glbBootStat) i = bit (s.rd .glbBootStat) i := by
  have only := s.readyShown_records.only
  have word : s.becomeReady.rd .glbBootStat = _ := State.readyShown_boot w
  rw [s.becomeReady_eq] at *
  refine ⟨⟨only.1, fun p hp => ?_⟩, rfl, ?_, fun i low high => ?_⟩
  · have same := only.2 p
    cases p <;> simp_all [Part.same]
  · rw [word]
    simp [bit_setBits]
  · rw [word, bit_setBits _ _ _ _ (by omega), if_neg (by omega), bit_setBits _ _ _ _ (by omega), if_neg (by omega),
      bit_setBits _ _ _ _ (by omega), if_neg (by omega)]

/-- READY is set once DDR_DONE, SRAM_READY and the end of the autoload have met. -/
theorem State.checkReady_spec {s : State} (w : Table.wf regInit s.regs = true) :
    Only [.regs, .sup, .con, .host, .flash] s s.checkReady ∧
      (∀ i, 26 < i → i < 31 → bit (s.checkReady.rd .glbBootStat) i = bit (s.rd .glbBootStat) i) ∧
      (s.sup.power = .starting → bits (s.rd .glbBootStat) 30 28 = 7 →
        s.checkReady.sup.power = .running ∧ bit (s.checkReady.rd .glbBootStat) 31 = true) ∧
      (bits (s.rd .glbBootStat) 30 28 ≠ 7 → s.checkReady = s) := by
  unfold State.checkReady
  split
  · rename_i ready
    obtain ⟨only, power, word, kept⟩ := State.becomeReady_spec w
    exact ⟨only, kept, fun _ _ => ⟨power, word⟩, fun notYet => absurd ready.2 notYet⟩
  · rename_i notYet
    exact ⟨Only.refl _ s, fun _ _ _ => rfl, fun start all => absurd ⟨start, all⟩ notYet, fun _ => rfl⟩

/-- Three conditions of READY as the field of them all. -/
theorem bits_three (w : Word) :
    bits w 30 28 = bits w 28 28 + 2 * bits w 29 29 + 4 * bits w 30 30 := by
  simp only [bits, BitVec.extractLsb'_toNat, Nat.shiftRight_eq_div_pow]
  omega

theorem bits_one_eq (w : Word) (i : Nat) : bits w i i = b2n (bit w i) := by
  refine Nat.eq_of_testBit_eq fun j => ?_
  rw [testBit_bits]
  cases j with
  | zero => cases bit w i <;> simp [b2n]
  | succ j => cases bit w i <;> simp [b2n, Nat.testBit_succ]

theorem State.quickStart_iff (s : State) (dimms : List (List DWord)) :
    s.quickStart dimms = true ↔ s.flash.clean = true ∧ ∃ d : DdrRecord, s.flash.ddr = some d ∧ d.dimms = dimms := by
  simp [State.quickStart]

/-- The state in which the end of DDR training looks for READY: the training, QUICK and DDR_DONE recorded. -/
def State.ddrDoneState (s : State) (probes : List ChannelProbe) (dimms : List (List DWord)) : State :=
  let t : State := { s with mem := { s.mem with dimms := dimms, dimmReset := false } }
  ((t.ddrTrained probes).setFld .glbBootStat 27 27 (b2n (s.quickStart dimms))).setFld .glbBootStat 29 29 1

theorem execDdrDone_due {s : State} (start : s.sup.power = .starting) (first : bit (s.rd .glbBootStat) 29 = false)
    (probes : List ChannelProbe) (dimms : List (List DWord)) :
    execDdrDone probes dimms s = .next (s.ddrDoneState probes dimms).checkReady :=
  whenDue_of (by simp [start, first]) s _

theorem State.ddrDoneState_spec {s : State} (w : Table.wf regInit s.regs = true) (probes : List ChannelProbe)
    (dimms : List (List DWord)) :
    let t := s.ddrDoneState probes dimms
    Table.wf regInit t.regs = true ∧ Only [.regs, .con, .host, .mem] s t ∧
      t.mem = { s.mem with dimms := dimms, dimmReset := false } ∧
      t.rd .glbBootStat =
        setBits (setBits (s.rd .glbBootStat) 27 27 (b2n (s.quickStart dimms))) 29 29 1 := by
  intro t
  let d : State := { s with mem := { s.mem with dimms := dimms, dimmReset := false } }
  have trained := d.ddrTrained_records probes
  obtain ⟨w1, boot⟩ := trained.regs w
  have w2 := State.wf_setFld w1 .glbBootStat 27 27 (b2n (s.quickStart dimms)) 0 0
  have store (t : State) (hi lo v : Nat) : Records [] t (t.setFld .glbBootStat hi lo v) :=
    Records.setReg List.not_mem_nil t _
  have only : Only [.regs, .con, .host] d t := (trained.only.trans (store _ _ _ _).only).trans (store _ _ _ _).only
  have dimmsRead : Only [.mem] s d := Only.mem s _
  refine ⟨State.wf_setFld w2 .glbBootStat 29 29 1 0 0, (dimmsRead.mono (by simp)).trans (only.mono (by simp)),
    only.2 .mem (by simp), ?_⟩
  have same : (d.ddrTrained probes).rd .glbBootStat = s.rd .glbBootStat := boot _ (List.mem_singleton.mpr rfl)
  rw [← same, ← State.rd_setFld w1, ← State.rd_setFld w2]
  rfl

end Sys2Proof.Machine
end

section
/-! ## Autoload, PERST_N and the retry window (R35, R37, R186, R513) -/

namespace Sys2Proof.Machine

theorem State.ldrTo_header {s : State} (other : s.ldr.state ≠ .header) :
    Only [.ldr, .con] s (s.ldrTo .header) ∧ (s.ldrTo .header).ldr = { s.ldr with state := .header } := by
  have quiet (t : State) : (t.autoloadEnd .header).ldrCause .header = t := by
    simp [State.autoloadEnd, State.ldrCause]
  rw [State.ldrTo, if_neg other, quiet]
  have only := State.event_only (s.setLdr { s.ldr with state := .header }) 0x4C [decText LdrState.header.code]
  exact ⟨((Only.ldr s _).mono (by simp)).trans (only.mono (by simp)), only.2 .ldr (by simp)⟩

/-- The image read from the boot flash begins a load (R186). -/
theorem State.autoload_begins {s : State} (empty : s.ldr.state = .empty) (en : s.pageEn ldrPage = true)
    {bytes : List Byte} (some : bytes ≠ []) :
    let r := (s.spiStart (imageLength bytes)).offer s.ldrSrc (imageBytes bytes)
    r.ldr.state = .header ∧ r.ldr.buf = bytes.take (80 + 4112 * field bytes 0x14 4) ∧ Only [.ldr, .con] s r := by
  intro r
  have full : (imageBytes bytes).isEmpty = false := by
    cases bytes with
    | nil => exact absurd rfl some
    | cons b l => simp [imageBytes, imageLength, Nat.add_comm 80, List.take_succ_cons]
  have started : Only [.ldr] s (s.spiStart (imageLength bytes)) := Only.ldr s _
  have begins : r = (s.spiStart (imageLength bytes)).beginLoad (imageBytes bytes) := by
    have src : (s.spiStart (imageLength bytes)).ldrSrc = s.ldrSrc := rfl
    have enNow : (s.spiStart (imageLength bytes)).pageEn ldrPage = true := en
    have emptyNow : (s.spiStart (imageLength bytes)).ldr.state = .empty := empty
    simp [r, State.offer, src, enNow, emptyNow]
  rw [begins, State.beginLoad, full, if_neg Bool.false_ne_true]
  obtain ⟨only, ldr⟩ := State.ldrTo_header (s := (s.spiStart (imageLength bytes)).setLdr
    { (s.spiStart (imageLength bytes)).ldr with
      buf := imageBytes bytes, gapNs := 0, crc := 0xFFFFFFFF, partialLoad := s.ldr.lastPartial })
    (by rw [show State.ldr _ = _ from rfl]; simp [State.setLdr, State.spiStart, empty])
  have buffered := started.trans (Only.ldr (s.spiStart (imageLength bytes))
    { (s.spiStart (imageLength bytes)).ldr with
      buf := imageBytes bytes, gapNs := 0, crc := 0xFFFFFFFF, partialLoad := s.ldr.lastPartial })
  exact ⟨congrArg Loader.state ldr, congrArg Loader.buf ldr, (buffered.mono (by simp)).trans only⟩

/-- The errors of the descriptors that PERST_N cuts off change registers and messages only (R37). -/
theorem State.foldl_cut {l : List (Nat × Nat)} (s : State) :
    let r := l.foldl (fun s e => s.err (porterPage e.1) 0x9011 e.2) s
    Only [.regs, .con, .host] s r ∧ MessagesOnly s r := by
  induction l generalizing s with
  | nil => exact ⟨Only.refl _ s, MessagesOnly.of_eq rfl⟩
  | cons e l ih =>
    obtain ⟨only, messages⟩ := ih (s.err (porterPage e.1) 0x9011 e.2)
    exact ⟨(s.err_only _ _ _).trans only, (s.err_messages _ _ _).trans messages⟩

/-- The PCIe side cut off with the given vectors masked, before the errors of the descriptors in flight. -/
def State.pcieCut (s : State) (vectors : List Nat) : State :=
  let t : State := { s with
    host := { s.host with
      cfg := PciCfg.reset, masked := vectors, fnMask := false, pendingBits := [], porter := [], moving := []
      drains := s.host.drains.filter fun d => d.1 < pciPage || decide (0xAE000 ≤ d.1)
      srsts := s.host.srsts.filter fun p => p < pciPage || decide (0xAE000 ≤ p) }
    sup := { s.sup with pcieUp := false, pcieRetry := false, pcieNs := 0 } }
  (t.clearRegs pciPage (porterPage 8)).clearRegs 0xAC000 0xAE000

theorem State.pcieCut_spec (s : State) (vectors : List Nat) :
    let r := s.pcieCut vectors
    r.sup = { s.sup with pcieUp := false, pcieRetry := false, pcieNs := 0 } ∧ r.host.masked = vectors ∧
      r.host.porter = [] ∧ Only [.regs, .sup, .host] s r :=
  ⟨rfl, rfl, rfl, rfl, fun p hp => by cases p <;> simp_all [Part.same, State.clearRegs, State.pcieCut]⟩

/-- The PCIe side cut off, and the errors of the descriptors in flight recorded (R37). -/
theorem State.pcieCut_foldl (s : State) (vectors : List Nat) (cut : List (Nat × Nat)) :
    let r := cut.foldl (fun s e => s.err (porterPage e.1) 0x9011 e.2) (s.pcieCut vectors)
    r.sup = { s.sup with pcieUp := false, pcieRetry := false, pcieNs := 0 } ∧ r.host.masked = vectors ∧
      r.host.porter = [] ∧ Only [.regs, .sup, .con, .host] s r := by
  obtain ⟨sup, masked, porter, stopped⟩ := s.pcieCut_spec vectors
  obtain ⟨only, messages⟩ := (s.pcieCut vectors).foldl_cut (l := cut)
  exact ⟨(only.2 .sup (by simp)).trans sup, (congrArg HostPort.masked messages).trans masked,
    (congrArg HostPort.porter messages).trans porter, (stopped.mono (by simp)).trans (only.mono (by simp))⟩

theorem State.pcieReset_eq (s : State) : s.pcieReset =
    ((List.range 8).flatMap fun p => (s.inFlight p).map fun d => (p, d.1)).foldl
      (fun s e => s.err (porterPage e.1) 0x9011 e.2) (s.pcieCut (List.range 256)) := rfl

theorem State.pcieReset_spec (s : State) :
    let r := s.pcieReset
    r.sup = { s.sup with pcieUp := false, pcieRetry := false, pcieNs := 0 } ∧ r.host.masked = List.range 256 ∧
      r.host.porter = [] ∧ Only [.regs, .sup, .con, .host] s r := by
  rw [s.pcieReset_eq]
  exact s.pcieCut_foldl _ _

/-- Speed and width to which the link trains. -/
theorem State.pcieTrained_spec (s : State) :
    let r := s.pcieTrained
    1 ≤ r.host.cfg.speed ∧ r.host.cfg.speed ≤ 5 ∧ r.host.cfg.width ∈ [1, 2, 4, 8, 16] ∧
      r.host = { s.host with cfg := { s.host.cfg with speed := r.host.cfg.speed, width := r.host.cfg.width } } ∧
      r.sup = s.sup ∧ Only [.host, .free] s r := by
  have width (n : Nat) : 2 ^ (n % 5) ∈ [1, 2, 4, 8, 16] := by
    have all : ∀ k < 5, 2 ^ k ∈ [1, 2, 4, 8, 16] := by decide
    exact all _ (Nat.mod_lt _ (by decide))
  refine ⟨Nat.le_add_right _ _, ?_, width _, rfl, rfl, rfl, fun p hp => ?_⟩
  · have := Nat.mod_lt s.freeNat.1 (show 0 < 5 by decide)
    show 1 + s.freeNat.1 % 5 ≤ 5
    omega
  · cases p <;> simp_all [Part.same, State.pcieTrained, State.freeNat]

/-! ## Obligation O22 -/

/-- The clause of the end of DDR training: DDR_DONE and QUICK are recorded, then READY is looked for. -/
theorem ddrDone_does {s : State} (w : Table.wf regInit s.regs = true) (start : s.sup.power = .starting)
    (first : bit (s.rd .glbBootStat) 29 = false) (probes : List ChannelProbe) (dimms : List (List DWord)) :
    let b := s.rd .glbBootStat
    Does (.ddrDone probes dimms) s (fun r => r.mem.dimms = dimms ∧ r.mem.dimmReset = false ∧
      (bit (r.rd .glbBootStat) 27 = true ↔ s.flash.clean = true ∧ ∃ d : DdrRecord, s.flash.ddr = some d ∧
        d.dimms = dimms) ∧
      bit (r.rd .glbBootStat) 29 = true ∧ bits (r.rd .glbBootStat) 30 30 = bits b 30 30 ∧
      (bits b 30 30 = 1 → bits b 28 28 = 1 → r.sup.power = .running ∧ bit (r.rd .glbBootStat) 31 = true) ∧
      (bits b 28 28 = 0 → r.sup = s.sup) ∧ r.mem.ddr = s.mem.ddr ∧
      Only [.regs, .sup, .con, .host, .flash, .mem] s r) := by
  intro b
  obtain ⟨wt, only, mem, word⟩ := State.ddrDoneState_spec w probes dimms
  set t := s.ddrDoneState probes dimms with ht
  obtain ⟨ready, kept, both, notYet⟩ := State.checkReady_spec wt
  have memR : t.checkReady.mem = { s.mem with dimms := dimms, dimmReset := false } := (ready.2 .mem (by simp)).trans mem
  have sup : t.sup = s.sup := only.2 .sup (by simp)
  have bitT (i : Nat) (h : i < 32) : bit (t.rd .glbBootStat) i =
      if i = 29 then true else if i = 27 then s.quickStart dimms else bit b i := by
    rw [word]
    rw [bit_setBits _ _ _ _ h]
    by_cases done : i = 29
    · subst done; rfl
    · rw [if_neg (by omega), if_neg done, bit_setBits _ _ _ _ h]
      by_cases quick : i = 27
      · subst quick; cases s.quickStart dimms <;> rfl
      · rw [if_neg (by omega), if_neg quick]
  have three : bits (t.rd .glbBootStat) 30 28 = b2n (bit b 28) + 2 + 4 * b2n (bit b 30) := by
    rw [bits_three, bits_one_eq, bits_one_eq, bits_one_eq, bitT 28 (by decide), bitT 29 (by decide),
      bitT 30 (by decide)]
    simp [b2n]
  refine ⟨t.checkReady, execDdrDone_due start first probes dimms, by rw [memR], by rw [memR], ?_, ?_, ?_,
    fun sram auto => ?_, fun auto => ?_, by rw [memR], (only.mono (by simp)).trans (ready.mono (by simp))⟩
  · rw [kept 27 (by decide) (by decide), bitT 27 (by decide)]
    exact s.quickStart_iff dimms
  · rw [kept 29 (by decide) (by decide), bitT 29 (by decide)]
    rfl
  · rw [bits_one_eq, bits_one_eq, kept 30 (by decide) (by decide), bitT 30 (by decide)]
    rfl
  · refine both (sup ▸ start) ?_
    rw [three, ← bits_one_eq, ← bits_one_eq, sram, auto]
  · rw [notYet, sup]
    rw [three, ← bits_one_eq b 28, auto]
    have : b2n (bit b 30) ≤ 1 := by cases bit b 30 <;> decide
    omega

/-- Settles O22: each event of the start through what it stores, and READY through its three conditions. -/
theorem startUpEvents : Obligations.StartUpEvents := by
  unfold Obligations.StartUpEvents
  rintro probes dimms ch stp slot bytes s ⟨w, -⟩ hch b
  refine ⟨fun start first => ddrDone_does w start first probes dimms, fun start first limit trained => ?_,
    fun start auto sram first empty due en some => ?_, fun retry due => ?_, ?_, fun low reach => ?_⟩
  · have stored := State.setReg_regsBut w (Reg.addr .memChCfg ch) (setBits (s.rd .memChCfg ch) 30 30 1)
    have ws := State.wf_setFld w .memChCfg 30 30 1 ch 0
    obtain ⟨only, regs, count⟩ := State.err_recorded (s := s.setFld .memChCfg 30 30 1 ch) ws (chanPage ch)
      (slot % 256 * 256 + stp % 256) (show 0x3003 < 2 ^ 16 by decide)
    refine ⟨_, ?_, ?_, ((s.setReg_only _ _).mono (by simp)).trans only, fun a ha => ?_, count⟩
    · exact (guardUnit_of (by simpa using hch) _).trans (whenDue_of (by simp [start, first, limit, trained, b]) s _)
    · have apart : Reg.addr .memChCfg ch ∉ errRegs (chanPage ch) := by interval_cases ch <;> decide
      rw [State.rd, regs _ apart, ← State.rd, State.rd_setFld w, bit_setBits _ _ _ _ (by decide)]
      rfl
    · rw [List.mem_cons, not_or] at ha
      exact (regs a ha.2).trans (stored a (by simpa using ha.1))
  · exact ⟨_, whenDue_of (by simp [start, auto, sram, first, empty, due, b]) s _, State.autoload_begins empty en some⟩
  · obtain ⟨slow, fast, width, host, sup, only⟩ := s.pcieTrained_spec
    exact ⟨_, whenDue_of (by simp [retry, due]) s _,
      congrArg (fun u : Supply => { u with pcieUp := true, pcieRetry := false }) sup, slow, fast, width, host,
      (only.mono (by simp)).trans ((Only.sup s.pcieTrained _).mono (by simp))⟩
  · obtain ⟨sup, masked, porter, only⟩ := State.pcieReset_spec { s with pins := { s.pins with perstLow := true } }
    exact ⟨_, rfl, only.2 .pins (by simp), by rw [sup], by rw [sup], masked, porter,
      ((Only.pins s _).mono (by simp)).trans (only.mono (by simp))⟩
  · refine ⟨{ s with pins := { s.pins with perstLow := false }, sup := { s.sup with pcieRetry := true, pcieNs := 0 } },
      ?_, rfl, rfl, rfl, fun p hp => ?_⟩
    · show execPerstNReleased s = _
      simp [execPerstNReleased, low, reach]
    · cases p <;> simp_all [Part.same]

end Sys2Proof.Machine
end

section
/-! ## Obligation O29 -/

namespace Sys2Proof.Machine

/-- A crier's item on service engine 0 at the limit of the drain of its page, while another one waits for a place in
the store. -/
def crierWaiting : State :=
  { State.reset with
    svc := { Service.reset with
      store := [crierItem], engines := [(0, some 0)], nextId := 1, waitItems := [blankItem .crier 0x60 0x60 0] }
    host := { HostPort.reset with drains := [(criPage, 100000)] } }

theorem crierWaiting_canonical : crierWaiting.Canonical := State.canonical_of_check (by decide +kernel)

/-- The place that the discarded item leaves goes to the one that waits. -/
theorem crierWaiting_store : ∃ t, exec (.drainLimitExpiry criPage) crierWaiting = .next t ∧
    t.svc.store.map SvcItem.source = [.crier] :=
  ⟨_, rfl, by decide +kernel⟩

/-- Refutes O29: at the drain limit of the crier page an item that waits for a place in the store gets the place of the
item that is discarded (R222), so a crier's item stands in the store afterwards; nothing that a canonical state is
keeps criers' items from waiting. -/
theorem not_drainLimitsDiscard : ¬ Obligations.DrainLimitsDiscard := by
  unfold Obligations.DrainLimitsDiscard
  intro h
  obtain ⟨-, criers, -⟩ := h 0 0 crierItem crierWaiting crierWaiting_canonical (by decide) (by decide)
  obtain ⟨r, hr, -, -, none, -⟩ := criers (by decide +kernel)
  obtain ⟨t, ht, store⟩ := crierWaiting_store
  obtain rfl : t = r := by rw [ht] at hr; exact Host.Outcome.next.inj hr
  obtain ⟨i, hi, source⟩ := List.mem_map.mp (store ▸ List.mem_singleton_self SvcSource.crier)
  exact none i hi source

end Sys2Proof.Machine
end

section
/-! ## What keeps EN and SRST of every page, the causes that pend and the trigger events (R47, R48, R405, R408) -/

namespace Sys2Proof.Machine

/-- EN and SRST of every page stay, no pending cause goes but the highest three, which no page has, and the time keeper
keeps its trigger events and the state of VL2. -/
structure Calm (s t : State) : Prop where
  regs : Table.wf regInit s.regs = true → Table.wf regInit t.regs = true ∧ ∀ p, p % 0x1000 = 0 →
    (∀ i < 2, bit (t.reg (p + 4)) i = bit (s.reg (p + 4)) i) ∧
    (∀ i < 29, bit (s.reg (p + 0xC)) i = true → bit (t.reg (p + 0xC)) i = true)
  events : t.tim.events = s.tim.events
  vl2 : t.tim.vl2 = s.tim.vl2

section
variable {s t r : State}

theorem Calm.of_regs (regs : t.regs = s.regs) (events : t.tim.events = s.tim.events) (vl2 : t.tim.vl2 = s.tim.vl2) :
    Calm s t :=
  ⟨fun w => ⟨by rw [regs]; exact w, fun p _ => ⟨fun i _ => by rw [State.reg_congr regs], fun i _ h => by
    rw [State.reg_congr regs]; exact h⟩⟩, events, vl2⟩

theorem Calm.refl (s : State) : Calm s s := Calm.of_regs rfl rfl rfl

theorem Calm.of_only {l : List Part} (h : Only l s t) (regs : .regs ∉ l) (tim : .tim ∉ l) : Calm s t := by
  have same : t.tim = s.tim := h.2 .tim tim
  exact Calm.of_regs (h.2 .regs regs) (by rw [same]) (by rw [same])

theorem Calm.trans (a : Calm s t) (b : Calm t r) : Calm s r := by
  refine ⟨fun w => ?_, b.events.trans a.events, b.vl2.trans a.vl2⟩
  obtain ⟨wt, kt⟩ := a.regs w
  obtain ⟨wr, kr⟩ := b.regs wt
  refine ⟨wr, fun p hp => ?_⟩
  obtain ⟨enT, intT⟩ := kt p hp
  obtain ⟨enR, intR⟩ := kr p hp
  exact ⟨fun i hi => (enR i hi).trans (enT i hi), fun i hi h => intR i hi (intT i hi h)⟩

theorem Calm.foldl {α : Type} {f : State → α → State} {l : List α} (step : ∀ a ∈ l, ∀ s, Calm s (f s a))
    (s : State) : Calm s (l.foldl f s) := by
  induction l generalizing s with
  | nil => exact Calm.refl s
  | cons a l ih =>
    exact (step a List.mem_cons_self s).trans (ih (fun b hb => step b (List.mem_cons_of_mem _ hb)) _)

/-- A register stored that is neither PG_CTRL nor PG_INT_STAT of a page. -/
theorem Calm.setReg {a : Nat} (ctrl : a % 0x1000 ≠ 4) (stat : a % 0x1000 ≠ 0xC) (s : State) (v : Word) :
    Calm s (s.setReg a v) := by
  refine ⟨fun w => ⟨State.wf_setReg w, fun p hp => ⟨fun i _ => ?_, fun i _ h => ?_⟩⟩, rfl, rfl⟩
  · rw [State.reg_setReg w, if_neg (by omega)]
  · rw [State.reg_setReg w, if_neg (by omega)]
    exact h

/-- A field below bit 29 and above bit 1 keeps what the header says; here bit 29 of any register. -/
theorem Calm.setBit29 (s : State) (a : Nat) (b : Bool) : Calm s (s.setReg a (setBit (s.reg a) 29 b)) := by
  refine ⟨fun w => ⟨State.wf_setReg w, fun p _ => ⟨fun i hi => ?_, fun i hi h => ?_⟩⟩, rfl, rfl⟩
  · rw [State.reg_setReg w]
    split
    · rename_i e
      rw [bit_setBit _ _ _ (by omega), if_neg (by omega), e]
    · rfl
  · rw [State.reg_setReg w]
    split
    · rename_i e
      rw [bit_setBit _ _ _ (by omega), if_neg (by omega), ← e]
      exact h
    · exact h

theorem Calm.raise {page : Nat} (aligned : page % 0x1000 = 0) (s : State) (m : Word) : Calm s (s.raise page m) := by
  have tim := (s.raise_only page m).2 .tim (by simp)
  refine ⟨fun w => ⟨State.wf_raise w page m, fun p hp => ⟨fun i _ => ?_, fun i _ h => ?_⟩⟩, by rw [tim], by rw [tim]⟩
  · rw [State.reg_raise w, if_neg (by omega)]
  · rw [State.reg_raise w]
    split
    · simp only [bit, BitVec.getLsbD_or] at h ⊢
      rw [h, Bool.true_or]
    · exact h

theorem Calm.cause {page : Nat} (aligned : page % 0x1000 = 0) (s : State) (i : Nat) : Calm s (s.cause page i) :=
  Calm.raise aligned s _

theorem Calm.event (s : State) (c : Nat) (f : List (List Byte)) : Calm s (s.event c f) :=
  Calm.of_only (s.event_only c f) (by simp) (by simp)

theorem Calm.err {page : Nat} (aligned : page % 0x1000 = 0) (s : State) (code info : Nat) :
    Calm s (s.err page code info) := by
  have store (t : State) (off : Nat) (ho : off = 0x18 ∨ off = 0x1C) (v : Word) : Calm t (t.setReg (page + off) v) :=
    Calm.setReg (by omega) (by omega) t v
  unfold State.err
  dsimp only
  refine Calm.trans ?_ (Calm.cause aligned _ 0)
  split
  · exact ((store _ _ (.inl rfl) _).trans (store _ _ (.inr rfl) _)).trans (Calm.event _ _ _)
  · exact store _ _ (.inl rfl) _

/-- A named register stored at indices that keep it out of the headers. -/
theorem Calm.wr {r : Reg} {i j k : Nat} (out : r.addr i j k % 0x1000 ≠ 4 ∧ r.addr i j k % 0x1000 ≠ 0xC) (s : State)
    (v : Word) : Calm s (s.wr r v i j k) := Calm.setReg out.1 out.2 s v

theorem Calm.setFld {r : Reg} {i j : Nat} (out : r.addr i j 0 % 0x1000 ≠ 4 ∧ r.addr i j 0 % 0x1000 ≠ 0xC) (s : State)
    (hi lo v : Nat) : Calm s (s.setFld r hi lo v i j) := Calm.wr out s _

theorem Calm.alert (s : State) (i : Nat) (b : Bool) : Calm s (s.alert i b) := Calm.setFld (by decide) s _ _ _

theorem Calm.setTile (s : State) (t : Nat) (x : Tile) : Calm s (s.setTile t x) := Calm.of_regs rfl rfl rfl

theorem Calm.modTile (s : State) (t : Nat) (f : Tile → Tile) : Calm s (s.modTile t f) := Calm.setTile s t _

theorem Calm.setRun (s : State) (x : RunState) : Calm s (s.setRun x) :=
  Calm.of_only (s.setRun_only x) (by simp) (by simp)

theorem Calm.mapTiles (s : State) (f : Tile → Tile) : Calm s (s.mapTiles f) :=
  Calm.foldl (fun t _ s => Calm.modTile s t f) s

theorem Calm.svc (s : State) (x : Service) : Calm s { s with svc := x } := Calm.of_regs rfl rfl rfl
theorem Calm.acq (s : State) (x : Acq) : Calm s { s with acq := x } := Calm.of_regs rfl rfl rfl
theorem Calm.mem (s : State) (x : Memories) : Calm s { s with mem := x } := Calm.of_regs rfl rfl rfl
theorem Calm.host (s : State) (x : HostPort) : Calm s { s with host := x } := Calm.of_regs rfl rfl rfl
theorem Calm.prf (s : State) (x : Proofs) : Calm s { s with prf := x } := Calm.of_regs rfl rfl rfl
theorem Calm.net (s : State) (x : Network) : Calm s { s with net := x } := Calm.of_regs rfl rfl rfl
theorem Calm.run (s : State) (x : RunCtl) : Calm s { s with run := x } := Calm.of_regs rfl rfl rfl
theorem Calm.flash (s : State) (x : Flash) : Calm s { s with flash := x } := Calm.of_regs rfl rfl rfl

theorem Calm.dropItem (s : State) (id : Nat) : Calm s (s.dropItem id) :=
  Calm.of_only (s.dropItem_only id) (by simp) (by simp)

theorem Calm.dropItems (s : State) (p : SvcItem → Bool) : Calm s (s.dropItems p) :=
  Calm.foldl (fun i _ s => Calm.dropItem s i.id) s

theorem Calm.dropRunning (s : State) (p : SvcItem → Bool) : Calm s (s.dropRunning p) :=
  (Calm.dropItems s p).trans (Calm.svc _ _)

theorem Calm.issueInternal (s : State) (i : SvcItem) : Calm s (s.issueInternal i).2 :=
  Calm.of_only (s.issueInternal_only i) (by simp) (by simp)

/-! ### The loader (R205) -/

theorem Calm.checkReady (s : State) : Calm s s.checkReady := by
  have boot (t : State) (hi lo v : Nat) : Calm t (t.setFld .glbBootStat hi lo v) :=
    Calm.setFld (r := .glbBootStat) (i := 0) (j := 0) (by decide) t hi lo v
  have shown : Calm s s.readyShown :=
    ((((boot s _ _ _).trans (boot _ _ _ _)).trans (boot _ _ _ _)).trans (Calm.event _ _ _)).trans
      (Calm.cause (by decide) _ _)
  unfold State.checkReady
  split
  · rw [State.becomeReady_eq]
    exact shown.trans (Calm.of_regs rfl rfl rfl)
  · exact Calm.refl s

theorem Calm.ldrTo (s : State) (n : LdrState) : Calm s (s.ldrTo n) := by
  have ended (t : State) : Calm t (t.autoloadEnd n) := by
    unfold State.autoloadEnd
    split
    · have noLoad : Calm t { t with sup := { t.sup with autoload := false } } := Calm.of_regs rfl rfl rfl
      exact (noLoad.trans (Calm.setFld (r := .glbBootStat) (i := 0) (j := 0) (by decide) _ _ _ _)).trans
        (Calm.checkReady _)
    · exact Calm.refl t
  have caused (t : State) : Calm t (t.ldrCause n) := by
    unfold State.ldrCause
    split
    · exact Calm.cause (by decide) t _
    · exact Calm.cause (by decide) t _
    · exact Calm.refl t
  unfold State.ldrTo
  split
  · exact Calm.refl s
  · have set : Calm s (s.setLdr { s.ldr with state := n }) := Calm.of_regs rfl rfl rfl
    exact ((set.trans (Calm.event _ _ _)).trans (ended _)).trans (caused _)

theorem Calm.vdioAlert (s : State) : Calm s s.vdioAlert := Calm.alert s _ _

theorem Calm.unmap (s : State) : Calm s s.unmap := Calm.mapTiles s _

theorem Calm.setLdr (s : State) (l : Loader) : Calm s (s.setLdr l) := Calm.of_regs rfl rfl rfl

theorem Calm.ldrFail (s : State) (code info : Nat) : Calm s (s.ldrFail code info) := by
  unfold State.ldrFail
  dsimp only
  have failed : Calm s (((s.err ldrPage code info).setLdr
      { (s.err ldrPage code info).ldr with cfgerr := true, buf := [] }).ldrTo .failed) :=
    ((Calm.err (by decide) s code info).trans (Calm.setLdr _ _)).trans (Calm.ldrTo _ _)
  generalize State.ldrTo _ _ = t at failed
  split_ifs
  · exact failed.trans (Calm.setLdr _ _)
  · exact ((failed.trans (Calm.unmap _)).trans (Calm.setLdr _ _)).trans (Calm.vdioAlert _)

theorem Calm.takeOut (s : State) : Calm s s.takeOut := by
  have off : Calm s (((s.setLdr { s.ldr with
      inService := false, image := none, done := false, setReset := true, kept := false }).driversOff).discardProofs) :=
    Calm.of_regs rfl rfl rfl
  have items (t : State) : Calm t t.dropTileItems := (Calm.dropItems t _).trans (Calm.svc _ _)
  have all := (off.trans (items _)).trans ((Calm.unmap _).trans (Calm.vdioAlert _))
  unfold State.takeOut
  dsimp only
  generalize State.vdioAlert _ = t at all
  split
  · exact all.trans (Calm.ldrTo t _)
  · exact all

/-! ### The acquisition engine (R423, R439) -/

theorem Calm.acqIdle (s : State) : Calm s s.acqIdle :=
  ((Calm.dropRunning s _).trans (Calm.acq _ _)).trans (Calm.cause (by decide) _ _)

theorem Calm.touchLarder (s : State) (b : Nat) : Calm s (s.touchLarder b) :=
  (Calm.setBit29 s (Reg.addr .memLown b) false).trans (Calm.mem _ _)

theorem Calm.acqBytes (s : State) (addr : Nat) (d : List Byte) : Calm s (s.acqBytes addr d) := by
  unfold State.acqBytes
  split
  · exact Calm.refl s
  · exact (Calm.touchLarder s _).trans (Calm.mem _ _)

theorem Calm.completeBlock (s : State) : Calm s s.completeBlock := Calm.acq s _

theorem Calm.padBlock (s : State) : Calm s s.padBlock := by
  unfold State.padBlock
  split
  · exact Calm.refl s
  · exact (Calm.acqBytes s _ _).trans (Calm.completeBlock _)

theorem Calm.acqWrite {s t : State} {r : List Byte} (h : s.acqWrite r = some t) : Calm s t := by
  have padded : Calm s (if 0 < s.acq.wrUnits ∧ 256 < s.acq.wrUnits + r.length / 16 then s.padBlock else s) := by
    split
    · exact Calm.padBlock s
    · exact Calm.refl s
  unfold State.acqWrite at h
  dsimp only at h
  generalize (if 0 < s.acq.wrUnits ∧ 256 < s.acq.wrUnits + r.length / 16 then s.padBlock else s) = u at padded h
  split at h
  · rw [← Option.some.inj h]
    have written := padded.trans (Calm.acqBytes u (u.acq.blockAddr u.acq.wrBlock + 16 * u.acq.wrUnits) r)
    generalize u.acqBytes _ _ = v at written
    have counted := written.trans (Calm.acq v { v.acq with wrUnits := v.acq.wrUnits + r.length / 16 })
    split
    · exact counted.trans (Calm.completeBlock _)
    · exact counted
  · cases h

theorem Calm.modDir (s : State) (seg : Nat) (f : DirEntry → DirEntry) : Calm s (s.modDir seg f) := Calm.acq s _

theorem Calm.noteRecord (s : State) (kind seg block : Nat) : Calm s (s.noteRecord kind seg block) := by
  unfold State.noteRecord
  split
  · exact Calm.modDir s _ _
  · dsimp only
    split
    · exact (Calm.modDir s _ _).trans (Calm.padBlock _)
    · exact Calm.modDir s _ _
  · exact Calm.refl s

theorem Calm.flushQueue (n : Nat) (s : State) : Calm s (State.flushQueue n s) := by
  induction n generalizing s with
  | zero => exact Calm.refl s
  | succ n ih =>
    unfold State.flushQueue
    split
    · exact Calm.refl s
    · dsimp only
      split
      · exact Calm.padBlock s
      · rename_i written
        exact (((Calm.acqWrite written).trans (Calm.acq _ _)).trans (Calm.noteRecord _ _ _ _)).trans (ih _)

theorem Calm.flushOut (s : State) : Calm s s.flushOut := by
  have flushed := Calm.flushQueue s.acq.out.length s
  unfold State.flushOut
  dsimp only
  generalize State.flushQueue _ s = t at flushed
  split
  · split
    · rename_i written
      exact (flushed.trans (Calm.acqWrite written)).trans (Calm.acq _ _)
    · exact flushed.trans (Calm.padBlock t)
  · exact flushed

theorem Calm.putRecord (s : State) (kind seg : Nat) (r : List Byte) : Calm s (s.putRecord kind seg r) :=
  (Calm.acq s _).trans (Calm.flushOut _)

theorem Calm.putAll {l : List (List Byte)} {s t : State} (h : s.putAll l = some t) : Calm s t := by
  induction l generalizing s with
  | nil => rw [← Option.some.inj h]; exact Calm.refl s
  | cons r l ih =>
    unfold State.putAll at h
    split at h
    · rename_i written
      exact (Calm.acqWrite written).trans (ih h)
    · cases h

theorem Calm.dropBatches (s : State) (l : List DWord) : Calm s (s.dropBatches l) := by
  unfold State.dropBatches
  dsimp only
  refine Calm.trans (Calm.trans ?_ (Calm.wr (r := .acqDropped) (i := 0) (j := 0) (k := 0) (by decide) _ _))
    (Calm.acq _ _)
  split
  · exact Calm.err (by decide) s _ _
  · exact Calm.refl s

theorem Calm.putBatch (s : State) (batches : List DWord) (recs : List (List Byte)) :
    Calm s (s.putBatch batches recs) := by
  have flushed := Calm.flushOut s
  unfold State.putBatch
  dsimp only
  generalize s.flushOut = t at flushed
  split
  · exact Calm.refl s
  · split
    · exact flushed.trans (Calm.foldl (fun r _ s => Calm.putRecord s 0 0 r) t)
    · split
      · split
        · rename_i written
          exact flushed.trans (Calm.putAll written)
        · exact flushed.trans ((Calm.padBlock t).trans (Calm.dropBatches _ _))
      · exact flushed.trans (Calm.dropBatches t _)

theorem Calm.flushGroup (s : State) : Calm s s.flushGroup := by
  unfold State.flushGroup
  split
  · exact Calm.refl s
  · dsimp only
    split
    · exact Calm.refl s
    · exact (Calm.putBatch s _ _).trans (Calm.acq _ _)

theorem Calm.closeGap (s : State) : Calm s s.closeGap := by
  unfold State.closeGap
  split
  · exact Calm.refl s
  · exact Calm.acq s _

theorem Calm.closeSegment (s : State) (truncated : Bool) : Calm s (s.closeSegment truncated) := by
  have grouped : Calm s s.flushGroup.closeGap := (Calm.flushGroup s).trans (Calm.closeGap _)
  unfold State.closeSegment
  dsimp only
  generalize s.flushGroup.closeGap = t at grouped
  split
  · exact grouped
  · exact (((((grouped.trans (Calm.foldl (fun r _ s => Calm.putRecord s 0 _ r) t)).trans
      (Calm.putRecord _ _ _ _)).trans (Calm.modDir _ _ _)).trans (Calm.acq _ _)).trans (Calm.cause (by decide) _ _))

theorem Calm.acqDrain (s : State) : Calm s s.acqDrain := by
  have begun := Calm.acq s { s.acq with state := .drain, sampled := [] }
  unfold State.acqDrain State.drainAcq
  generalize ({ s with acq := { s.acq with state := .drain, sampled := [] } } : State) = t at begun
  have padded := begun.trans ((Calm.flushOut t).trans (Calm.padBlock _))
  dsimp only
  generalize t.flushOut.padBlock = u at padded
  split
  · exact begun
  · split
    · exact padded.trans (Calm.acqIdle u)
    · unfold State.spillNext
      split
      · exact padded.trans (Calm.issueInternal u _)
      · exact padded

theorem Calm.acqStop (s : State) (halted : Bool) : Calm s (s.acqStop halted) := by
  have ended {t : State} (h : Calm s t) : Calm s (if halted && t.acq.state ≠ .idle then t.acqIdle else t) := by
    split
    · exact h.trans (Calm.acqIdle t)
    · exact h
  unfold State.acqStop
  split
  · exact Calm.refl s
  · exact Calm.acqIdle s
  · exact ended ((Calm.closeSegment s true).trans (Calm.acqDrain _))
  · exact ended (Calm.acqDrain s)

/-! ### Link ports (R363, R369, R375) -/

theorem link_row_out {r : Reg} (base : r = .lnkStat ∨ r = .lnkSpare ∨ r = .lnkPeerA ∨ r = .lnkPeerB) (p : Nat) :
    r.addr p 0 0 % 0x1000 ≠ 4 ∧ r.addr p 0 0 % 0x1000 ≠ 0xC := by
  rcases base with rfl | rfl | rfl | rfl <;> simp only [Reg.addr, Reg.row] <;> omega

theorem Calm.modPort (s : State) (lp : Nat) (f : LogicalPort → LogicalPort) : Calm s (s.modPort lp f) :=
  Calm.of_regs rfl rfl rfl

theorem Calm.linkTo (s : State) (lp : Nat) (st : LinkState) : Calm s (s.linkTo lp st) := by
  unfold State.linkTo
  dsimp only
  split
  · exact (Calm.modPort s _ _).trans (Calm.setFld (link_row_out (.inl rfl) _) _ _ _ _)
  · exact (Calm.modPort s _ _).trans (Calm.setFld (link_row_out (.inl rfl) _) _ _ _ _)

theorem port_aligned (p : Nat) : portPage p 0 % 0x1000 = 0 := by
  unfold portPage
  omega

theorem Calm.linkDown (s : State) (lp reason : Nat) : Calm s (s.linkDown lp reason) :=
  (Calm.err (port_aligned _) s _ _).trans (Calm.cause (port_aligned _) _ _)

theorem Calm.linkDrain (s : State) (lp : Nat) : Calm s (s.linkDrain lp) := by
  unfold State.linkDrain
  dsimp only
  split
  · exact Calm.linkTo s lp _
  · exact (Calm.linkTo s lp _).trans (Calm.host _ _)

theorem Calm.giveUp (s : State) (lp : Nat) (k : LinkPacket) : Calm s (s.giveUp lp k) := by
  have refused (dst src : Byte) (next : Nat) : Calm s (s.noPort dst src next lp) := Calm.err (by decide) s _ _
  unfold State.giveUp
  split
  · dsimp only
    split
    · exact (refused _ _ _).trans (Calm.net _ _)
    · exact refused _ _ _
  · exact Calm.refl s

theorem Calm.giveUpAll (s : State) (lp : Nat) : Calm s (s.giveUpAll lp) :=
  (Calm.modPort s lp _).trans (Calm.foldl (fun u _ s => Calm.giveUp s lp u.pkt) _)

theorem lane_out {p k : Nat} (hk : k < 9) :
    Reg.addr .lnkLane p k % 0x1000 ≠ 4 ∧ Reg.addr .lnkLane p k % 0x1000 ≠ 0xC := by
  simp only [Reg.addr, Reg.row]
  omega

theorem Calm.dropLanes (s : State) (lp : Nat) {l : List Nat} (hl : ∀ k ∈ l, k < 9) : Calm s (s.dropLanes lp l) :=
  Calm.foldl (fun k hk s => (Calm.setFld (lane_out (hl k hk)) s _ _ _).trans
    (Calm.setFld (lane_out (hl k hk)) _ _ _ _)) s

theorem Calm.setReversed (s : State) (lp : Nat) (b : Bool) : Calm s (s.setReversed lp b) := by
  unfold State.setReversed
  split
  · exact Calm.setFld (link_row_out (.inl rfl) _) s _ _ _
  · exact Calm.setFld (link_row_out (.inl rfl) _) s _ _ _

theorem Calm.clearLanes (s : State) (lp : Nat) (half : lp < 16) : Calm s (s.clearLanes lp) := by
  have low : ∀ k ∈ List.range' (4 * lpHalf lp) (if lpHalf lp = 0 ∧ (s.port (otherHalf lp)).state = .off then 8 else 4),
      k < 9 := by
    intro k hk
    rw [List.mem_range'_1] at hk
    unfold lpHalf at hk
    split at hk <;> omega
  have dropped : Calm s ((List.range' (4 * lpHalf lp)
      (if lpHalf lp = 0 ∧ (s.port (otherHalf lp)).state = .off then 8 else 4)).foldl
        (fun s k => s.setLane lp k 27 24 15)
      (s.dropLanes lp (List.range' (4 * lpHalf lp)
        (if lpHalf lp = 0 ∧ (s.port (otherHalf lp)).state = .off then 8 else 4)))) :=
    (Calm.dropLanes s lp low).trans (Calm.foldl (fun k hk s => Calm.setFld (lane_out (low k hk)) s _ _ _) _)
  unfold State.clearLanes
  dsimp only
  generalize List.foldl _ _ _ = t at dropped
  have spared : Calm s (if (s.usesSpare lp || (!s.spareTaken lp &&
      (decide (lpHalf lp = 0) || !(s.port (otherHalf lp)).receives))) = true
      then ((t.wr .lnkSpare 0 (lpPort lp)).setLane lp 8 27 24 15).dropLanes lp [8] else t) := by
    split
    · exact ((dropped.trans (Calm.wr (link_row_out (.inr (.inl rfl)) _) t _)).trans
        (Calm.setFld (lane_out (by decide)) _ _ _ _)).trans (Calm.dropLanes _ lp (by simp))
    · exact dropped
  exact ((spared.trans (Calm.modPort _ _ _)).trans (Calm.setReversed _ _ _)).trans
    (Calm.setFld (link_row_out (.inl rfl) _) _ _ _ _)

theorem Calm.idleSpare (s : State) (lp : Nat) : Calm s (s.idleSpare lp) := by
  unfold State.idleSpare
  dsimp only
  split_ifs
  · exact Calm.net s _
  · exact Calm.net s _
  · exact Calm.refl s

theorem peerReg_cases (lp : Nat) : peerReg lp = .lnkPeerA ∨ peerReg lp = .lnkPeerB := by
  unfold peerReg
  split
  · exact .inl rfl
  · exact .inr rfl

theorem Calm.linkOff (s : State) {lp : Nat} (half : lp < 16) : Calm s (s.linkOff lp) := by
  have peer : peerReg lp = .lnkStat ∨ peerReg lp = .lnkSpare ∨ peerReg lp = .lnkPeerA ∨ peerReg lp = .lnkPeerB :=
    .inr (.inr (peerReg_cases lp))
  have off := ((((Calm.giveUpAll s lp).trans (Calm.clearLanes _ lp half)).trans (Calm.linkTo _ lp .off)).trans
    (Calm.idleSpare _ lp)).trans (Calm.setFld (link_row_out peer (lpPort lp)) _ 31 31 0)
  unfold State.linkOff
  dsimp only
  generalize State.setFld _ _ _ _ _ _ = t at off
  split
  · exact off
  · exact off.trans (Calm.host _ _)

theorem Calm.linkTakeDown (s : State) {lp : Nat} (half : lp < 16) : Calm s (s.linkTakeDown lp) := by
  have down : Calm s (if (((s.linkDown lp 0).port lp).retryBuf).isEmpty then (s.linkDown lp 0).linkOff lp
      else (s.linkDown lp 0).linkDrain lp) := by
    split
    · exact (Calm.linkDown s lp 0).trans (Calm.linkOff _ half)
    · exact (Calm.linkDown s lp 0).trans (Calm.linkDrain _ lp)
  unfold State.linkTakeDown
  split
  · exact Calm.refl s
  · exact Calm.refl s
  · exact down
  · exact down
  · exact Calm.linkOff s half

end

end Sys2Proof.Machine
end

section
/-! ## Pages enabled and disabled (R48, R375, R493) -/

namespace Sys2Proof.Machine

section
variable {s : State} {p : Nat}

/-- What a clear of EN starts leaves EN and SRST of every page alone. -/
theorem Calm.stopBlock (s : State) (p : Nat) : Calm s (s.stopBlock p) := by
  unfold State.stopBlock
  split
  · rename_i link
    have port : linkOf p < 8 := by
      simp only [isLinkPage, Bool.and_eq_true, decide_eq_true_eq] at link
      unfold linkOf
      omega
    refine Calm.foldl (fun lp hlp s => ?_) s
    simp only [List.mem_cons, List.not_mem_nil, or_false] at hlp
    split
    · exact Calm.refl s
    · exact Calm.linkTakeDown s (by omega)
  · split
    · split
      · exact Calm.ldrFail s _ _
      · exact Calm.refl s
    · split
      · exact Calm.acqStop s _
      · exact Calm.refl s

theorem pageExists_mod (known : pageExists p = true) : p % 0x1000 = 0 := by
  simp only [pageExists, Bool.and_eq_true, decide_eq_true_eq] at known
  exact known.1

/-- EN cleared: SRST stays, and a drain is under way while work is left. -/
theorem State.disablePage_spec (w : Table.wf regInit s.regs = true) (known : pageExists p = true) :
    let r := s.disablePage p
    Table.wf regInit r.regs = true ∧ r.pageEn p = false ∧
      (r.workLeft p = true → ∃ n : Nat, (p, n) ∈ r.host.drains) := by
  have wt : Table.wf regInit (s.setReg (p + 4) (setBit (s.reg (p + 4)) 0 false)).regs = true := State.wf_setReg w
  have off : (s.setReg (p + 4) (setBit (s.reg (p + 4)) 0 false)).pageEn p = false := by
    rw [State.pageEn, State.reg_setReg w, if_pos rfl, bit_setBit _ _ _ (by decide), if_pos rfl]
  have calm := Calm.stopBlock (s.setReg (p + 4) (setBit (s.reg (p + 4)) 0 false)) p
  unfold State.disablePage
  intro r
  obtain ⟨wu, kept⟩ := calm.regs wt
  have offU := ((kept p (pageExists_mod known)).1 0 (by decide)).trans off
  simp only [r]
  generalize State.stopBlock _ p = u at wu offU
  split
  · exact ⟨wu, offU, fun _ => ⟨0, by simp⟩⟩
  · rename_i quiet
    refine ⟨wu, offU, fun work => ?_⟩
    simp only [work, Bool.true_and, Bool.not_eq_true', Bool.not_eq_false, List.any_eq_true, decide_eq_true_eq] at quiet
    obtain ⟨⟨q, n⟩, mem, rfl⟩ := quiet
    exact ⟨n, mem⟩

/-- The pages of the device itself hold no work. -/
theorem State.disablePage_glb (s : State) (glb : p ∈ glbPages) :
    s.disablePage p = s.setReg (p + 4) (setBit (s.reg (p + 4)) 0 false) := by
  simp only [glbPages, List.mem_cons, List.not_mem_nil, or_false] at glb
  rcases glb with rfl | rfl | rfl | rfl | rfl | rfl | rfl <;> rfl

theorem State.workLeft_setReg (s : State) (a : Nat) (v : Word) (q : Nat) : (s.setReg a v).workLeft q = s.workLeft q :=
  rfl

theorem State.enablePage_spec (w : Table.wf regInit s.regs = true) :
    let r := s.enablePage p
    r.pageEn p = true ∧ (isLinkPage p = false ∨ s.workLeft p = false → ∀ d ∈ r.host.drains, d.1 ≠ p) ∧
      (isLinkPage p = true → s.workLeft p = true → r.host = s.host) ∧ RegsBut [p + 4] s r ∧
      Only [.regs, .host] s r := by
  have on : (s.setReg (p + 4) (setBit (s.reg (p + 4)) 0 true)).pageEn p = true := by
    rw [State.pageEn, State.reg_setReg w, if_pos rfl, bit_setBit _ _ _ (by decide), if_pos rfl]
  have regs := State.setReg_regsBut w (p + 4) (setBit (s.reg (p + 4)) 0 true)
  have only := s.setReg_only (p + 4) (setBit (s.reg (p + 4)) 0 true)
  unfold State.enablePage
  intro r
  have host : (s.setReg (p + 4) (setBit (s.reg (p + 4)) 0 true)).host = s.host := rfl
  have work := s.workLeft_setReg (p + 4) (setBit (s.reg (p + 4)) 0 true) p
  simp only [r]
  generalize s.setReg _ _ = t at on regs only host work
  split
  · rename_i stays
    rw [work, Bool.and_eq_true] at stays
    exact ⟨on, fun ends => by simp [stays.1, stays.2] at ends, fun _ _ => host, regs, only.mono (by simp)⟩
  · rename_i ends
    rw [work] at ends
    refine ⟨on, fun _ d hd => ?_, fun link _ => absurd (by simp [link, ‹s.workLeft p = true›]) ends, regs,
      (only.mono (by simp)).trans ((Only.host t _).mono (by simp))⟩
    simpa using (List.mem_filter.mp hd).2

/-- SRST set: EN is clear, and the page waits for the end of its drain. -/
theorem State.beginReset_spec (w : Table.wf regInit s.regs = true) (known : pageExists p = true) :
    let r := s.beginReset p
    r.pageEn p = false ∧ r.srst p = true ∧ p ∈ r.host.srsts := by
  obtain ⟨wd, off, -⟩ := State.disablePage_spec w known
  have calm : Calm (s.disablePage p) (if p = ldrPage ∧ s.loading = true then (s.disablePage p).takeOut
      else s.disablePage p) := by
    split
    · exact Calm.takeOut _
    · exact Calm.refl _
  obtain ⟨wt, kept⟩ := calm.regs wd
  have offT := ((kept p (pageExists_mod known)).1 0 (by decide)).trans off
  unfold State.beginReset
  intro r
  simp only [r]
  generalize (if p = ldrPage ∧ s.loading = true then (s.disablePage p).takeOut else s.disablePage p) = t at wt offT
  have word : (t.setReg (p + 4) (setBit (t.reg (p + 4)) 1 true)).reg (p + 4) = setBit (t.reg (p + 4)) 1 true := by
    rw [State.reg_setReg wt, if_pos rfl]
  refine ⟨?_, ?_, by simp⟩
  · show bit ((t.setReg (p + 4) _).reg (p + 4)) 0 = false
    rw [word, bit_setBit _ _ _ (by decide), if_neg (by decide)]
    exact offT
  · show bit ((t.setReg (p + 4) _).reg (p + 4)) 1 = true
    rw [word, bit_setBit _ _ _ (by decide), if_pos rfl]

end

end Sys2Proof.Machine
end

section
/-! ## Page resets completed (R48, R387, R507, R508, R515, R516) -/

namespace Sys2Proof.Machine

/-- A table in which a key does not stand reads as at reset there. -/
theorem Table.get_absent {α : Type} {d : Nat → α} {k : Nat} : ∀ {m : Table α}, (∀ e ∈ m, e.1 ≠ k) →
    Table.get d m k = d k
  | [], _ => rfl
  | (a, v) :: rest, h => by
    have other : k ≠ a := (h _ List.mem_cons_self).symm
    unfold Table.get
    rw [if_neg other]
    split
    · rfl
    · exact Table.get_absent fun e he => h e (List.mem_cons_of_mem _ he)

section
variable {s : State} {p : Nat}

/-- Which registers the reset of page p leaves, by address. -/
def keptAt (p a : Nat) : Bool := decide (a < p) || decide (p + 0x1000 ≤ a) || survivesReset a

theorem State.clearPage_eq (s : State) (p : Nat) : s.clearPage p =
    if p = wdgPage then ({ s with regs := s.regs.filter fun e => keptAt p e.1 } : State).setFld .wdgStat 15 0
      (s.fld .wdgStat 15 0) else { s with regs := s.regs.filter fun e => keptAt p e.1 } := rfl

theorem State.clearPage_only (s : State) (p : Nat) : Only [.regs] s (s.clearPage p) := by
  have cleared : Only [.regs] s { s with regs := s.regs.filter fun e => keptAt p e.1 } :=
    ⟨rfl, fun q hq => by cases q <;> simp_all [Part.same]⟩
  rw [State.clearPage_eq]
  split
  · exact cleared.trans (State.setReg_only _ _ _)
  · exact cleared

theorem keptAt_false {a : Nat} (low : p ≤ a) (high : a < p + 0x1000) (gone : survivesReset a = false) :
    keptAt p a = false := by
  simp [keptAt, gone]
  omega

/-- A register that the reset clears does not stand in the table. -/
theorem filter_keptAt_get {m : Table Word} {a : Nat} (gone : keptAt p a = false) :
    Table.get regInit (m.filter fun e => keptAt p e.1) a = regInit a := by
  refine Table.get_absent fun e he same => ?_
  rw [List.mem_filter, same, gone] at he
  exact Bool.false_ne_true he.2

/-- PG_CTRL of a page but TIM page 0 is cleared. -/
theorem ctrl_cleared (aligned : p % 0x1000 = 0) (noTim : p ≠ timPage) : survivesReset (p + 4) = false := by
  have page : (p + 4) / 0x1000 * 0x1000 = p := by omega
  have off : (p + 4) % 0x1000 = 4 := by omega
  unfold survivesReset
  simp only [page, off, noTim, if_false]
  split_ifs <;> simp

theorem regInit_ctrl (known : pageExists p = true) : regInit (p + 4) = 5 := by
  have aligned := pageExists_mod known
  simp only [pageExists, Bool.and_eq_true, Bool.or_eq_true, decide_eq_true_eq] at known
  unfold regInit
  rw [if_neg (by unfold tilePage at known; omega), if_pos (by omega), if_pos (by omega)]

theorem State.resetPage_only (s : State) (p : Nat) : Only [.regs, .host] (s.resetBlockState p) (s.resetPage p) := by
  have cleared := (s.resetBlockState p).clearPage_only p
  unfold State.resetPage
  dsimp only
  generalize (s.resetBlockState p).clearPage p = t at cleared
  have ctrl : Only [.regs] t (if p = timPage then t.setReg (p + 4) (setBit (t.reg (p + 4)) 1 false) else t) := by
    split
    · exact State.setReg_only _ _ _
    · exact Only.refl _ t
  generalize (if p = timPage then t.setReg (p + 4) (setBit (t.reg (p + 4)) 1 false) else t) = u at ctrl
  have banks : Only [.regs] u (if p = svcPage then u.setBanks else u) := by
    split
    · exact State.setReg_only _ _ _
    · exact Only.refl _ u
  generalize (if p = svcPage then u.setBanks else u) = v at banks
  exact (((cleared.trans ctrl).trans banks).mono (by simp)).trans ((Only.host v _).mono (by simp))

/-- The registers of a page but TIM page 0, the watchdog's and the dispatcher's after its reset. -/
theorem State.resetPage_regs (noTim : p ≠ timPage) (noSvc : p ≠ svcPage) (noWdg : p ≠ wdgPage) :
    (s.resetPage p).regs = (s.resetBlockState p).regs.filter fun e => keptAt p e.1 := by
  simp only [State.resetPage, State.clearPage_eq, noTim, noSvc, noWdg, if_false]

/-- PG_CTRL of a page but TIM page 0 after its reset. -/
theorem State.resetPage_ctrl (w : Table.wf regInit s.regs = true) (known : pageExists p = true) (noTim : p ≠ timPage) :
    (s.resetPage p).reg (p + 4) = 5 := by
  have gone := keptAt_false (p := p) (Nat.le_add_right p 4) (by omega) (ctrl_cleared (pageExists_mod known) noTim)
  have init := regInit_ctrl known
  have cleared (t : State) : ({ t with regs := t.regs.filter fun e => keptAt p e.1 } : State).reg (p + 4) = 5 :=
    (filter_keptAt_get gone).trans init
  have wf {t : State} (wt : Table.wf regInit t.regs = true) :
      Table.wf regInit ({ t with regs := t.regs.filter fun e => keptAt p e.1 } : State).regs = true :=
    Table.wf_filter _ wt
  by_cases svc : p = svcPage
  · subst svc
    have ws : Table.wf regInit s.resetStore.regs = true := State.wf_setFld w _ _ _ _ _ _
    exact (State.reg_setReg (wf ws)).trans ((if_neg (by decide)).trans (cleared _))
  · by_cases wdg : p = wdgPage
    · subst wdg
      have ws : Table.wf regInit (s.resetBlockState wdgPage).regs = true := State.wf_setFld w _ _ _ _ _ _
      exact (State.reg_setReg (wf ws)).trans ((if_neg (by decide)).trans (cleared _))
    · exact (State.reg_congr (State.resetPage_regs noTim svc wdg) _).trans (cleared _)

/-- The reset of TIM page 0 clears SRST, and no other register changes (R387). -/
theorem State.resetPage_tim (s : State) : (s.resetPage timPage).regs =
    (s.setReg (timPage + 4) (setBit (s.reg (timPage + 4)) 1 false)).regs := by
  have all : (s.regs.filter fun e => keptAt timPage e.1) = s.regs := by
    refine List.filter_eq_self.mpr fun e _ => ?_
    by_cases inside : timPage ≤ e.1 ∧ e.1 < timPage + 0x1000
    · have page : e.1 / 0x1000 * 0x1000 = timPage := by unfold timPage at *; omega
      have kept : survivesReset e.1 = true := by rw [survivesReset]; simp only [page, if_true]
      simp [keptAt, kept]
    · have out : e.1 < timPage ∨ timPage + 0x1000 ≤ e.1 := by omega
      simp [keptAt, out]
  have block : s.resetBlockState timPage = s := rfl
  have cleared : s.clearPage timPage = s := by rw [State.clearPage_eq, if_neg (by decide), all]
  unfold State.resetPage
  rw [block, cleared]
  rfl

/-- The pages of the device itself have no block state behind them. -/
theorem State.resetBlockState_glb (s : State) (glb : p ∈ glbPages) : s.resetBlockState p = s := by
  simp only [glbPages, List.mem_cons, List.not_mem_nil, or_false] at glb
  rcases glb with rfl | rfl | rfl | rfl | rfl | rfl | rfl <;> rfl

theorem State.resetBlockState_eng (s : State) (eng : isEngPage p = true) : s.resetBlockState p =
    { s with svc := { s.svc with engType := s.svc.engType.filter fun e => e.1 ≠ engOf p } } := by
  have other (q : Nat) (hq : isEngPage q = false) : p ≠ q := fun e => by rw [e, hq] at eng; cases eng
  unfold State.resetBlockState
  simp only [other pwrPage (by decide), other thermPage (by decide), other runPage (by decide),
    other encPage (by decide), other wdgPage (by decide), other criPage (by decide), other flsPage (by decide),
    other bstPage (by decide), other prfPage (by decide), other svcPage (by decide), eng, if_false, if_true]

theorem State.sliceAborted_slice (s : State) : s.sliceAborted.bst.slice = none := by
  unfold State.sliceAborted
  split
  · assumption
  · rfl

theorem State.resetSelftest_shutdown (byShutdown : s.bst.byShutdown = true) (slice : s.bst.slice.isSome = true) :
    s.resetSelftest.bst.slice = none ∧ s.resetSelftest.sup.shut = some false := by
  unfold State.resetSelftest
  simp only [byShutdown, slice, Bool.and_self, if_true]
  exact ⟨s.sliceAborted_slice, trivial⟩

theorem State.resetPage_done (w : Table.wf regInit s.regs = true) (known : pageExists p = true) :
    let r := s.resetPage p
    p ∉ r.host.srsts ∧ r.srst p = false ∧ (p ≠ timPage → r.pageEn p = true) ∧
      (p = timPage → r.pageEn p = s.pageEn p ∧ ∀ a : Nat, a ≠ timPage + 4 → r.reg a = s.reg a) ∧
      (p = svcPage → r.svc.cache = []) ∧
      (isEngPage p = true → Table.get (fun _ => (0 : Byte)) r.svc.engType (engOf p) = 0) ∧
      (p = bstPage → s.bst.byShutdown = true → s.bst.slice.isSome = true → r.bst.slice = none ∧
        r.sup.shut = some false) ∧
      (p ≠ wdgPage → p ≠ svcPage → ∀ a : Nat, p ≤ a → a < p + 0x1000 → survivesReset a = false →
        r.reg a = regInit a) ∧
      (p ∈ glbPages → ∀ a : Nat, survivesReset a = true → r.reg a = s.reg a) ∧
      (p = pwrPage → r.led.level = 0 ∧ r.led.pInUw = 0 ∧ r.led.budgetUw = 0 ∧
        r.led.thermOver = s.led.thermOver) ∧
      (p = runPage → r.run = { s.run with causes := 0 }) := by
  intro r
  have only := s.resetPage_only p
  have svc := only.2 .svc (by simp)
  have tim (e : p = timPage) (a : Nat) : r.reg a =
      if a = timPage + 4 then setBit (s.reg (timPage + 4)) 1 false else s.reg a := by
    subst e
    exact (State.reg_congr s.resetPage_tim a).trans (State.reg_setReg w)
  refine ⟨?_, ?_, fun noTim => ?_, fun e => ⟨?_, fun a ha => ?_⟩, fun e => ?_, fun eng => ?_,
    fun e byShutdown slice => ?_, fun noWdg noSvc a low high gone => ?_, fun glb a kept => ?_, fun e => ?_, fun e => ?_⟩
  · show p ∉ (s.resetPage p).host.srsts
    unfold State.resetPage
    simp
  · by_cases e : p = timPage
    · rw [State.srst, tim e, if_pos (by rw [e]), bit_setBit _ _ _ (by decide), if_pos rfl]
    · rw [State.srst, State.resetPage_ctrl w known e]
      rfl
  · rw [State.pageEn, State.resetPage_ctrl w known noTim]
    rfl
  · rw [State.pageEn, tim e, if_pos (by rw [e]), bit_setBit _ _ _ (by decide), if_neg (by decide), State.pageEn, e]
  · rw [tim e, if_neg ha]
  · subst e
    exact congrArg Service.cache svc
  · rw [svc, State.resetBlockState_eng s eng]
    exact Table.get_absent fun e he => by simpa using (List.mem_filter.mp he).2
  · subst e
    have done := State.resetSelftest_shutdown byShutdown slice
    exact ⟨(congrArg Selftest.slice (only.2 .bst (by simp))).trans done.1,
      (congrArg Supply.shut (only.2 .sup (by simp))).trans done.2⟩
  · by_cases e : p = timPage
    · have page : a / 0x1000 * 0x1000 = timPage := by unfold timPage at *; omega
      rw [survivesReset] at gone
      simp only [page, if_true] at gone
      cases gone
    · exact (congrArg (Table.get regInit · a) (State.resetPage_regs e noSvc noWdg)).trans
        (filter_keptAt_get (keptAt_false low high gone))
  · have off (q : Nat) (hq : q ∉ glbPages) : p ≠ q := fun e => hq (e ▸ glb)
    refine (congrArg (Table.get regInit · a)
      (State.resetPage_regs (off _ (by decide)) (off _ (by decide)) (off _ (by decide)))).trans ?_
    rw [State.resetBlockState_glb s glb]
    refine (Table.get_filter_from (keptAt p) w).trans (if_pos ?_)
    simp [keptAt, kept]
  · subst e
    have led : r.led = s.resetLedger.led := only.2 .led (by simp)
    rw [led]
    exact ⟨rfl, rfl, rfl, rfl⟩
  · subst e
    exact only.2 .run (by simp)

end

end Sys2Proof.Machine
end

section
/-! ## The loader's page reset in a load (R205, R515) -/

namespace Sys2Proof.Machine

theorem State.checkReady_only (s : State) : Only [.regs, .sup, .con, .host, .flash] s s.checkReady := by
  have shown := s.readyShown_records.only
  unfold State.checkReady
  split
  · rw [State.becomeReady_eq]
    exact (shown.mono (by simp)).trans ⟨rfl, fun p hp => by cases p <;> simp_all [Part.same]⟩
  · exact Only.refl _ s

theorem State.ldrTo_spec (s : State) (n : LdrState) :
    Only [.ldr, .regs, .con, .host, .sup, .flash] s (s.ldrTo n) ∧ (s.ldrTo n).ldr.state = n := by
  have ended (t : State) : Only [.regs, .con, .host, .sup, .flash] t (t.autoloadEnd n) := by
    unfold State.autoloadEnd
    split
    · have noLoad := Only.sup t { t.sup with autoload := false }
      exact ((noLoad.mono (by simp)).trans ((State.setReg_only _ _ _).mono (by simp))).trans
        ((State.checkReady_only _).mono (by simp))
    · exact Only.refl _ t
  have caused (t : State) : Only [.regs, .con, .host, .sup, .flash] t (t.ldrCause n) := by
    unfold State.ldrCause
    split
    · exact (State.raise_only t _ _).mono (by simp)
    · exact (State.raise_only t _ _).mono (by simp)
    · exact Only.refl _ t
  unfold State.ldrTo
  split
  · rename_i same
    exact ⟨Only.refl _ s, same⟩
  · have told := (((State.event_only (s.setLdr { s.ldr with state := n }) 0x4C [decText n.code]).mono
      (by simp)).trans (ended _)).trans (caused _)
    exact ⟨((Only.ldr s _).mono (by simp)).trans (told.mono (by simp)),
      congrArg Loader.state (told.2 .ldr (by simp))⟩

theorem State.mapTiles_only (s : State) (f : Tile → Tile) : Only [.tiles] s (s.mapTiles f) :=
  Only.foldl (fun s t => s.setTile_only t _) _ s

/-- A load that fails. -/
theorem State.ldrFail_spec (s : State) (code info : Nat) :
    Only [.ldr, .regs, .con, .host, .sup, .flash, .tiles] s (s.ldrFail code info) ∧
      (s.ldrFail code info).ldr.state = .failed := by
  obtain ⟨only, state⟩ := ((s.err ldrPage code info).setLdr
    { (s.err ldrPage code info).ldr with cfgerr := true, buf := [] }).ldrTo_spec .failed
  have failed := (((s.err_only ldrPage code info).mono (by simp)).trans
    ((Only.ldr (s.err ldrPage code info) _).mono (by simp))).trans (only.mono
      (show ∀ p ∈ _, p ∈ [Part.ldr, .regs, .con, .host, .sup, .flash, .tiles] by simp))
  unfold State.ldrFail
  dsimp only
  generalize State.ldrTo _ _ = t at failed state
  split_ifs
  · exact ⟨failed.trans ((Only.ldr t _).mono (by simp)), state⟩
  · have unmapped := t.mapTiles_only fun x => { x with vtile := none, phase := .idle, hold := none, depth := 0 }
    have same : t.unmap.ldr = t.ldr := unmapped.2 .ldr (by simp)
    exact ⟨((failed.trans (unmapped.mono (by simp))).trans ((Only.ldr t.unmap _).mono (by simp))).trans
      ((State.setReg_only _ _ _).mono (by simp)), state⟩

/-- The image taken out of service while the loader is FAILED. -/
theorem State.takeOut_failed {s : State} (failed : s.ldr.state = .failed) :
    let r := s.takeOut
    Only [.ldr, .pins, .prf, .svc, .tiles, .regs] s r ∧ r.ldr.state = .failed ∧ r.ldr.inService = false ∧
      r.ldr.image = none ∧ r.ldr.setReset = true ∧ r.pins.dioDrive = 0 ∧ r.prf.cur = none := by
  let t : State := ((s.setLdr { s.ldr with
      inService := false, image := none, done := false, setReset := true, kept := false }).driversOff).discardProofs
  have off : Only [.ldr, .pins, .prf] s t := ⟨rfl, fun p hp => by
    cases p <;> simp_all [Part.same, t, State.setLdr, State.driversOff, State.discardProofs]⟩
  have items : Only [.svc] t t.dropTileItems :=
    (Only.foldl (fun s (i : SvcItem) => s.dropItem_only i.id) _ t).trans (Only.svc _ _)
  have unmapped : Only [.tiles] t.dropTileItems t.dropTileItems.unmap := State.mapTiles_only _ _
  have all : Only [.svc, .tiles, .regs] t t.dropTileItems.unmap.vdioAlert :=
    ((items.mono (by simp)).trans (unmapped.mono (by simp))).trans ((State.setReg_only _ _ _).mono (by simp))
  have ldr := all.2 .ldr (by simp)
  have stays : s.takeOut = t.dropTileItems.unmap.vdioAlert := by
    have state : t.dropTileItems.unmap.vdioAlert.ldr.state = .failed := (congrArg Loader.state ldr).trans failed
    show (if t.dropTileItems.unmap.vdioAlert.ldr.state = .service then _ else _) = _
    rw [state, if_neg (by decide)]
  intro r
  have e : r = t.dropTileItems.unmap.vdioAlert := stays
  rw [e]
  exact ⟨(off.mono (by simp)).trans (all.mono (by simp)), (congrArg Loader.state ldr).trans failed,
    congrArg Loader.inService ldr, congrArg Loader.image ldr, congrArg Loader.setReset ldr,
    congrArg Pins.dioDrive (all.2 .pins (by simp)), congrArg Proofs.cur (all.2 .prf (by simp))⟩

/-- A reset of the loader's page in a load. -/
theorem State.beginReset_loading {s : State} (w : Table.wf regInit s.regs = true) (load : s.loading = true) :
    let r := s.beginReset ldrPage
    r.ldr.state = .failed ∧ r.ldr.inService = false ∧ r.ldr.image = none ∧ r.ldr.setReset = true ∧
      r.pins.dioDrive = 0 ∧ r.prf.cur = none ∧ r.run.state = s.run.state ∧ r.mem = s.mem ∧
      r.srst ldrPage = true := by
  have srst := (State.beginReset_spec w (p := ldrPage) (by decide)).2.1
  let t := s.setReg (ldrPage + 4) (setBit (s.reg (ldrPage + 4)) 0 false)
  have fails : s.disablePage ldrPage = t.ldrFail 0x700E (ldInfo 2) := by
    have stop : t.stopBlock ldrPage = t.ldrFail 0x700E (ldInfo 2) := by
      have loadNow : t.loading = true := load
      have page : t.stopBlock ldrPage = if t.loading then t.ldrFail 0x700E (ldInfo 2) else t := rfl
      rw [page, if_pos loadNow]
    have idle (u : State) : u.workLeft ldrPage = false := rfl
    rw [← stop]
    simp only [State.disablePage, idle, Bool.false_and, Bool.false_eq_true, if_false]
    rfl
  obtain ⟨only, failed⟩ := t.ldrFail_spec 0x700E (ldInfo 2)
  obtain ⟨out, state, service, image, reset, drive, cur⟩ := State.takeOut_failed failed
  have same : Only [.regs, .host] (t.ldrFail 0x700E (ldInfo 2)).takeOut (s.beginReset ldrPage) := by
    unfold State.beginReset
    dsimp only
    rw [if_pos ⟨rfl, load⟩, fails]
    exact ((State.setReg_only _ _ _).mono (by simp)).trans ((Only.host _ _).mono (by simp))
  have all := ((s.setReg_only (ldrPage + 4) (setBit (s.reg (ldrPage + 4)) 0 false)).mono
    (show ∀ p ∈ _, p ∈ [Part.ldr, .regs, .con, .host, .sup, .flash, .tiles, .pins, .prf, .svc] by simp)).trans
    (((only.mono (by simp)).trans (out.mono (by simp))).trans (same.mono (by simp)))
  have ldr := same.2 .ldr (by simp)
  exact ⟨(congrArg Loader.state ldr).trans state, (congrArg Loader.inService ldr).trans service,
    (congrArg Loader.image ldr).trans image, (congrArg Loader.setReset ldr).trans reset,
    (congrArg Pins.dioDrive (same.2 .pins (by simp))).trans drive,
    (congrArg Proofs.cur (same.2 .prf (by simp))).trans cur,
    congrArg RunCtl.state (all.2 .run (by simp)), all.2 .mem (by simp), srst⟩

/-! ## Obligation O28 -/

/-- Settles O28: what a clear of EN starts and what a reset takes out of service keep EN and SRST of every page
(`Calm`), and a page reset removes the page's registers from the table. -/
theorem pagesDisableAndReset : Obligations.PagesDisableAndReset := by
  unfold Obligations.PagesDisableAndReset
  rintro page s ⟨w, -⟩ known
  have unit (k : Out) : guardUnit (pageExists page) k = k := guardUnit_of known k
  refine ⟨fun reach srst free en => ?_, fun reach srst free => ?_, fun reach srst free noTile noGlb => ?_,
    fun reach srst tile inRun => ?_, fun waits idle pause => ?_, fun reach srst load => ?_, fun reach srst locked => ?_⟩
  · obtain ⟨-, off, drains⟩ := State.disablePage_spec w known
    refine ⟨s.disablePage page, ?_, off, drains, fun glb => ?_⟩
    · exact (unit _).trans ((onHeader_open reach srst free 4 _).trans (whenDue_of en s _))
    · rw [State.disablePage_glb s glb]
      exact ⟨s.setReg_only _ _, State.setReg_regsBut w _ _⟩
  · exact ⟨_, (unit _).trans (onHeader_open reach srst free 4 _), State.enablePage_spec w⟩
  · refine ⟨s.beginReset page, (unit _).trans ((onHeader_open reach srst free 4 _).trans ?_),
      State.beginReset_spec w known⟩
    simp [noTile, noGlb]
  · have free : s.pageLocked page = false := by
      have apart : page ≠ acqPage + 0x1000 ∧ page ≠ acqPage + 0x2000 := by
        simp only [isTilePage, decide_eq_true_eq] at tile
        unfold acqPage
        omega
      simp [State.pageLocked, apart.1, apart.2]
    obtain ⟨only, regs, count⟩ := State.err_recorded w page 0x004 (show 0x1017 < 2 ^ 16 by decide)
    refine ⟨s.err page 0x1017 0x004, (unit _).trans ((onHeader_open reach srst free 4 _).trans ?_),
      State.tile_congr (only.2 .tiles (by simp)), only, regs, count⟩
    simp [tile, inRun]
  · refine ⟨s.resetPage page, (unit _).trans (whenDue_of ?_ s _), State.resetPage_done w known⟩
    rcases pause with other | run
    · simp [waits, idle, other]
    · simp [waits, idle, run]
  · refine ⟨s.beginReset ldrPage, ?_, State.beginReset_loading w load⟩
    have free : s.pageLocked ldrPage = false := by simp [State.pageLocked, ldrPage, acqPage]
    have glb : ¬ (ldrPage ∈ glbPages ∧ s.shuttingDown = true) := fun h => absurd h.1 (by decide)
    refine (guardUnit_of (show pageExists ldrPage = true by decide) _).trans
      ((onHeader_open reach srst free 4 _).trans ?_)
    rw [show isTilePage ldrPage = false by decide, Bool.false_and, if_neg Bool.false_ne_true,
      if_neg (by simpa using glb)]
  · have busy := State.lockedWrite_recorded w page 4
    exact ⟨⟨_, (unit _).trans (onHeader_locked reach srst locked 4 _), busy⟩,
      ⟨_, (unit _).trans (onHeader_locked reach srst locked 4 _), busy⟩,
      ⟨_, (unit _).trans (onHeader_locked reach srst locked 4 _), busy⟩⟩

end Sys2Proof.Machine
end

section
/-! ## Descriptors taken (R62, R63) -/

namespace Sys2Proof.Machine

theorem MessagesOnly.porter {s t : State} (h : MessagesOnly s t) : t.host.porter = s.host.porter := by
  rw [show t.host = _ from h]

theorem MessagesOnly.statuses {s t : State} (h : MessagesOnly s t) : t.host.statuses = s.host.statuses := by
  rw [show t.host = _ from h]

section
variable {s t : State} {p : Nat} {d : Descriptor} {data : List Byte}

/-- What porter p has in flight once its list is stored. -/
theorem State.inFlight_set (w : Table.wf (fun _ => []) s.host.porter = true) (p : Nat)
    (l : List (Nat × Nat × Nat × Bool)) (q : Nat) (h : t.host.porter = Table.set (fun _ => []) s.host.porter p l) :
    t.inFlight q = if q = p then l else s.inFlight q := by
  rw [State.inFlight, h, Table.get_set w]
  rfl

theorem State.inFlight_congr (h : t.host.porter = s.host.porter) (q : Nat) : t.inFlight q = s.inFlight q := by
  rw [State.inFlight, h]
  rfl

theorem State.takeDesc_inFlight (w : Table.wf (fun _ => []) s.host.porter = true) (p : Nat) (irq : Bool)
    (code failed q : Nat) : (s.takeDesc p irq code failed).inFlight q =
      if q = p then s.inFlight p ++ [(s.nextIndex p, code, failed, irq)] else s.inFlight q :=
  State.inFlight_set w p _ q rfl

theorem State.takeDesc_only (s : State) (p : Nat) (irq : Bool) (code failed : Nat) :
    Only [.host] s (s.takeDesc p irq code failed) := Only.host s _

/-- When porter p takes a descriptor. -/
def State.PorterReady (s : State) (p : Nat) (d : Descriptor) : Prop :=
  s.reachable = true ∧ s.sup.pcieUp = true ∧ s.pageEn (porterPage p) = true ∧ s.ringReady p = true ∧
    s.underTest 165 = false ∧ s.targetTested d = false ∧ s.run.state ≠ .recover ∧ s.enc.integrityHalt = false ∧
      (d.fence = true → s.inFlight p = [])

theorem execPorterDescriptor_ready (hp : p < 8) (ready : s.PorterReady p d) (host : Option (List Byte))
    (drams : List (Nat × Dram)) :
    execPorterDescriptor p d host drams s = .next (s.runDesc p d host drams) := by
  obtain ⟨reach, up, en, ring, porters, target, pause, halt, fence⟩ := ready
  have order : (!d.fence || (s.inFlight p).isEmpty) = true := by
    cases f : d.fence with
    | false => rfl
    | true => simp [fence f]
  exact (guardUnit_of (decide_eq_true hp) _).trans
    (whenDue_of (by simp [reach, up, en, ring, porters, target, pause, halt, order]) s _)

/-- A descriptor that names no target is BAD_DESC. -/
theorem State.runDesc_bad (bad : 4 ≤ d.tgt.toNat ∨ (d.tgt = 3 ∧ d.dir = true)) (host : Option (List Byte))
    (drams : List (Nat × Dram)) : s.runDesc p d host drams = s.takeDesc p d.irq 7 0 := by
  have refused : s.descRefused p d = some 7 := by
    unfold State.descRefused
    rcases bad with above | ⟨loader, dir⟩
    · simp [above]
    · simp [loader, dir]
  rw [State.runDesc, refused]

/-- A descriptor that is not refused moves its bytes. -/
theorem State.runDesc_moves (open_ : s.descRefused p d = none) (len : d.length.toNat = data.length)
    {host : Option (List Byte)} (bytes : d.dir = false → host = some data) (drams : List (Nat × Dram)) :
    ∃ l, (d.dir = false → l = data) ∧ s.runDesc p d host drams = s.moveDesc p d l drams := by
  refine ⟨((host.getD []) ++ List.replicate d.length.toNat 0).take d.length.toNat, fun out => ?_, ?_⟩
  · rw [bytes out, len]
    simp
  · have given : (!d.dir && host.isNone) = false := by
      cases h : d.dir with
      | false => simp [bytes h]
      | true => rfl
    rw [State.runDesc, open_]
    dsimp only
    rw [given, if_neg Bool.false_ne_true]

theorem State.descRefused_none {n : Nat} (tgt : d.tgt.toNat = n) (low : n < 3 ∨ (n = 3 ∧ d.dir = false))
    (rsvd : d.rsvd = 0) (range : s.descRange d = true) (owned : s.descOwned p d = true) :
    s.descRefused p d = none := by
  have named : (decide (4 ≤ d.tgt.toNat) || (decide (d.tgt = 3) && d.dir) || decide (d.rsvd ≠ 0)) = false := by
    have three : d.tgt = 3 ↔ n = 3 := by rw [← tgt]; exact ⟨fun e => by rw [e]; rfl, fun e => BitVec.eq_of_toNat_eq e⟩
    rcases low with low | ⟨loader, out⟩
    · have other : d.tgt ≠ 3 := fun e => by have := three.mp e; omega
      simp only [rsvd, tgt, other, show ¬ 4 ≤ n by omega, decide_false, Bool.false_and, Bool.or_self, ne_eq,
        not_true_eq_false]
    · simp [rsvd, out, tgt, loader]
  rw [State.descRefused, named, range, owned]
  rfl

end

end Sys2Proof.Machine
end

section
/-! ## Bytes moved to and from the larder and the pantries (R64) -/

namespace Sys2Proof.Machine

/-- Banks of the larder touched: their marks of retention go, their bytes stay. -/
theorem State.touchLarder_foldl (l : List Nat) (s : State) :
    Only [.regs, .mem] s (l.foldl State.touchLarder s) ∧ (l.foldl State.touchLarder s).mem.larder = s.mem.larder ∧
      (l.foldl State.touchLarder s).mem.ddr = s.mem.ddr := by
  induction l generalizing s with
  | nil => exact ⟨Only.refl _ s, rfl, rfl⟩
  | cons b l ih =>
    obtain ⟨only, larder, ddr⟩ := ih (s.touchLarder b)
    have one : Only [.regs, .mem] s (s.touchLarder b) :=
      ((s.setReg_only _ _).mono (by simp)).trans (
        (Only.mem (s.wr .memLown (setBit (s.rd .memLown b) 29 false) b) _).mono
        (by simp))
    exact ⟨one.trans only, larder, ddr⟩

theorem State.moveLarder_in {s : State} {d : Descriptor} (out : d.dir = false) (w : s.mem.larder.wf = true)
    (data : List Byte) :
    let a := bits d.devAddr 24 0
    let r := s.moveLarder d data
    (∀ i < data.length, r.mem.larder.read (a + i) = data.getD i 0) ∧
      (∀ b : Nat, b < a ∨ a + data.length ≤ b → r.mem.larder.read b = s.mem.larder.read b) ∧
      r.mem.ddr = s.mem.ddr ∧ Only [.mem, .regs] s r := by
  obtain ⟨only, larder, ddr⟩ := State.touchLarder_foldl (banksOf 524288 (bits d.devAddr 24 0) d.length.toNat) s
  unfold State.moveLarder
  dsimp only
  rw [out, if_neg Bool.false_ne_true]
  generalize List.foldl _ s _ = t at only larder ddr
  have read (b : Nat) : (t.mem.larder.writeBytes (bits d.devAddr 24 0) data).read b =
      if bits d.devAddr 24 0 ≤ b ∧ b < bits d.devAddr 24 0 + data.length then data.getD (b - bits d.devAddr 24 0) 0
      else s.mem.larder.read b := by
    rw [larder, Memory.read_writeBytes w]
  refine ⟨fun i hi => ?_, fun b hb => ?_, ddr, (only.mono (by simp)).trans ((Only.mem t _).mono (by simp))⟩
  · rw [read, if_pos ⟨by omega, by omega⟩, Nat.add_sub_cancel_left]
  · rw [read, if_neg (by omega)]

theorem State.toHost_one (s : State) (a : DWord) (l : List Byte) :
    (s.toHost a [(0, l)]).host.wrote = s.host.wrote ++ [(a, l)] ∧
      (s.toHost a [(0, l)]).host.porter = s.host.porter ∧ Only [.host] s (s.toHost a [(0, l)]) := by
  refine ⟨?_, rfl, Only.host s _⟩
  simp [State.toHost]

theorem State.moveLarder_out {s : State} {d : Descriptor} (dir : d.dir = true) (data : List Byte) :
    let r := s.moveLarder d data
    r.host.wrote = s.host.wrote ++ [(d.hostAddr, s.mem.larder.readBytes (bits d.devAddr 24 0) d.length.toNat)] ∧
      r.host.porter = s.host.porter ∧
      r.mem.larder = s.mem.larder ∧ r.mem.ddr = s.mem.ddr ∧ Only [.host, .mem, .regs] s r := by
  obtain ⟨only, larder, ddr⟩ := State.touchLarder_foldl (banksOf 524288 (bits d.devAddr 24 0) d.length.toNat) s
  unfold State.moveLarder
  dsimp only
  rw [dir, if_pos rfl]
  generalize List.foldl _ s _ = t at only larder ddr
  obtain ⟨wrote, porter, out⟩ := t.toHost_one d.hostAddr (t.mem.larder.readBytes (bits d.devAddr 24 0) d.length.toNat)
  have host := only.2 .host (by simp)
  refine ⟨?_, porter.trans (congrArg HostPort.porter host), larder, ddr,
    (only.mono (by simp)).trans (out.mono (by simp))⟩
  rw [wrote, larder, host]

theorem Tile.putPantry_read {x : Tile} (w : Memory.wf x.pantry = true) (a : Nat) (l : List Byte) (b : Nat) :
    (x.putPantry a l).pantry.read b =
      if a ≤ b ∧ b < a + l.length then l.getD (b - a) 0 else x.pantry.read b := Memory.read_writeBytes w

theorem State.unprotect_only (s : State) (why : Nat) : Only [.regs, .con, .host, .prf] s (s.unprotect why) ∧
    MessagesOnly s (s.unprotect why) := by
  unfold State.unprotect
  split
  · exact ⟨Only.refl _ s, MessagesOnly.of_eq rfl⟩
  · let t : State := { s with prf := { s.prf with unprot := why :: s.prf.unprot, saveDue := true } }
    have told := t.err_only prfPage 0x8003 why
    have caused := (t.err prfPage 0x8003 why).raise_only prfPage (flagAt true 4)
    have begun : MessagesOnly s t := MessagesOnly.of_eq rfl
    exact ⟨(((Only.prf s _).mono (by simp)).trans (told.mono (by simp))).trans (caused.mono (by simp)),
      (begun.trans (t.err_messages prfPage 0x8003 why)).trans (State.raise_messages _ _ _)⟩

theorem State.movePantry_in {s : State} {t : Nat} {d : Descriptor} (out : d.dir = false)
    (w : Table.wf (fun _ => Tile.reset) s.tiles = true) (wp : Memory.wf (s.tile t).pantry = true) (data : List Byte) :
    let a := bits d.devAddr 19 0
    let r := s.movePantry t d data
    (∀ i < data.length, (r.tile t).pantry.read (a + i) = data.getD i 0) ∧
      (∀ b : Nat, b < a ∨ a + data.length ≤ b → (r.tile t).pantry.read b = (s.tile t).pantry.read b) ∧
      TilesBut t s r ∧ r.mem = s.mem ∧ r.host.porter = s.host.porter ∧ (s.prf.cur = none → Only [.tiles] s r) := by
  let u := s.modTile t fun x => x.putPantry (bits d.devAddr 19 0) data
  have stored : Only [.tiles] s u := s.setTile_only t _
  have tiles (j : Nat) : u.tile j = if j = t then (s.tile t).putPantry (bits d.devAddr 19 0) data else s.tile j :=
    State.tile_setTile w
  have ends : Only [.regs, .con, .host, .prf] u (s.movePantry t d data) ∧ MessagesOnly u (s.movePantry t d data) ∧
      (s.prf.cur = none → s.movePantry t d data = u) := by
    unfold State.movePantry
    dsimp only
    rw [out, if_neg Bool.false_ne_true]
    split
    · rename_i cur
      obtain ⟨only, messages⟩ := u.unprotect_only 0
      have some : s.prf.cur.isSome = true := cur
      exact ⟨only, messages, fun none => by rw [none] at some; cases some⟩
    · exact ⟨Only.refl _ u, MessagesOnly.of_eq rfl, fun _ => rfl⟩
  obtain ⟨only, messages, quiet⟩ := ends
  have same : ∀ j, (s.movePantry t d data).tile j = u.tile j := State.tile_congr (only.2 .tiles (by simp))
  refine ⟨fun i hi => ?_, fun b hb => ?_, fun j hj => ?_, only.2 .mem (by simp),
    messages.porter, fun none => by rw [quiet none]; exact stored⟩
  · rw [same, tiles, if_pos rfl, Tile.putPantry_read wp, if_pos ⟨by omega, by omega⟩, Nat.add_sub_cancel_left]
  · rw [same, tiles, if_pos rfl, Tile.putPantry_read wp, if_neg (by omega)]
  · rw [same, tiles, if_neg hj]

end Sys2Proof.Machine
end

section
/-! ## A DDR transfer within one line (R64, R234) -/

namespace Sys2Proof.Machine

section
variable {s : State} {r : Requester} {q a n : Nat}

theorem State.snoop_empty (empty : s.svc.cache = []) (a : Nat) : s.snoop a = s := by
  have none (f : CacheLine → Bool) : s.svc.cache.filter f = s.svc.cache := by rw [empty]; rfl
  unfold State.snoop
  simp only [none]

/-- A part read from plaintext DDR. -/
theorem State.moveParts_read (line : a % 64 + n ≤ 64)
    (plain : s.Plain r q (a / 64 * 64) (a / 64 * 64 + 64) true false) :
    ∃ m : Memories, s.moveParts r (s.qkey q) a none [(a, n)] ⟨0, 0, [], []⟩ =
      (⟨0, 0, [(0, s.mem.ddr.readBytes a n)], []⟩, { s with mem := m }) ∧
      m.ddr = s.mem.ddr ∧ m.larder = s.mem.larder := by
  obtain ⟨m, meets, ddr, larder⟩ := s.meetChannel_eq a
  refine ⟨m, ?_, ddr, larder⟩
  have part : ((s.rawLine a).drop (a % 64)).take n = s.mem.ddr.readBytes a n := by
    rw [State.rawLine, Memory.readBytes_part _ _ line]
    congr 1
    omega
  have dram : Moved.takeDram ⟨0, 0, [], []⟩ (s.ddrChannel a) = (.clean, ⟨0, 0, [], []⟩) := rfl
  rw [State.moveParts]
  simp only [dram, ite_self, State.dramFails_clean, Bool.false_eq_true, if_false, plain.2.1,
    State.lineRead_plain plain, part, meets, Nat.sub_self, List.nil_append, State.moveParts]

/-- A part written to plaintext DDR outside the model ranges, with no line in the cache. -/
theorem State.moveParts_write (w : s.mem.ddr.wf = true) {d : List Byte} (empty : s.svc.cache = [])
    (line : a % 64 + d.length ≤ 64) (outside : s.inModel (a / 64 * 64) 64 = false)
    (plain : s.Plain r q (a / 64 * 64) (a / 64 * 64 + 64) false true) :
    ∃ m : Memories, s.moveParts r (s.qkey q) a (some d) [(a, d.length)] ⟨0, 0, [], []⟩ =
      (⟨0, 0, [], []⟩, { s with mem := m }) ∧ DdrStored a d s { s with mem := m } ∧ m.larder = s.mem.larder := by
  obtain ⟨m, meets, ddr, larder⟩ := s.meetChannel_eq a
  have dram : Moved.takeDram ⟨0, 0, [], []⟩ (s.ddrChannel a) = (.clean, ⟨0, 0, [], []⟩) := rfl
  have write := State.lineWrite_plain outside plain d
  rw [meets] at write
  have untouched : (({ s with mem := m } : State).ddrPut (a / 64 * 64) (splice (s.rawLine a) (a % 64) d)).inModel
      a d.length = false :=
    State.inModel_line (s := s) outside line
  refine ⟨{ m with ddr := m.ddr.writeBytes (a / 64 * 64) (splice (s.rawLine a) (a % 64) d) }, ?_, ?_, larder⟩
  · rw [State.moveParts]
    simp only [dram, ite_self, State.dramFails_clean, Bool.false_eq_true, if_false, plain.2.1,
      State.snoop_empty empty, Nat.sub_self, List.drop_zero, List.take_length, write,
      State.hostTouches_outside untouched, State.moveParts]
    rfl
  · show (m.ddr.writeBytes _ _).readBytes a d.length = d ∧ _
    rw [ddr]
    exact Memory.stored_splice w line

/-- The codes of descriptors that have not ended stay 0 but for that of the transfer that ends. -/
theorem map_ended {l : List (Nat × Nat × Nat × Bool)} {i : Nat} {irq : Bool} (other : ∀ x ∈ l, x.1 ≠ i) :
    (l ++ [(i, 0, 0, irq)]).map (fun d : Nat × Nat × Nat × Bool => if d.1 = i then (d.1, 0, 0, d.2.2.2) else d) =
      l ++ [(i, 0, 0, irq)] := by
  have kept : l.map (fun d : Nat × Nat × Nat × Bool => if d.1 = i then (d.1, 0, 0, d.2.2.2) else d) = l := by
    exact (List.map_congr_left (g := id) fun d hd => if_neg (other d hd)).trans (List.map_id l)
  rw [List.map_append, kept]
  simp

/-- A transfer of one block ends with the state in which its block was moved. -/
theorem State.transfer_block {x y : Transfer} {t : State} (fuel : Nat) (halt : s.enc.integrityHalt = false)
    (empty : s.svc.cache = []) (some : x.off < x.desc.length.toNat) (moved : s.moveBlock x = (y, t))
    (haltNow : t.enc.integrityHalt = false) (all : y.desc.length.toNat ≤ y.off) :
    State.transfer (fuel + 2) s x = t.endTransfer y := by
  have uncached : s.blockCached x = false := by simp [State.blockCached, empty]
  rw [State.transfer, halt, uncached, moved]
  simp only [Bool.false_eq_true, if_false, if_neg (Nat.not_le.mpr some)]
  rw [State.transfer, haltNow, if_neg Bool.false_ne_true, if_pos all]

/-- The transfer of a descriptor. -/
def Transfer.ofDesc (p i : Nat) (d : Descriptor) (data : List Byte) : Transfer :=
  ⟨p, i, d, if d.dir then [] else data, 0, ⟨0, 0, [], []⟩, none⟩

/-- The one block of a transfer within a line. -/
theorem State.moveBlock_line {p i : Nat} {d : Descriptor} {data : List Byte} (full : 0 < d.length.toNat)
    (line : d.devAddr.toNat % 64 + d.length.toNat ≤ 64) {m : Moved} {t : State}
    (moved : s.moveParts ⟨clsPorter, 1 + p⟩ (s.qkey (1 + p)) d.devAddr.toNat (if d.dir then none else some data)
      [(d.devAddr.toNat, d.length.toNat)] ⟨0, 0, [], []⟩ = (m, t)) :
    s.moveBlock (.ofDesc p i d data) =
      ({ Transfer.ofDesc p i d data with met := m, off := d.length.toNat, item := none }, t) := by
  have block : (Transfer.ofDesc p i d data).block = d.length.toNat := by
    show min (d.length.toNat - 0) (4096 - (d.devAddr.toNat + 0) % 4096) = d.length.toNat
    omega
  have parts : lineParts (d.length.toNat / 64 + 2) d.devAddr.toNat d.length.toNat =
      [(d.devAddr.toNat, d.length.toNat)] := lineParts_one full line
  have given : (if (Transfer.ofDesc p i d data).desc.dir then none else some (Transfer.ofDesc p i d data).data) =
      if d.dir then none else some data := by
    cases h : d.dir <;> simp [Transfer.ofDesc, h]
  unfold State.moveBlock
  dsimp only
  rw [block, given, show (Transfer.ofDesc p i d data).addr = d.devAddr.toNat from rfl, parts]
  rw [show (Transfer.ofDesc p i d data).porter = p from rfl,
    show (Transfer.ofDesc p i d data).met = ⟨0, 0, [], []⟩ from rfl,
    show (Transfer.ofDesc p i d data).desc = d from rfl, moved]
  simp [Transfer.ofDesc]

/-- A transfer without a failure leaves its descriptor done. -/
def State.endFlight (s : State) (p i : Nat) : State :=
  { s with
    host := { s.host with
      porter := Table.set (fun _ => []) s.host.porter p <|
        (s.inFlight p).map fun d => if d.1 = i then (d.1, 0, 0, d.2.2.2) else d } }

/-- A transfer that ended well hands over what it read and leaves CODE 0. -/
theorem State.endTransfer_ok {p i : Nat} {d : Descriptor} {data : List Byte} {got : List (Nat × List Byte)} {off : Nat}
    (w : Table.wf (fun _ => []) s.host.porter = true) {l : List (Nat × Nat × Nat × Bool)} {irq : Bool}
    (flight : s.inFlight p = l ++ [(i, 0, 0, irq)]) (other : ∀ x ∈ l, x.1 ≠ i) :
    let y : Transfer := { Transfer.ofDesc p i d data with met := ⟨0, 0, got, []⟩, off := off, item := none }
    let r := s.endTransfer y
    r.inFlight p = l ++ [(i, 0, 0, irq)] ∧ Only [.host] s r ∧
      r.host.wrote = s.host.wrote ++ (if d.dir then
          got.map fun e => (d.hostAddr + BitVec.ofNat 64 e.1, e.2) else []) := by
  intro y r
  have given : ∃ u : State, r = u.endFlight p i ∧ Only [.host] s u ∧
      u.host.porter = s.host.porter ∧ u.host.wrote = s.host.wrote ++
        (if d.dir then got.map fun e => (d.hostAddr + BitVec.ofNat 64 e.1, e.2) else []) := by
    cases h : d.dir with
    | false =>
      refine ⟨s, ?_, Only.refl _ s, rfl, by simp⟩
      simp only [r, y, State.endTransfer, Transfer.ofDesc, h, Bool.false_eq_true, if_false]
      rfl
    | true =>
      refine ⟨s.toHost d.hostAddr got, ?_, Only.host s _, rfl, rfl⟩
      simp only [r, y, State.endTransfer, Transfer.ofDesc, h, if_true]
      rfl
  obtain ⟨u, e, only, porter, wrote⟩ := given
  rw [State.endFlight, State.inFlight_congr porter, flight, map_ended other] at e
  have set : r.host.porter = Table.set (fun _ => []) s.host.porter p (l ++ [(i, 0, 0, irq)]) := by rw [e, ← porter]
  refine ⟨?_, ?_, by rw [e]; exact wrote⟩
  · rw [State.inFlight_set w p _ p set, if_pos rfl]
  · rw [e]
    exact only.trans (Only.host u _)

end

end Sys2Proof.Machine
end

section
/-! ## Obligation O32 -/

namespace Sys2Proof.Machine

section
variable {s : State} {p : Nat} {d : Descriptor} {data : List Byte}

/-- The state in which a descriptor that has been checked is moved. -/
def State.taken (s : State) (p : Nat) (d : Descriptor) : State := s.takeDesc p d.irq 0 0

theorem State.taken_inFlight (w : Table.wf (fun _ => []) s.host.porter = true) :
    (s.taken p d).inFlight p = s.inFlight p ++ [(s.nextIndex p, 0, 0, d.irq)] := by
  rw [State.taken, State.takeDesc_inFlight w, if_pos rfl]

theorem State.taken_only (s : State) (p : Nat) (d : Descriptor) : Only [.host] s (s.taken p d) := Only.host s _

/-- A descriptor of plaintext DDR within one line. -/
theorem State.moveDesc_ddr (tgt : d.tgt = 0) (l : List Byte) :
    s.moveDesc p d l [] = State.transfer 4098 (s.taken p d) (.ofDesc p (s.nextIndex p) d l) := by
  have zero : d.tgt.toNat = 0 := by rw [tgt]; rfl
  unfold State.moveDesc State.taken Transfer.ofDesc
  dsimp only
  simp only [zero]

theorem State.moveDesc_larder (tgt : d.tgt = 1) (l : List Byte) :
    s.moveDesc p d l [] = (s.taken p d).moveLarder d l := by
  have one : d.tgt.toNat = 1 := by rw [tgt]; rfl
  rw [State.moveDesc, one]
  rfl

theorem State.moveDesc_pantry {t : Nat} (tgt : d.tgt = 2) (tile : s.ptile (bits d.devAddr 27 20) = some t)
    (l : List Byte) : s.moveDesc p d l [] = (s.taken p d).movePantry t d l := by
  have two : d.tgt.toNat = 2 := by rw [tgt]; rfl
  have tileNow : (s.takeDesc p d.irq 0 0).ptile (bits d.devAddr 27 20) = some t := tile
  unfold State.moveDesc State.taken
  dsimp only
  simp only [two, tileNow]

theorem State.moveDesc_loader (tgt : d.tgt = 3) (l : List Byte) : s.moveDesc p d l [] = (s.taken p d).offer 0 l := by
  have three : d.tgt.toNat = 3 := by rw [tgt]; rfl
  rw [State.moveDesc, three]
  rfl

/-- Bytes offered to a load in progress join its stream. -/
theorem State.offer_more (src : s.ldrSrc = 0) (en : s.pageEn ldrPage = true)
    (state : s.ldr.state = .header ∨ s.ldr.state = .stage ∨ s.ldr.state = .write) (b : List Byte) :
    s.offer 0 b = s.setLdr { s.ldr with buf := s.ldr.buf ++ b, gapNs := 0 } := by
  have taken : ¬ (s.ldrSrc ≠ 0 ∨ (!s.pageEn ldrPage) = true) := by simp [src, en]
  rw [State.offer, if_neg taken]
  rcases state with h | h | h <;> rw [h]

/-- A descriptor of DDR or of the loader touches no bank. -/
theorem State.descOwned_all (larder : d.tgt.toNat ≠ 1) (pantry : d.tgt.toNat ≠ 2) : s.descOwned p d = true := by
  unfold State.descOwned
  split
  · exact absurd ‹_› larder
  · exact absurd ‹_› pantry
  · rfl

theorem State.descRange_larder (tgt : d.tgt = 1) (full : 0 < d.length.toNat) (most : d.length.toNat ≤ 16777216)
    (fits : bits d.devAddr 24 0 + d.length.toNat ≤ 2 ^ 25) : s.descRange d = true := by
  have one : d.tgt.toNat = 1 := by rw [tgt]; rfl
  rw [State.descRange, one]
  simp only [full, most, fits, decide_true, Bool.and_self]

theorem State.descRange_pantry {t : Nat} (tgt : d.tgt = 2) (full : 0 < d.length.toNat)
    (most : d.length.toNat ≤ 16777216) (fits : bits d.devAddr 19 0 + d.length.toNat ≤ 2 ^ 20)
    (tile : s.ptile (bits d.devAddr 27 20) = some t) : s.descRange d = true := by
  have two : d.tgt.toNat = 2 := by rw [tgt]; rfl
  rw [State.descRange, two]
  simp only [full, most, fits, tile, Option.isSome_some, decide_true, Bool.and_self]

theorem State.descRange_ddr (tgt : d.tgt = 0) (full : 0 < d.length.toNat) (most : d.length.toNat ≤ 16777216)
    (fits : d.devAddr.toNat + d.length.toNat ≤ s.ddrCap) : s.descRange d = true := by
  have zero : d.tgt.toNat = 0 := by rw [tgt]; rfl
  rw [State.descRange, zero]
  simp only [full, most, fits, decide_true, Bool.and_self]

theorem State.descRange_loader (tgt : d.tgt = 3) (full : 0 < d.length.toNat) (most : d.length.toNat ≤ 16777216) :
    s.descRange d = true := by
  have three : d.tgt.toNat = 3 := by rw [tgt]; rfl
  rw [State.descRange, three]
  simp only [full, most, decide_true, Bool.and_self]

/-- A checked descriptor of one of the four targets moves its bytes. -/
theorem exec_porterDescriptor_moves {n : Nat} (hp : p < 8) (ready : s.PorterReady p d) (tgt : d.tgt.toNat = n)
    (low : n < 3 ∨ (n = 3 ∧ d.dir = false)) (rsvd : d.rsvd = 0) (range : s.descRange d = true)
    (owned : s.descOwned p d = true) (len : d.length.toNat = data.length) {host : Option (List Byte)}
    (bytes : d.dir = false → host = some data) :
    ∃ l, (d.dir = false → l = data) ∧ exec (.porterDescriptor p d host []) s = .next (s.moveDesc p d l []) := by
  obtain ⟨l, given, moves⟩ :=
    State.runDesc_moves (State.descRefused_none tgt low rsvd range owned) len bytes []
  exact ⟨l, given, (execPorterDescriptor_ready hp ready host []).trans (congrArg _ moves)⟩

/-- A block of DDR within one line moved into plaintext DDR. -/
theorem State.transfer_in (out : d.dir = false) (w : s.mem.ddr.wf = true)
    (wh : Table.wf (fun _ => []) s.host.porter = true)
    (full : 0 < d.length.toNat) (len : d.length.toNat = data.length)
    (line : d.devAddr.toNat % 64 + data.length ≤ 64) (empty : s.svc.cache = []) {i : Nat}
    {l : List (Nat × Nat × Nat × Bool)} (flight : s.inFlight p = l ++ [(i, 0, 0, d.irq)]) (other : ∀ x ∈ l, x.1 ≠ i)
    (outside : s.inModel (d.devAddr.toNat / 64 * 64) 64 = false)
    (plain : s.Plain ⟨clsPorter, 1 + p⟩ (1 + p) (d.devAddr.toNat / 64 * 64) (d.devAddr.toNat / 64 * 64 + 64) false true)
    (fuel : Nat) :
    let r := State.transfer (fuel + 2) s (.ofDesc p i d data)
    r.inFlight p = s.inFlight p ∧ DdrStored d.devAddr.toNat data s r ∧ r.mem.larder = s.mem.larder ∧
      Only [.host, .mem] s r := by
  obtain ⟨m, moved, stored, larder⟩ := State.moveParts_write w empty line outside plain
  have block : s.moveBlock (.ofDesc p i d data) = (_, ({ s with mem := m } : State)) :=
    State.moveBlock_line full (len ▸ line) (by rw [out, if_neg Bool.false_ne_true, len]; exact moved)
  have ends := State.transfer_block fuel plain.1 empty full block plain.1 (Nat.le_refl d.length.toNat)
  obtain ⟨done, only, -⟩ := State.endTransfer_ok (s := { s with mem := m }) (data := data) (got := [])
    (off := d.length.toNat) wh flight other
  rw [ends]
  have same := only.2 .mem (by simp)
  refine ⟨done.trans flight.symm, ?_, ?_, ((Only.mem s m).mono (by simp)).trans (only.mono (by simp))⟩
  · rw [DdrStored, same]
    exact stored
  · rw [same]
    exact larder

/-- A block of DDR within one line handed to host memory. -/
theorem State.transfer_out (dir : d.dir = true) (wh : Table.wf (fun _ => []) s.host.porter = true)
    (full : 0 < d.length.toNat) (line : d.devAddr.toNat % 64 + d.length.toNat ≤ 64) (empty : s.svc.cache = []) {i : Nat}
    {l : List (Nat × Nat × Nat × Bool)} (flight : s.inFlight p = l ++ [(i, 0, 0, d.irq)]) (other : ∀ x ∈ l, x.1 ≠ i)
    (plain : s.Plain ⟨clsPorter, 1 + p⟩ (1 + p) (d.devAddr.toNat / 64 * 64) (d.devAddr.toNat / 64 * 64 + 64) true false)
    (fuel : Nat) :
    let r := State.transfer (fuel + 2) s (.ofDesc p i d data)
    r.inFlight p = s.inFlight p ∧
      r.host.wrote = s.host.wrote ++ [(d.hostAddr, s.mem.ddr.readBytes d.devAddr.toNat d.length.toNat)] ∧
      r.mem.ddr = s.mem.ddr ∧ r.mem.larder = s.mem.larder ∧ Only [.host, .mem] s r := by
  obtain ⟨m, moved, ddr, larder⟩ := State.moveParts_read line plain
  have block : s.moveBlock (.ofDesc p i d data) = (_, ({ s with mem := m } : State)) :=
    State.moveBlock_line full line (by rw [dir, if_pos rfl]; exact moved)
  have ends := State.transfer_block fuel plain.1 empty full block plain.1 (Nat.le_refl d.length.toNat)
  obtain ⟨done, only, wrote⟩ := State.endTransfer_ok (s := { s with mem := m }) (data := data)
    (got := [(0, s.mem.ddr.readBytes d.devAddr.toNat d.length.toNat)]) (off := d.length.toNat) wh flight other
  rw [ends]
  have same := only.2 .mem (by simp)
  refine ⟨done.trans flight.symm, ?_, (congrArg Memories.ddr same).trans ddr,
    (congrArg Memories.larder same).trans larder,
    ((Only.mem s m).mono (by simp)).trans (only.mono (by simp))⟩
  refine wrote.trans (congrArg (s.host.wrote ++ ·) ?_)
  rw [if_pos dir]
  simp

/-- The descriptor of a porter that is done, its status handed over. -/
def State.handOver (s : State) (p i code failed : Nat) (rest : List (Nat × Nat × Nat × Bool)) : State :=
  { s with host := { s.host with
      porter := Table.set (fun _ => []) s.host.porter p rest
      statuses := s.host.statuses ++ [(p, i, descStatus code failed)] } }

/-- HEAD of the ring moves on (R65). -/
def State.headOn (s : State) (p : Nat) : State :=
  s.wr .pciPorterHead (BitVec.ofNat 32 ((s.fld .pciPorterHead 15 0 p + 1) % s.ringSize p)) p

/-- The CODE of a descriptor recorded, but for 0. -/
def State.codeTold (s : State) (p i code : Nat) : State :=
  if code = 0 then s else s.err (porterPage p) (0x9010 + code) i

/-- The interrupt that a descriptor asks for. -/
def State.irqTold (s : State) (p : Nat) (irq : Bool) : State := if irq then s.cause (porterPage p) 1 else s

theorem execPorterDescriptorDone_idle (hp : p < 8) {i code failed : Nat} {irq : Bool}
    {rest : List (Nat × Nat × Nat × Bool)} (flight : s.inFlight p = (i, code, failed, irq) :: rest)
    (still : (s.host.moving.any fun x => x.porter = p && x.index = i) = false) :
    exec (.porterDescriptorDone p) s =
      .next ((((s.handOver p i code failed rest).headOn p).codeTold p i code).irqTold p irq) := by
  refine (guardUnit_of (decide_eq_true hp) _).trans ?_
  rw [flight]
  dsimp only
  rw [still, if_neg Bool.false_ne_true]
  rfl

theorem State.codeTold_spec (w : Table.wf regInit s.regs = true) (p i code : Nat) :
    Table.wf regInit (s.codeTold p i code).regs = true ∧ RegsBut (errRegs (porterPage p)) s (s.codeTold p i code) ∧
      MessagesOnly s (s.codeTold p i code) ∧ Only [.regs, .con, .host] s (s.codeTold p i code) := by
  unfold State.codeTold
  split
  · exact ⟨w, RegsBut.refl _ s, MessagesOnly.of_eq rfl, Only.refl _ s⟩
  · exact ⟨State.wf_err w _ _ _, State.err_regsBut w _ _ _, s.err_messages _ _ _, s.err_only _ _ _⟩

theorem State.irqTold_spec (w : Table.wf regInit s.regs = true) (p : Nat) (irq : Bool) :
    RegsBut (errRegs (porterPage p)) s (s.irqTold p irq) ∧ MessagesOnly s (s.irqTold p irq) ∧
      Only [.regs, .con, .host] s (s.irqTold p irq) ∧
      (irq = true → bit ((s.irqTold p irq).reg (porterPage p + 0xC)) 1 = true) := by
  unfold State.irqTold
  split
  · refine ⟨fun a ha => ?_, s.raise_messages _ _, (s.raise_only _ _).mono (by simp),
      fun _ => State.bit_cause w _ (by decide)⟩
    rw [State.cause, State.reg_raise w, if_neg fun e => ha (by simp [errRegs, e])]
  · exact ⟨RegsBut.refl _ s, MessagesOnly.of_eq rfl, Only.refl _ s, fun irq => absurd irq ‹_›⟩

end

/-- Settles O32: a checked descriptor is one case per target, and one of DDR within a line moves as one part. -/
theorem portersMoveDescriptors : Obligations.PortersMoveDescriptors := by
  unfold Obligations.PortersMoveDescriptors
  rintro p val d data s ⟨w, wt, tileCanon, wl, wd, -, -, -, -, wh⟩ hp ready
  have started := State.taken_inFlight (s := s) (p := p) (d := d) wh
  have begun := s.taken_only p d
  refine ⟨fun reach srst => ?_, fun isReady bad => ?_, fun isReady rsvd len full most => ⟨?_, ?_, ?_, ?_⟩,
    fun i code failed irq rest flight still codeLt failedLt => ?_⟩
  · refine ⟨s.wr .pciPorterTail (val &&& 0xFFFF) p, ?_, State.rd_wr w, State.setReg_regsBut w _ _, s.setReg_only _ _⟩
    exact (guardUnit_of (decide_eq_true hp) _).trans (onWrite_open reach srst _)
  · refine ⟨_, (execPorterDescriptor_ready hp isReady _ _).trans (congrArg _ (State.runDesc_bad bad _ _)), ?_,
      fun q hq => ?_, s.takeDesc_only p d.irq 7 0⟩
    · rw [State.takeDesc_inFlight wh, if_pos rfl]
    · rw [State.takeDesc_inFlight wh, if_neg hq]
  · intro tgt fits owned a
    have range := State.descRange_larder (s := s) tgt (len ▸ full) (len ▸ most) (len ▸ fits)
    have moves {host : Option (List Byte)} (bytes : d.dir = false → host = some data) :=
      exec_porterDescriptor_moves hp isReady (congrArg BitVec.toNat tgt) (.inl (by decide)) rsvd range owned len bytes
    refine ⟨fun out => ?_, fun dir => ?_⟩
    · obtain ⟨l, same, next⟩ := moves (host := some data) fun _ => rfl
      rw [same out, State.moveDesc_larder tgt] at next
      obtain ⟨stored, others, ddr, only⟩ := State.moveLarder_in (s := s.taken p d) out wl data
      refine ⟨_, next, (State.inFlight_congr (congrArg HostPort.porter (only.2 .host (by simp))) p).trans
        started, stored,
        others, ddr, State.tile_congr (only.2 .tiles (by simp)), (begun.mono (by simp)).trans (only.mono (by simp))⟩
    · obtain ⟨l, -, next⟩ := moves (host := none) fun out => absurd dir (by simp [out])
      rw [State.moveDesc_larder tgt] at next
      obtain ⟨wrote, porter, larder, ddr, only⟩ := State.moveLarder_out (s := s.taken p d) dir l
      rw [len] at wrote
      exact ⟨_, next, (State.inFlight_congr porter p).trans started, wrote, larder, ddr,
        (begun.mono (by simp)).trans only⟩
  · intro t tgt tile fits owned a
    have range := State.descRange_pantry (s := s) tgt (len ▸ full) (len ▸ most) (len ▸ fits) tile
    have moves {host : Option (List Byte)} (bytes : d.dir = false → host = some data) :=
      exec_porterDescriptor_moves hp isReady (congrArg BitVec.toNat tgt) (.inl (by decide)) rsvd range owned len bytes
    refine ⟨fun out => ?_, fun dir => ?_⟩
    · obtain ⟨l, same, next⟩ := moves (host := some data) fun _ => rfl
      rw [same out, State.moveDesc_pantry tgt tile] at next
      obtain ⟨stored, others, tiles, mem, porter, quiet⟩ :=
        State.movePantry_in (s := s.taken p d) (t := t) out wt (tileCanon t).1 data
      exact ⟨_, next, (State.inFlight_congr porter p).trans started, stored, others, tiles, mem,
        fun none => (begun.mono (by simp)).trans ((quiet none).mono (by simp))⟩
    · obtain ⟨l, -, next⟩ := moves (host := none) fun out => absurd dir (by simp [out])
      rw [State.moveDesc_pantry tgt tile, State.movePantry] at next
      dsimp only at next
      rw [if_pos dir] at next
      obtain ⟨wrote, porter, only⟩ :=
        (s.taken p d).toHost_one d.hostAddr (((s.taken p d).tile t).pantry.readBytes a d.length.toNat)
      refine ⟨_, next, (State.inFlight_congr porter p).trans started, wrote.trans ?_, begun.trans only⟩
      rw [len]
      rfl
  · intro tgt line fits empty other a lo
    have range := State.descRange_ddr (s := s) tgt (len ▸ full) (len ▸ most) (len ▸ fits)
    have zero : d.tgt.toNat = 0 := congrArg BitVec.toNat tgt
    have owned : s.descOwned p d = true := State.descOwned_all (by simp [zero]) (by simp [zero])
    have moves {host : Option (List Byte)} (bytes : d.dir = false → host = some data) :=
      exec_porterDescriptor_moves hp isReady zero (.inl (by decide)) rsvd range owned len bytes
    have wh' : Table.wf (fun _ => []) (s.taken p d).host.porter = true := Table.wf_set wh
    refine ⟨fun out outside plain => ?_, fun dir plain => ?_⟩
    · obtain ⟨l, same, next⟩ := moves (host := some data) fun _ => rfl
      rw [same out, State.moveDesc_ddr tgt] at next
      obtain ⟨done, stored, larder, only⟩ :=
        State.transfer_in (s := s.taken p d) out wd wh' (len ▸ full) len line empty started other outside plain 4096
      exact ⟨_, next, done.trans started, stored, larder, (begun.mono (by simp)).trans only⟩
    · obtain ⟨l, -, next⟩ := moves (host := none) fun out => absurd dir (by simp [out])
      rw [State.moveDesc_ddr tgt] at next
      obtain ⟨done, wrote, ddr, larder, only⟩ :=
        State.transfer_out (s := s.taken p d) (data := l) dir wh' (len ▸ full) (len ▸ line) empty
          started other plain 4096
      rw [len] at wrote
      exact ⟨_, next, done.trans started, wrote, ddr, larder, (begun.mono (by simp)).trans only⟩
  · intro tgt out src en state
    have range := State.descRange_loader (s := s) tgt (len ▸ full) (len ▸ most)
    have three : d.tgt.toNat = 3 := congrArg BitVec.toNat tgt
    have owned : s.descOwned p d = true := State.descOwned_all (by simp [three]) (by simp [three])
    obtain ⟨l, same, next⟩ := exec_porterDescriptor_moves (host := some data) hp isReady three (.inr ⟨rfl, out⟩) rsvd
      range owned len fun _ => rfl
    rw [same out, State.moveDesc_loader tgt, State.offer_more (s := s.taken p d) src en state] at next
    exact ⟨_, next, started, rfl, (begun.mono (by simp)).trans ((Only.ldr (s.taken p d) _).mono (by simp))⟩
  · have idle : (s.host.moving.any fun x => x.porter = p && x.index = i) = false := by
      simpa using fun x hx hp hi => still x hx ⟨hp, hi⟩
    let t := s.handOver p i code failed rest
    let u := t.headOn p
    have wu : Table.wf regInit u.regs = true := State.wf_setReg w
    have head : u.rd .pciPorterHead p = BitVec.ofNat 32 ((s.fld .pciPorterHead 15 0 p + 1) % s.ringSize p) :=
      State.rd_wr w
    obtain ⟨wv, regsCode, messagesCode, onlyCode⟩ := State.codeTold_spec wu p i code
    obtain ⟨regsIrq, messagesIrq, onlyIrq, raised⟩ := State.irqTold_spec wv p irq
    have messages : MessagesOnly u _ := messagesCode.trans messagesIrq
    have away : Reg.addr .pciPorterHead p ∉ errRegs (porterPage p) := by
      interval_cases p <;> decide
    refine ⟨_, execPorterDescriptorDone_idle hp flight idle, ?_, ?_, ?_, raised, fun code0 noIrq => ?_, ?_⟩
    · rw [State.inFlight_congr messages.porter, State.inFlight_set (s := s) wh p rest p rfl, if_pos rfl]
    · rw [messages.statuses]
      show s.host.statuses ++ [(p, i, descStatus code failed)] = _
      rw [descStatus, Nat.mod_eq_of_lt codeLt, Nat.mod_eq_of_lt failedLt]
      rfl
    · exact ((regsCode.trans regsIrq) _ away).trans head
    · have same : (u.codeTold p i code).irqTold p irq = u := by
        rw [State.irqTold, State.codeTold, if_pos code0, noIrq, if_neg Bool.false_ne_true]
      rw [same]
      exact State.setReg_regsBut (s := t) w _ _
    · have begun : Only [.host, .regs, .con] s u :=
        ((Only.host s _).mono (by simp)).trans ((t.setReg_only _ _).mono (by simp))
      exact begun.trans ((onlyCode.trans onlyIrq).mono (by simp))

end Sys2Proof.Machine
end

section
/-! ## What a run command keeps (R18 to R22, R405, R408) -/

namespace Sys2Proof.Machine

section
variable {s t r : State}

/-! ### Reads of DDR (R230, R311 to R341) -/

theorem chan_aligned (c : Nat) : chanPage c % 0x1000 = 0 := by
  unfold chanPage
  omega

theorem chan_row_out {r : Reg} (base : r = .memChEcc ∨ r = .memChCe) (c : Nat) :
    r.addr c 0 0 % 0x1000 ≠ 4 ∧ r.addr c 0 0 % 0x1000 ≠ 0xC := by
  rcases base with rfl | rfl <;> simp only [Reg.addr, Reg.row] <;> omega

theorem Calm.touchChannel (s : State) (c : Nat) : Calm s (s.touchChannel c) := Calm.mem s _

theorem Calm.meetChannel (s : State) (a : Nat) : Calm s (s.meetChannel a) := by
  unfold State.meetChannel
  split
  · exact Calm.touchChannel s _
  · exact Calm.refl s

theorem Calm.ddrUe (s : State) (a : Nat) : Calm s (s.ddrUe a) :=
  (Calm.setFld (chan_row_out (.inl rfl) _) s _ _ _).trans (Calm.err (chan_aligned _) _ _ _)

theorem Calm.deviceFails (s : State) (c rank dev : Nat) : Calm s (s.deviceFails c rank dev) := by
  have recorded := (Calm.mem s { s.mem with failedDev := s.mem.failedDev ++ [(c, rank, dev)] }).trans
    (Calm.err (chan_aligned c) _ 0x3002 (rank * 2 ^ 8 + dev))
  unfold State.deviceFails
  dsimp only
  split
  · exact recorded
  · exact (recorded.trans (Calm.wr (chan_row_out (.inl rfl) c) _ _)).trans (Calm.cause (chan_aligned c) _ _)

theorem Calm.ddrCe (s : State) (e : Nat × Nat × Nat × Nat) : Calm s (s.ddrCe e) := by
  obtain ⟨c, rank, dev, row⟩ := e
  unfold State.ddrCe
  dsimp -zeta only
  extract_lets counted _ noted failed limit queued
  have hNoted : Calm s noted :=
    (Calm.wr (r := .memChCe) (i := c) (j := 0) (k := 0) (chan_row_out (.inr rfl) c) s _).trans (Calm.mem counted _)
  have hFailed : Calm s failed := by
    unfold failed
    split
    · exact hNoted.trans (Calm.deviceFails noted c rank dev)
    · exact hNoted
  split
  · exact hFailed.trans (Calm.mem failed _)
  · exact hFailed

theorem Calm.dramMeets (s : State) (c : Nat) (d : Dram) : Calm s (s.dramMeets c d) := by
  unfold State.dramMeets
  split
  · exact Calm.ddrCe s _
  · exact Calm.refl s

theorem Calm.softRepair (s : State) : Calm s s.softRepair :=
  Calm.foldl (fun q _ s => by
    have drawn : Calm s { s.freeNat.2 with mem := {
        s.freeNat.2.mem with pprQueue := s.freeNat.2.mem.pprQueue.erase q } } :=
      Calm.of_regs rfl rfl rfl
    dsimp only
    split
    · exact drawn.trans (Calm.mem _ _)
    · exact drawn.trans (Calm.err (chan_aligned q.1) _ _ _)) s

theorem Calm.stopTiles (s : State) : Calm s s.stopTiles := Calm.mapTiles s _

theorem Calm.haltTaken (s : State) : Calm s s.haltTaken := by
  have repaired := Calm.softRepair s
  unfold State.haltTaken
  dsimp only
  generalize s.softRepair = t at repaired
  exact repaired.trans (Calm.of_regs rfl rfl rfl)

theorem Calm.stopAll (s : State) (causes : BitVec 13) : Calm s (s.stopAll causes) := by
  have hHalted : Calm s s.stopTiles.haltTaken := (Calm.stopTiles s).trans (Calm.haltTaken _)
  unfold State.stopAll
  extract_lets halted _ _ stopped
  have hStopped : Calm halted stopped := Calm.of_regs rfl rfl rfl
  exact ((hHalted.trans hStopped).trans (Calm.setRun stopped _)).trans (Calm.cause (by decide) _ 1)

theorem Calm.immediateStop (s : State) (c : Nat) : Calm s (s.immediateStop c) := by
  unfold State.immediateStop
  split
  · exact Calm.refl s
  · exact Calm.stopAll s _

theorem Calm.encFail (s : State) (v : DWord) (w : Word) : Calm s ((s.wr64 .encFailLo .encFailHi v).wr .encFailInfo w) :=
  ((Calm.wr (r := .encFailLo) (i := 0) (j := 0) (k := 0) (by decide) s _).trans
    (Calm.wr (r := .encFailHi) (i := 0) (j := 0) (k := 0) (by decide) _ _)).trans
    (Calm.wr (r := .encFailInfo) (i := 0) (j := 0) (k := 0) (by decide) _ _)

theorem Calm.integrityFail (s : State) (a cls slot queue : Nat) (rmw : Bool) :
    Calm s (s.integrityFail a cls slot queue rmw) := by
  have latched (w : Word) : Calm s (if bit (s.rd .encFailInfo) 31 then s
      else (s.wr64 .encFailLo .encFailHi (BitVec.ofNat 64 (a / 64 * 64))).wr .encFailInfo w) := by
    split
    · exact Calm.refl s
    · exact Calm.encFail s _ _
  unfold State.integrityFail
  dsimp only
  refine Calm.trans ?_ (Calm.immediateStop _ 11)
  refine Calm.trans ?_ (Calm.stopTiles _)
  refine Calm.trans ?_ (Calm.alert _ 1 true)
  refine Calm.trans ?_ (Calm.cause (by decide) _ 1)
  refine Calm.trans ?_ (Calm.err (by decide) _ _ _)
  refine Calm.trans ?_ (Calm.setFld (r := .encStat) (i := 0) (j := 0) (by decide) _ _ _ _)
  exact (latched _).trans (Calm.of_regs rfl rfl rfl)

theorem Calm.lineRead (s : State) (r : Requester) (slot a : Nat) (read write : Bool) (ue : Dram) :
    Calm s (s.lineRead r slot a read write ue).2 := by
  have tagged {u : State} (h : Calm s u) (b : Prop) [Decidable b] : Calm s (if b then u.touchTag a else u) := by
    split
    · exact h.trans (Calm.touchChannel u _)
    · exact h
  unfold State.lineRead
  split
  · exact Calm.refl s
  · split
    · exact Calm.err (by decide) s _ _
    · have met := Calm.meetChannel s a
      dsimp only
      generalize s.meetChannel a = u at met
      split
      · exact met.trans (Calm.ddrUe u a)
      · have seen := tagged (met.trans (Calm.dramMeets u (u.ddrChannel a) ue))
          ((u.dramMeets (u.ddrChannel a) ue).checked a = true)
        generalize (if (u.dramMeets (u.ddrChannel a) ue).checked a = true then
          (u.dramMeets (u.ddrChannel a) ue).touchTag a else u.dramMeets (u.ddrChannel a) ue) = v at seen
        split
        · exact seen.trans (Calm.integrityFail v _ _ _ _ _)
        · exact seen

theorem Calm.ddrReadParts (r : Requester) (slot : Nat) (l : List (Nat × Nat)) :
    ∀ (s : State) (ue : Dram) (acc : List Byte), Calm s (s.ddrReadParts r slot ue l acc).2 := by
  induction l with
  | nil => exact fun s _ _ => Calm.refl s
  | cons e l ih =>
    obtain ⟨a, k⟩ := e
    intro s ue acc
    have read := Calm.lineRead s r slot a true false ue
    unfold State.ddrReadParts
    split
    · rename_i h
      rw [h] at read
      exact read.trans (ih _ _ _)
    · rename_i h
      rw [h] at read
      exact read.trans (ih _ _ _)

theorem Calm.prfRead (s : State) (a n : Nat) (ue : Dram) : Calm s (s.prfRead a n ue).2 :=
  Calm.ddrReadParts _ _ _ s ue []

theorem Calm.getFrames (l : List (Nat × Nat × Nat)) (t a : Nat) :
    ∀ (s : State) (ue : Dram), Calm s (s.getFrames t a ue l).2 := by
  induction l with
  | nil => exact fun s _ => Calm.refl s
  | cons e l ih =>
    obtain ⟨str, o, off⟩ := e
    intro s ue
    have read := Calm.prfRead s (a + off) 4096 ue
    unfold State.getFrames
    split
    · rename_i h
      rw [h] at read
      exact (read.trans (Calm.modTile _ t _)).trans (ih _ _)
    · rename_i h
      rw [h] at read
      exact read

/-- A mapped tile that sleeps is woken from its slot. -/
theorem Calm.wakeMapped (s : State) : Calm s s.wakeMapped := by
  have woken (t : Nat) (s : State) : Calm s (
      let x := s.tile t
      if x.power = .sleep then
        let s := s.setTile t { x with power := .on }
        match s.prf.cur, x.vtile with
        | some p, some v => (s.getFrames t (s.prfSlotAddr p.slot v) .clean slotFrames).2
        | _, _ => s
      else s) := by
    dsimp only
    split
    · split
      · exact (Calm.setTile s t _).trans (Calm.getFrames _ _ _ _ _)
      · exact Calm.setTile s t _
    · exact Calm.refl s
  unfold State.wakeMapped
  split
  · exact Calm.refl s
  · exact (Calm.foldl (fun t _ s => woken t s) s).trans (Calm.prf _ _)

/-! ### Work of the host discarded (R487) -/

theorem Calm.hostComplete (s : State) (i : SvcItem) (status : Nat) (result : DWord) :
    Calm s (s.hostComplete i status result) := by
  have signalled (u : State) (b : Bool) (n : Nat) : Calm u (if b then u.cause svcPage n else u) := by
    split
    · exact Calm.cause (by decide) u n
    · exact Calm.refl u
  unfold State.hostComplete
  extract_lets c put _ done
  have hDone : Calm s done := Calm.of_regs rfl rfl rfl
  split
  · exact (hDone.trans (Calm.svc done _)).trans (signalled _ done.svc.cplDbg.isEmpty 3)
  · exact (hDone.trans (Calm.svc done _)).trans (signalled _ done.svc.cplSup.isEmpty 2)

theorem Calm.discardItem (s : State) (i : SvcItem) : Calm s (s.discardItem i) :=
  (Calm.svc s _).trans (Calm.hostComplete _ i 1 0)

theorem Calm.discardHostWork (s : State) : Calm s s.discardHostWork := by
  have count (t : State) (hi lo v : Nat) : Calm t (t.setFld .prfDiscard hi lo v) :=
    Calm.setFld (r := .prfDiscard) (i := 0) (j := 0) (by decide) t hi lo v
  have porters := Calm.foldl (f := State.discardPorter) (l := List.range 8) (fun p _ s => Calm.host s _) s
  have items := porters.trans (Calm.foldl (f := State.discardItem) (l := s.openHostItems)
    (fun i _ s => Calm.discardItem s i) _)
  exact (items.trans (count _ _ _ _)).trans (count _ _ _ _)

/-! ### Spares (R490, R499) -/

theorem Calm.eraseSector (s : State) (n : Nat) : Calm s (s.eraseSector n) := by
  unfold State.eraseSector
  dsimp only
  split
  · exact Calm.flash s _
  · split
    · exact ((Calm.flash s _).trans (Calm.flash _ _)).trans (Calm.err (by decide) _ _ _)
    · exact ((Calm.flash s _).trans (Calm.flash _ _)).trans (Calm.err (by decide) _ _ _)

theorem Calm.beginWrite (s : State) : Calm s s.beginWrite := by
  unfold State.beginWrite
  split
  · exact Calm.refl s
  · rename_i w _ _
    have erased : Calm s (if s.flash.readonly then s else s.eraseSector (s.flash.target w)) := by
      split
      · exact Calm.refl s
      · exact Calm.eraseSector s _
    dsimp only
    generalize (if s.flash.readonly then s else s.eraseSector (s.flash.target w)) = t at erased
    split
    · exact erased.trans (Calm.flash t _)
    · exact erased

theorem Calm.askWrite (s : State) (w : FlashWrite) : Calm s (s.askWrite w) := by
  unfold State.askWrite
  dsimp only
  split
  · exact (Calm.flash s _).trans (Calm.beginWrite _)
  · exact Calm.flash s _

theorem Calm.saveSpareMap (s : State) : Calm s s.saveSpareMap := by
  unfold State.saveSpareMap
  split
  · exact Calm.refl s
  · exact Calm.askWrite s _

theorem Calm.countSpares (s : State) : Calm s s.countSpares :=
  (Calm.setFld (r := .glbSpareStat) (i := 0) (j := 0) (by decide) s _ _ _).trans
    (Calm.setFld (r := .glbSpareStat) (i := 0) (j := 0) (by decide) _ _ _ _)

theorem Calm.anyOf (s : State) (l : List Nat) : Calm s (s.anyOf l).2 := by
  unfold State.anyOf
  split
  · exact Calm.refl s
  · exact Calm.of_regs rfl rfl rfl

theorem Calm.vmapChanged (s : State) (v : Nat) : Calm s (s.vmapChanged v) := by
  unfold State.vmapChanged
  split
  · exact Calm.ldrFail s _ _
  · exact Calm.refl s

/-! ### Pantry banks of a spare (R282, R490) -/

/-- The words of 16 pantry banks. -/
theorem panOwn_out {b : Nat} (hb : b < 16) (t : Nat) :
    Reg.addr .tilPanOwn t b 0 % 0x1000 ≠ 4 ∧ Reg.addr .tilPanOwn t b 0 % 0x1000 ≠ 0xC := by
  simp only [Reg.addr, Reg.row]
  omega

theorem tile_aligned (t k : Nat) : tilePage t k % 0x1000 = 0 := by
  unfold tilePage
  omega

theorem Calm.setOwn {b : Nat} (hb : b < 16) (s : State) (t : Nat) (w : Word) : Calm s (s.setOwn false t b w) :=
  Calm.wr (panOwn_out hb t) s w

theorem Calm.startHandover {h : Handover} (pantry : h.larder = false) (hb : h.bank < 16) (s : State) :
    Calm s (s.startHandover h) := by
  unfold State.startHandover
  rw [pantry]
  exact (Calm.setOwn hb s _ _).trans (Calm.mem _ _)

theorem Calm.clearBank (s : State) (larder : Bool) (t b : Nat) : Calm s (s.clearBank larder t b) := by
  unfold State.clearBank
  split
  · exact Calm.mem s _
  · exact Calm.modTile s t _

theorem Calm.endHandover {h : Handover} (pantry : h.larder = false) (hb : h.bank < 16) (s : State) :
    Calm s (s.endHandover h) := by
  unfold State.endHandover State.drainBank
  simp -zeta only [pantry, Bool.false_and, Bool.false_eq_true, if_false]
  extract_lets _ cleared _ _ _ owned _ released _ given
  have hCleared : Calm s cleared := by
    unfold cleared
    split
    · exact Calm.clearBank s _ _ _
    · exact Calm.refl s
  have hOwned : Calm s owned := hCleared.trans (Calm.setOwn hb cleared h.ptile _)
  have hGiven : Calm s given := ((hOwned.trans (Calm.mem owned _)).trans
    (Calm.setFld (r := .svcCacheCtrl) (i := 0) (j := 0) (by decide) released 6 0 _)).trans
    (Calm.cause (page := ownPage false h.ptile) (tile_aligned _ _) _ 1)
  split
  · rename_i q found
    obtain ⟨wait, -, same⟩ := Handover.of_pantry.mp
      (List.find?_some (p := fun q : Handover => q.of false h.ptile h.bank) found)
    exact (hGiven.trans (Calm.mem _ _)).trans (Calm.startHandover wait (same ▸ hb) _)
  · exact hGiven

theorem Calm.giveBank {h : Handover} (pantry : h.larder = false) (hb : h.bank < 16) (s : State) :
    Calm s (s.giveBank h) := by
  have ended : Calm s (match s.mem.handovers.find? fun q => q.of h.larder h.ptile h.bank with
      | some q => s.endHandover q
      | none => s) := by
    split
    · rename_i q found
      obtain ⟨wait, -, same⟩ := Handover.of_pantry.mp (pantry ▸ List.find?_some found)
      exact Calm.endHandover wait (same ▸ hb) s
    · exact Calm.refl s
  exact (ended.trans (Calm.startHandover pantry hb _)).trans (Calm.endHandover pantry hb _)

theorem Calm.giveSpareBanks (s : State) (old new : Nat) : Calm s (s.giveSpareBanks old new) :=
  Calm.foldl (fun _ hb s => Calm.giveBank rfl (List.mem_range.mp hb) s) s

theorem State.vmapOf_lt {t v : Nat} (h : s.vmapOf t = some v) : v < 128 :=
  List.mem_range.mp (List.mem_of_find?_eq_some h)

theorem vmap_out {v : Nat} (hv : v < 128) :
    Reg.addr .glbVmap v 0 0 % 0x1000 ≠ 4 ∧ Reg.addr .glbVmap v 0 0 % 0x1000 ≠ 0xC := by
  simp only [Reg.addr, Reg.row]
  omega

/-- A tile replaced by a spare, or given up where there is none. -/
theorem Calm.replaceTile (s : State) (t : Nat) : Calm s (s.replaceTile t).2 := by
  unfold State.replaceTile
  extract_lets old c drawn fresh
  have hDrawn : Calm s drawn := (Calm.setTile s t _).trans (Calm.anyOf _ _)
  split
  · exact ((Calm.setTile s t _).trans (Calm.countSpares _)).trans (Calm.saveSpareMap _)
  · rename_i v mapped
    have out := vmap_out (State.vmapOf_lt mapped)
    split
    · extract_lets lost
      have hLost : Calm s lost :=
        ((hDrawn.trans (Calm.wr out drawn _)).trans (Calm.saveSpareMap _)).trans (Calm.countSpares _)
      exact (hLost.trans (Calm.err (by decide) lost _ _)).trans (Calm.vmapChanged _ v)
    · rename_i n _
      extract_lets named placed banked _ noted
      have hPlaced : Calm s placed := (hDrawn.trans (Calm.wr out drawn _)).trans (Calm.setTile named n _)
      have hBanked : Calm s banked := by
        unfold banked
        split
        · exact hPlaced.trans (Calm.giveSpareBanks placed t n)
        · exact hPlaced
      have hNoted : Calm s noted := hBanked.trans (Calm.prf banked _)
      exact ((hNoted.trans (Calm.saveSpareMap noted)).trans (Calm.countSpares _)).trans (Calm.vmapChanged _ v)

theorem Calm.replaceFailed (s : State) : Calm s s.replaceFailed.2 := by
  have each (l : List Nat) : ∀ r : Bool × State, Calm s r.2 → Calm s (l.foldl (fun r t =>
      let x := r.2.replaceTile t
      (r.1 && x.1, x.2)) r).2 := by
    induction l with
    | nil => exact fun _ h => h
    | cons t l ih => exact fun r h => ih _ (h.trans (Calm.replaceTile r.2 t))
  exact each _ _ (Calm.prf s _)

/-! ### Faults and restores (R485 to R490) -/

theorem Calm.faultStop (s : State) (code reason : Nat) : Calm s (s.faultStop code reason) := by
  unfold State.faultStop
  extract_lets dropped _ idle replaced
  have hIdle : Calm s idle := (Calm.dropItems s _).trans (Calm.prf dropped _)
  have hReplaced : Calm s replaced := (hIdle.trans (Calm.replaceFailed idle)).trans (Calm.discardHostWork _)
  exact ((hReplaced.trans (Calm.immediateStop _ 9)).trans (Calm.err (by decide) _ _ _)).trans
    (Calm.cause (by decide) _ 3)

theorem Calm.issueProofs (type : Byte) (l : List Nat) : ∀ s : State, Calm s (State.issueProofs type l s) := by
  induction l with
  | nil => exact fun s => Calm.prf s _
  | cons t l ih =>
    intro s
    unfold State.issueProofs
    extract_lets r
    have issued : Calm s r.2 := Calm.issueInternal s _
    split
    · exact issued.trans (ih _)
    · exact Calm.prf s _

theorem Calm.startRestore (s : State) (p : Proof) (replay : Bool) : Calm s (s.startRestore p replay) := by
  unfold State.startRestore
  extract_lets dropped _ emptied _ quiet rest mapped _ begun
  have hQuiet : Calm s quiet := ((Calm.dropRunning s _).trans (Calm.svc dropped _)).trans (Calm.net emptied _)
  have hRest : Calm s rest := hQuiet.trans (Calm.foldl (fun t _ s => Calm.modTile s t _) quiet)
  have hMapped : Calm s mapped := hRest.trans (Calm.mapTiles rest _)
  exact (hMapped.trans (Calm.prf mapped _)).trans (Calm.issueProofs _ _ _)

theorem Calm.beginRestore (s : State) : Calm s s.beginRestore := by
  unfold State.beginRestore
  split
  · exact Calm.startRestore s _ _
  · exact Calm.faultStop s _ _

theorem Calm.lateRestore (s : State) : Calm s s.lateRestore := by
  unfold State.lateRestore
  split
  · split
    · exact Calm.faultStop s _ _
    · exact (((Calm.discardHostWork s).trans (Calm.prf _ _)).trans (Calm.setRun _ _)).trans (Calm.beginRestore _)
  · exact Calm.refl s

theorem Calm.unprotect (s : State) (why : Nat) : Calm s (s.unprotect why) := by
  unfold State.unprotect
  split
  · exact Calm.refl s
  · exact ((Calm.prf s _).trans (Calm.err (by decide) _ _ _)).trans (Calm.raise (by decide) _ _)

theorem Calm.releaseProtect (s : State) : Calm s s.releaseProtect := by
  have off : Calm s (if s.prfEn then s else s.unprotect 2) := by
    split
    · exact Calm.refl s
    · exact Calm.unprotect s 2
  unfold State.releaseProtect
  dsimp only
  generalize (if s.prfEn then s else s.unprotect 2) = t at off
  split
  · exact off.trans (Calm.unprotect t 4)
  · exact off

theorem Calm.reloadWdg (s : State) : Calm s s.reloadWdg :=
  (Calm.run s _).trans (Calm.setFld (r := .wdgStat) (i := 0) (j := 0) (by decide) _ 31 31 0)

/-! ### The command (R18 to R20, R407) -/

theorem Calm.release (s : State) (stp : Bool) : Calm s (s.release stp) := by
  unfold State.release
  extract_lets _ woken _ _ _ _ _ begun
  have hBegun : Calm s begun := (Calm.wakeMapped s).trans (Calm.of_regs (s := woken) rfl rfl rfl)
  exact (((hBegun.trans (Calm.reloadWdg begun)).trans (Calm.setRun _ _)).trans (Calm.releaseProtect _)).trans
    (Calm.lateRestore _)

theorem Calm.runCommand (s : State) (val : Word) : Calm s (s.runCommand val) := by
  have refused (why : Nat) : Calm s (s.runRefused val why) := Calm.err (by decide) s _ _
  unfold State.runCommand
  split
  · exact Calm.refl s
  · split
    · exact refused 3
    · split
      · exact Calm.refl s
      · exact refused _
    · exact Calm.release s false

end

end Sys2Proof.Machine
end

section
/-! ## Captures and the actions of an event (R407, R410) -/

namespace Sys2Proof.Machine

section
variable {s t r : State}

/-- The state in which the captures are l. -/
def State.withCaptures (s : State) (l : List Capture) : State := { s with tim := { s.tim with captures := l } }

/-- A capture enters the FIFO; the rest is stored and recorded on page 2. -/
theorem State.captureIn_records {K : List Nat} (hK : ∀ a ∈ K, a ∉ errRegs (timPage + 0x2000))
    (stat : Reg.addr .timCapStat ∉ K) (s : State) (cycle src ns frac : Nat) :
    ∃ l, Records K (s.withCaptures l) (s.captureIn cycle src ns frac) := by
  unfold State.captureIn
  split
  · exact ⟨s.tim.captures, Records.refl s⟩
  · extract_lets l _ taken told
    have hTold : Records K taken told := by
      unfold told
      split
      · exact Records.cause (fun h => hK _ h (by simp [errRegs])) taken 1
      · exact Records.refl taken
    exact ⟨l.take 256, hTold.trans (Records.foldl (fun d _ s =>
      (Records.setReg stat s _).trans (Records.err hK _ _ _)) told)⟩

theorem Calm.captureIn (s : State) (cycle src ns frac : Nat) : Calm s (s.captureIn cycle src ns frac) := by
  unfold State.captureIn
  split
  · exact Calm.refl s
  · extract_lets l _ taken told
    have hTaken : Calm s taken := Calm.of_regs rfl rfl rfl
    have hTold : Calm s told := by
      unfold told
      split
      · exact hTaken.trans (Calm.cause (by decide) taken 1)
      · exact hTaken
    exact hTold.trans (Calm.foldl (fun d _ s =>
      (Calm.setFld (r := .timCapStat) (i := 0) (j := 0) (by decide) s _ _ _).trans (Calm.err (by decide) _ _ _)) told)

/-- The first capture of a FIFO is announced. -/
theorem State.captureIn_first {src : Nat} (source : bit (s.rd .timCapCfg) src = true)
    (en : s.pageEn (timPage + 0x2000) = true) (empty : s.tim.captures = []) (cycle ns frac : Nat) :
    s.captureIn cycle src ns frac =
      (s.withCaptures [⟨cycle, src, BitVec.ofNat 64 ns, BitVec.ofNat 16 frac⟩]).cause (timPage + 0x2000) 1 := by
  unfold State.captureIn
  simp only [source, en, empty, Capture.into, Bool.and_self, Bool.not_true, Bool.false_eq_true, if_false,
    List.isEmpty_nil, if_true]
  rfl

theorem Calm.acqExt (s : State) (n : Nat) (stamp : DWord) : Calm s (s.acqExt n stamp) := by
  unfold State.acqExt
  split
  · exact Calm.wr (r := .acqExtLost) (i := 0) (j := 0) (k := 0) (by decide) s _
  · exact Calm.acq s _

/-- An acquisition event counts or waits. -/
theorem State.acqExt_spec (w : Table.wf regInit s.regs = true) (n : Nat) (stamp : DWord) :
    Only [.regs, .acq] s (s.acqExt n stamp) ∧ RegsBut [Reg.addr .acqExtLost] s (s.acqExt n stamp) := by
  unfold State.acqExt
  split
  · exact ⟨(s.countReg_only _ _ _ _ _).mono (by simp), State.countReg_regsBut w _ _ _ _ _⟩
  · exact ⟨(Only.acq s _).mono (by simp), RegsBut.of_eq rfl⟩

theorem Calm.haltRequest (s : State) (c : Nat) : Calm s (s.haltRequest c) :=
  Calm.of_only (s.haltRequest_only c) (by simp) (by simp)

theorem Calm.trgRun (s : State) (n : Nat) : Calm s (s.trgRun n) := by
  have halted : Calm s (if bit (s.rd .timTrgAct n) 2 then s.haltRequest 6 else s) := by
    split
    · exact Calm.haltRequest s 6
    · exact Calm.refl s
  unfold State.trgRun
  dsimp only
  generalize (if bit (s.rd .timTrgAct n) 2 then s.haltRequest 6 else s) = t at halted
  split
  · exact halted.trans (Calm.runCommand t 0)
  · exact halted

theorem Calm.trgAct (s : State) (n k : Nat) : Calm s (s.trgAct n k) := by
  unfold State.trgAct
  extract_lets a captured told
  have hCaptured : Calm s captured := by
    unfold captured
    split
    · exact Calm.captureIn s _ _ _ _
    · exact Calm.refl s
  have hTold : Calm s told := by
    unfold told
    split
    · exact hCaptured.trans (Calm.acqExt captured _ _)
    · exact hCaptured
  exact hTold.trans (Calm.trgRun told n)

/-- HALT alone among the actions. -/
theorem State.trgRun_halt {n : Nat} (act : s.rd .timTrgAct n = 4) : s.trgRun n = s.haltRequest 6 := by
  unfold State.trgRun
  simp only [act]
  rfl

theorem State.trgRun_capture {n : Nat} (act : s.rd .timTrgAct n = 1) : s.trgRun n = s := by
  unfold State.trgRun
  simp only [act]
  rfl

theorem State.trgAct_halt {n : Nat} (act : s.rd .timTrgAct n = 4) (k : Nat) : s.trgAct n k = s.haltRequest 6 := by
  rw [← State.trgRun_halt act]
  unfold State.trgAct
  simp only [act]
  rfl

/-- A halt request of a device that runs. -/
theorem State.haltRequest_run (run : s.run.state = .run) (c : Nat) :
    (s.haltRequest c).run.state = .halting ∧ (s.haltRequest c).run.causes = s.run.causes ||| causeBit c ∧
      Only [.run, .con] s (s.haltRequest c) := by
  let t : State := { s with run := { s.run with causes := s.run.causes ||| causeBit c } }
  have eq : s.haltRequest c = t.setRun .halting := by
    rw [State.haltRequest, run]
  have begun : Only [.run, .con] s t := (Only.run s _).mono (by simp)
  have other : t.run.state ≠ .halting := by
    rw [show t.run.state = s.run.state from rfl, run]
    decide
  have run' : (t.setRun .halting).run = { t.run with state := .halting } := by
    rw [State.setRun, if_neg other]
    exact (State.event_only _ _ _).2 .run (by simp)
  rw [eq, run']
  exact ⟨rfl, rfl, begun.trans (t.setRun_only _)⟩

end

end Sys2Proof.Machine
end

section
/-! ## Native lines (R403 to R407) -/

namespace Sys2Proof.Machine

section
variable {s t r : State} {lines : BitVec 8} {line slot : Nat}

/-- An event's capture, where that is its one action. -/
theorem State.trgAct_capture (w : Table.wf regInit s.regs = true) (hl : line < 8) (act : s.rd .timTrgAct line = 1)
    (source : bit (s.rd .timCapCfg) line = true) (en : s.pageEn (timPage + 0x2000) = true)
    (empty : s.tim.captures = []) (k : Nat) :
    s.trgAct line k = (s.withCaptures [⟨(10 * k + s.trgLat) * 8 / 5, line, BitVec.ofNat 64 (10 * k), 0⟩]).cause
      (timPage + 0x2000) 1 := by
  have first := State.captureIn_first source en empty ((10 * k + s.trgLat) * 8 / 5) (10 * k) 0
  have act' : (s.captureIn ((10 * k + s.trgLat) * 8 / 5) line (10 * k) 0).rd .timTrgAct line = 1 := by
    rw [first]
    have away : Reg.addr .timTrgAct line ≠ timPage + 0x2000 + 0xC := by
      simp only [Reg.addr, Reg.row, timPage]
      omega
    have kept (l : List Capture) : Table.wf regInit (s.withCaptures l).regs = true := w
    exact (State.reg_raise (kept _) _ _ _).trans ((if_neg away).trans act)
  have alone : s.trgAct line k = (s.captureIn ((10 * k + s.trgLat) * 8 / 5) line (10 * k) 0).trgRun line := by
    unfold State.trgAct
    simp only [act]
    rfl
  rw [alone, State.trgRun_capture act', first]
  rfl

/-- The state in which the fires that wait are l. -/
def State.withFires (s : State) (l : List (Nat × Nat)) : State := { s with tim := { s.tim with fires := l } }

/-- The slots that fires of the lines ns wait for, behind those of l. -/
def addFires (slotOf : Nat → Nat) (ns : List Nat) (l : List (Nat × Nat)) : List (Nat × Nat) :=
  ns.foldl (fun l n => if (n, slotOf n) ∈ l then l else l ++ [(n, slotOf n)]) l

theorem mem_addFires {slotOf : Nat → Nat} {ns : List Nat} {q : Nat × Nat} :
    ∀ {l : List (Nat × Nat)}, q ∈ addFires slotOf ns l ↔ q ∈ l ∨ (q.1 ∈ ns ∧ q.2 = slotOf q.1) := by
  induction ns with
  | nil => exact fun {l} => by simp [addFires]
  | cons n ns ih =>
    intro l
    have step : q ∈ (if (n, slotOf n) ∈ l then l else l ++ [(n, slotOf n)]) ↔ q ∈ l ∨ q = (n, slotOf n) := by
      split
      · rename_i old
        exact ⟨.inl, fun h => h.elim id fun e => e ▸ old⟩
      · simp
    have named : q = (n, slotOf n) ↔ q.1 = n ∧ q.2 = slotOf q.1 := by
      obtain ⟨a, b⟩ := q
      simp only [Prod.mk.injEq]
      exact ⟨fun ⟨h, g⟩ => ⟨h, h ▸ g⟩, fun ⟨h, g⟩ => ⟨h, h ▸ g⟩⟩
    have rest := ih (l := if (n, slotOf n) ∈ l then l else l ++ [(n, slotOf n)])
    rw [addFires, List.foldl_cons, ← addFires, rest, step, named, List.mem_cons]
    tauto

/-- Fires of a synchronized device. -/
theorem State.fireLines_synced (on : s.trgOn = true) (sync : s.trgSynced = true) (lines : BitVec 8) :
    ∃ l, s.fireLines lines = s.withFires l ∧
      ∀ q, q ∈ l ↔ q ∈ s.tim.fires ∨ ((q.1 < 8 ∧ bit lines q.1 = true ∧ s.native q.1 = true) ∧ q.2 = s.fireSlot q.1) := by
  have fold (ns : List Nat) (l : List (Nat × Nat)) : ns.foldl (fun s n =>
      if (n, s.fireSlot n) ∈ s.tim.fires then s
      else { s with tim := { s.tim with fires := s.tim.fires ++ [(n, s.fireSlot n)] } }) (s.withFires l) =
        s.withFires (addFires s.fireSlot ns l) := by
    induction ns generalizing l with
    | nil => rfl
    | cons n ns ih =>
      rw [List.foldl_cons, addFires, List.foldl_cons, ← addFires, ← ih]
      congr 1
      show (if (n, s.fireSlot n) ∈ l then s.withFires l else s.withFires (l ++ [(n, s.fireSlot n)])) = _
      split <;> rfl
  let ns := (List.range 8).filter fun n => bit lines n && s.native n
  have named (n : Nat) : n ∈ ns ↔ n < 8 ∧ bit lines n = true ∧ s.native n = true := by simp [ns]
  unfold State.fireLines
  split
  · rename_i none
    obtain rfl : lines = 0 := none.resolve_right (by simp [on])
    refine ⟨s.tim.fires, rfl, fun q => ?_⟩
    simp [bit]
  · rw [if_neg (by simp [sync])]
    refine ⟨addFires s.fireSlot ns s.tim.fires, fold ns s.tim.fires, fun q => ?_⟩
    rw [mem_addFires, named]

theorem State.fireLines_unsynced (on : s.trgOn = true) (sync : s.trgSynced = false) (named : lines ≠ 0) :
    s.fireLines lines = s.timErr 1 0x5006 lines.toNat := by
  rw [State.fireLines, if_neg (not_or.mpr ⟨named, by simp [on]⟩), sync]
  rfl

theorem State.fireLines_off (off : s.trgOn = false) (lines : BitVec 8) : s.fireLines lines = s := by
  rw [State.fireLines, if_pos (.inr (by rw [off]; rfl))]

/-- An event of a line. -/
theorem execTrgSample_seen (hl : line < 8) (on : s.trgOn = true) (native : s.native line = true)
    (sync : s.trgSynced = true) (fresh : (line, slot) ∉ s.tim.events)
    (due : ns5 (10 * slot + 5) + steps5 (s.trgDelay line) ≤ s.out5) :
    exec (.trgSample line slot) s =
      .next (({ s with tim := { s.tim with events := s.tim.events ++ [(line, slot)] } } : State).cause
        (timPage + 0x1000) 1) :=
  (guardUnit_of (decide_eq_true hl) _).trans (whenDue_of (by simp [on, native, sync, fresh, due]) s _)

/-- The state in which the event of a line and slot is taken. -/
def State.eventTaken (s : State) (line slot : Nat) : State :=
  { s with tim := { s.tim with events := s.tim.events.erase (line, slot) } }

theorem execTrgAct_due (hl : line < 8) (event : (line, slot) ∈ s.tim.events)
    (due : ns5 (10 * slot + s.trgLat) ≤ s.out5) :
    exec (.trgAct line slot) s = .next ((s.eventTaken line slot).trgAct line slot) :=
  (guardUnit_of (decide_eq_true hl) _).trans (whenDue_of (by simp [event, due]) s _)

/-- A calibration begun. -/
theorem execTrgCal_on (hl : line < 8) (reach : s.reachable = true) (srst : s.srst (timPage + 0x1000) = false)
    (on : s.trgOn = true) :
    exec (.trgCal line) s = .next (if bit (s.rd .timTrgCfg) (16 + line) then s.timBusy 1 0x48
      else { s with tim := { s.tim with cal := some line } }) := by
  refine ((guardUnit_of (decide_eq_true hl) _).trans (onWrite_open reach srst _)).trans ?_
  rw [on]
  split
  · rename_i off
    cases off
  · split <;> rfl

theorem execTrgCal_off (hl : line < 8) (off : s.trgOn = false) : exec (.trgCal line) s = .next s := by
  refine (guardUnit_of (decide_eq_true hl) _).trans ?_
  rw [onWrite, off]
  split <;> rfl

/-- The state in which no calibration runs. -/
def State.calEnded (s : State) : State := { s with tim := { s.tim with cal := none } }

theorem execTrgCalDone_ok (cal : s.tim.cal = some line) {ps : Nat} (most : ps - 50 * s.trgHub ≤ 400000) :
    exec (.trgCalDone (some ps)) s = .next (s.calEnded.wr .timTrgDelay
      (BitVec.ofNat 32 (2 ^ 31 + (ps - 50 * s.trgHub + 50) / 100)) line) := by
  have within : (Option.isNone (some ps) || decide (400000 < (some ps).getD 0 - 50 * s.calEnded.trgHub)) = false := by
    have same : s.calEnded.trgHub = s.trgHub := rfl
    simpa [same] using most
  show execTrgCalDone (some ps) s = _
  rw [execTrgCalDone, cal]
  dsimp only
  exact if_neg (ne_true_of_eq_false within)

theorem execTrgCalDone_none (cal : s.tim.cal = some line) :
    exec (.trgCalDone none) s = .next (s.calEnded.timErr 1 0x5007 line) := by
  show execTrgCalDone none s = _
  rw [execTrgCalDone, cal]
  rfl

end

end Sys2Proof.Machine
end

section
/-! ## VL2 and the reads of the time keeper (R408, R410, R413) -/

namespace Sys2Proof.Machine

section
variable {s t r : State} {w n : Nat} {val : Word}

theorem execVl2ArmPulse_arm (on : s.vl2On = true) (low : 500 ≤ w) (high : w ≤ 2000) :
    exec (.vl2ArmPulse w) s = .next ((s.captureAt 8 (s.vl2Stamp w)).setVl2 .armed) := by
  show execVl2ArmPulse w s = _
  rw [execVl2ArmPulse, on, armWidth, decide_eq_true low, decide_eq_true high]
  rfl

/-- A pulse that is neither an arm nor a fire. -/
theorem execVl2ArmPulse_glitch (on : s.vl2On = true) (neither : w < 500 ∨ 2000 < w) (short : w < 3000) :
    exec (.vl2ArmPulse w) s = .next (s.timErr 1 0x500A (min 0xFFFF (w / 10))) := by
  have none : armWidth w = false := by
    simp only [armWidth, Bool.and_eq_false_iff, decide_eq_false_iff_not]
    omega
  show execVl2ArmPulse w s = _
  rw [execVl2ArmPulse, on, none, State.vl2Glitch, none, decide_eq_false (by omega)]
  rfl

theorem execVl2FirePulse_on (on : s.vl2On = true) (long : 3000 ≤ w) :
    exec (.vl2FirePulse w) s = .next (s.vl2Seen w) := by
  show execVl2FirePulse w s = _
  rw [execVl2FirePulse, on, if_pos long]
  rfl

theorem execVl2LineFall_fired (on : s.vl2On = true) (long : 3000 ≤ w) (fired : s.tim.vl2 = .fired) :
    exec (.vl2LineFall w) s = .next { s with tim := { s.tim with vl2 := .idle, vl2FallNs := some 0 } } := by
  show execVl2LineFall w s = _
  rw [execVl2LineFall, on, if_pos long]
  simp only [fired, if_pos]
  rfl

/-- A fire of an armed device, before the actions of line 7. -/
def State.fireTaken (s : State) (w : Nat) : State :=
  ((((s.captureAt 9 (s.vl2Stamp w)).cause (timPage + 0x1000) 1).acqExt 7
    (BitVec.ofNat 64 (s.vl2Stamp w / 2 ^ 16))).setVl2 .fired)

theorem State.vl2Seen_armed (armed : s.tim.vl2 = .armed) (w : Nat) : s.vl2Seen w = (s.fireTaken w).trgRun 7 := by
  have seen : (((s.captureAt 9 (s.vl2Stamp w)).cause (timPage + 0x1000) 1).acqExt 7
      (BitVec.ofNat 64 (s.vl2Stamp w / 2 ^ 16))).tim.vl2 = .armed :=
    (((Calm.captureIn s _ _ _ _).trans (Calm.cause (by decide) _ 1)).trans (Calm.acqExt _ 7 _)).vl2.trans armed
  rw [State.vl2Seen]
  exact if_pos seen

theorem State.fireTaken_spec (wf : Table.wf regInit s.regs = true) (w : Nat) :
    Table.wf regInit (s.fireTaken w).regs = true ∧ (s.fireTaken w).tim.vl2 = .fired ∧
      bit ((s.fireTaken w).reg (timPage + 0x1000 + 0xC)) 1 = true ∧
      (s.fireTaken w).rd .timTrgAct 7 = s.rd .timTrgAct 7 ∧ (s.fireTaken w).run = s.run := by
  obtain ⟨l, captured⟩ := State.captureIn_records (K := [Reg.addr .timTrgAct 7]) (by decide) (by decide) s
    (nclkCycle s.out16) 9 (s.vl2Stamp w / 2 ^ 16) (s.vl2Stamp w % 2 ^ 16)
  have caused := captured.trans (Records.cause (page := timPage + 0x1000) (by decide) _ 1)
  obtain ⟨wf', kept⟩ := caused.regs wf
  obtain ⟨wfCap, -⟩ := captured.regs wf
  have set := State.bit_cause wfCap (timPage + 0x1000) (i := 1) (by decide)
  unfold State.fireTaken State.captureAt State.capture
  generalize State.cause _ _ _ = u at caused wf' kept set
  obtain ⟨only, regs⟩ := State.acqExt_spec wf' 7 (BitVec.ofNat 64 (s.vl2Stamp w / 2 ^ 16))
  have calm := Calm.acqExt u 7 (BitVec.ofNat 64 (s.vl2Stamp w / 2 ^ 16))
  obtain ⟨wfExt, bits⟩ := calm.regs wf'
  refine ⟨wfExt, rfl, (bits _ (by decide)).2 1 (by decide) set, ?_,
    (only.2 .run (by simp)).trans (caused.only.2 .run (by simp))⟩
  exact (regs _ (by decide)).trans (kept _ (by simp))

theorem join32_halves (x : DWord) : join32 (hi32 x) (lo32 x) = x := by
  refine BitVec.eq_of_getLsbD_eq fun i hi => ?_
  rw [join32, BitVec.getLsbD_append]
  split
  · simp [lo32, *]
  · simp only [hi32, BitVec.getLsbD_setWidth, BitVec.getLsbD_ushiftRight]
    rw [show 32 + (i - 32) = i by omega, decide_eq_true (by omega), Bool.true_and]

end

end Sys2Proof.Machine
end

section
/-! ## Commands of VL2 and reads of the time keeper (R408, R409, R413, R416, R417) -/

namespace Sys2Proof.Machine

section
variable {s t r : State} {val : Word}

/-- A write of TIM_VL2: its fields, before the command. -/
theorem State.vl2Fields_spec (w : Table.wf regInit s.regs = true) (val : Word) :
    (s.vl2Fields val).rd .timVl2 = val &&& 0xC0000000 ∧ RegsBut [Reg.addr .timVl2] s (s.vl2Fields val) ∧
      Only [.regs, .tim] s (s.vl2Fields val) ∧ (s.vl2Fields val).vl2On = s.vl2On ∧
      bit ((s.vl2Fields val).rd .timTrgCfg) 31 = bit (s.rd .timTrgCfg) 31 := by
  have other : RegsBut [Reg.addr .timVl2] s (s.vl2Fields val) := State.setReg_regsBut w _ _
  have cfg : (s.vl2Fields val).rd .timTrgCfg = s.rd .timTrgCfg := other _ (by decide)
  have ctrl : (s.vl2Fields val).reg (timPage + 0x1000 + 4) = s.reg (timPage + 0x1000 + 4) := other _ (by decide)
  refine ⟨State.rd_wr w, other, (s.setReg_only _ _).mono (by simp), ?_, by rw [cfg]⟩
  rw [State.vl2On, State.vl2On, State.trgOn, State.trgOn, State.pageEn, State.pageEn, cfg, ctrl]

/-- What a command of TIM_VL2 leaves beside the fields: the time keeper x. -/
theorem State.vl2Fields_tim (w : Table.wf regInit s.regs = true) (val : Word) (x : TimeKeeper) :
    let r : State := { s.vl2Fields val with tim := x }
    r.rd .timVl2 = val &&& 0xC0000000 ∧ RegsBut [Reg.addr .timVl2] s r ∧ Only [.regs, .tim] s r := by
  obtain ⟨fields, other, only, -, -⟩ := State.vl2Fields_spec w val
  exact ⟨fields, other, only.trans ((Only.tim _ x).mono (by simp))⟩

theorem execVl2Arm_open (reach : s.reachable = true) (srst : s.srst (timPage + 0x1000) = false)
    (asked : bit val 0 = true) : exec (.vl2Arm val) s = .next ((s.vl2Fields val).vl2ArmCmd) :=
  (onWrite_open reach srst _).trans (whenDue_of asked s _)

theorem execVl2Fire_open (reach : s.reachable = true) (srst : s.srst (timPage + 0x1000) = false)
    (asked : bit val 2 = true) : exec (.vl2Fire val) s = .next ((s.vl2Fields val).vl2FireNow) :=
  (onWrite_open reach srst _).trans (whenDue_of asked s _)

theorem execVl2Disarm_open (reach : s.reachable = true) (srst : s.srst (timPage + 0x1000) = false)
    (asked : bit val 1 = true) : exec (.vl2Disarm val) s = .next ((s.vl2Fields val).setVl2 .idle) :=
  (onWrite_open reach srst _).trans (whenDue_of asked s _)

/-- A master drives an arm pulse. -/
theorem State.vl2ArmCmd_master (w : Table.wf regInit s.regs = true) (master : bit val 31 = true) (on : s.vl2On = true) :
    (s.vl2Fields val).vl2ArmCmd =
      { s.vl2Fields val with tim := { s.tim with vl2Drive := s.tim.vl2Drive ++ [1] } } := by
  obtain ⟨fields, -, -, same, -⟩ := State.vl2Fields_spec w val
  have isMaster : bit ((s.vl2Fields val).rd .timVl2) 31 = true := by
    rw [fields, bit, BitVec.getLsbD_and, show val.getLsbD 31 = true from master]
    rfl
  rw [State.vl2ArmCmd]
  exact if_pos ⟨same.trans on, isMaster⟩

/-- A fire of an armed device is driven. -/
theorem State.vl2FireNow_armed (w : Table.wf regInit s.regs = true) (on : s.vl2On = true) (armed : s.tim.vl2 = .armed) :
    (s.vl2Fields val).vl2FireNow =
      { s.vl2Fields val with tim := { s.tim with vl2Drive := s.tim.vl2Drive ++ [2] } } := by
  obtain ⟨-, -, -, same, -⟩ := State.vl2Fields_spec w val
  have both : bit ((s.vl2Fields val).rd .timTrgCfg) 31 = true ∧ (s.vl2Fields val).trgOn = true := by
    have h := same.trans on
    rwa [State.vl2On, Bool.and_eq_true] at h
  rw [State.vl2FireNow]
  exact if_pos ⟨both.1, both.2, armed⟩

theorem State.vl2FireNow_not (other : s.tim.vl2 ≠ .armed) : (s.vl2Fields val).vl2FireNow = s.vl2Fields val := by
  rw [State.vl2FireNow]
  exact if_neg fun h => other h.2.2

theorem execVl2Rearm_due {n : Nat} (on : s.vl2On = true) (fell : s.tim.vl2FallNs = some n) (due : 10000 ≤ n)
    (master : bit (s.rd .timVl2) 31 = true) (rearm : bit (s.rd .timVl2) 30 = true) :
    exec .vl2Rearm s =
      .next { s with tim := { s.tim with vl2FallNs := none, vl2Drive := s.tim.vl2Drive ++ [1] } } := by
  show execVl2Rearm s = _
  rw [execVl2Rearm, fell]
  simp only [on, master, rearm, Nat.not_lt.mpr due, if_false, and_self, if_true]

/-- Two registers stored, one behind the other. -/
theorem State.wr_two {a b : Reg} (w : Table.wf regInit s.regs = true) (other : Reg.addr a ∉ [Reg.addr b]) (x y : Word) :
    ((s.wr a x).wr b y).rd a = x ∧ ((s.wr a x).wr b y).rd b = y ∧
      RegsBut [Reg.addr a, Reg.addr b] s ((s.wr a x).wr b y) ∧ Only [.regs] s ((s.wr a x).wr b y) := by
  have wa : Table.wf regInit (s.wr a x).regs = true := State.wf_setReg w
  refine ⟨(State.setReg_regsBut wa _ _ _ other).trans (State.rd_wr w), State.rd_wr wa, ?_,
    (s.setReg_only _ _).trans (State.setReg_only _ _ _)⟩
  exact ((State.setReg_regsBut w _ _).mono (by simp)).trans ((State.setReg_regsBut wa _ _).mono (by simp))

/-- The time of a capture in its two registers. -/
def State.capLatched (s : State) (c : Capture) : State := (s.wr .timCapLo (lo32 c.ns)).wr .timCapHi (hi32 c.ns)

theorem State.capLatched_spec (w : Table.wf regInit s.regs = true) (c : Capture) :
    (s.capLatched c).rd64 .timCapLo .timCapHi = c.ns ∧
      RegsBut [Reg.addr .timCapLo, Reg.addr .timCapHi] s (s.capLatched c) ∧ Only [.regs] s (s.capLatched c) := by
  obtain ⟨low, high, regs, only⟩ := State.wr_two (a := .timCapLo) (b := .timCapHi) w (by decide) (lo32 c.ns) (hi32 c.ns)
  exact ⟨(congrArg₂ join32 high low).trans (join32_halves c.ns), regs, only⟩

/-- A capture popped. -/
theorem execTimCapPop_some {c : Capture} {rest : List Capture} (reach : s.reachable = true)
    (full : s.tim.captures = c :: rest) :
    exec (.timCapPop .bar0) s = .next (((s.capLatched c).withCaptures
      (if s.pagePeek (timPage + 0x2000) then c :: rest else rest)).answer
        [BitVec.ofNat 32 (2 ^ 31 + c.source % 16 * 2 ^ 16 + c.frac.toNat)]) := by
  refine (onRead_bar0 reach _ _).trans ?_
  rw [full, State.peeks_bar0]
  dsimp only
  split
  · rw [← full]
    rfl
  · rfl

theorem execTimCapPop_none (reach : s.reachable = true) (empty : s.tim.captures = []) :
    exec (.timCapPop .bar0) s = .next (s.answer [0]) := by
  refine (onRead_bar0 reach _ _).trans ?_
  rw [empty]

/-- The registers that a read of the time latches. -/
def State.nowLatched (s : State) : State :=
  if s.pagePeek timPage then s
  else (s.wr .timNowHi (BitVec.ofNat 32 (s.outNs / 2 ^ 32))).wr .timNowFr (BitVec.ofNat 32 (s.out16 % 2 ^ 16))

theorem State.nowLatched_spec (w : Table.wf regInit s.regs = true) :
    (s.pagePeek timPage = false → s.nowLatched.rd .timNowHi = BitVec.ofNat 32 (s.outNs / 2 ^ 32) ∧
      s.nowLatched.rd .timNowFr = BitVec.ofNat 32 (s.out16 % 2 ^ 16)) ∧
      RegsBut [Reg.addr .timNowHi, Reg.addr .timNowFr] s s.nowLatched ∧ Only [.regs] s s.nowLatched := by
  unfold State.nowLatched
  split
  · rename_i peek
    exact ⟨fun off => absurd peek (ne_true_of_eq_false off), RegsBut.refl _ s, Only.refl _ s⟩
  · obtain ⟨ns, fraction, regs, only⟩ := State.wr_two (a := .timNowHi) (b := .timNowFr) w (by decide)
      (BitVec.ofNat 32 (s.outNs / 2 ^ 32))
      (BitVec.ofNat 32 (s.out16 % 2 ^ 16))
    exact ⟨fun _ => ⟨ns, fraction⟩, regs, only⟩

theorem execTimNowRead_bar0 (reach : s.reachable = true) :
    exec (.timNowRead .bar0) s = .next (s.nowLatched.answer [BitVec.ofNat 32 s.outNs]) := by
  refine (onRead_bar0 reach _ _).trans ?_
  rw [State.peeks_bar0]
  rfl

/-- The count of lost captures as a read leaves it. -/
def State.lostRead (s : State) : State := if s.pagePeek (timPage + 0x2000) then s else s.setFld .timCapStat 31 16 0

theorem State.lostRead_spec (w : Table.wf regInit s.regs = true) :
    (s.pagePeek (timPage + 0x2000) = false → s.lostRead.fld .timCapStat 31 16 = 0) ∧
      RegsBut [Reg.addr .timCapStat] s s.lostRead ∧ Only [.regs] s s.lostRead := by
  unfold State.lostRead
  split
  · rename_i peek
    exact ⟨fun off => absurd peek (ne_true_of_eq_false off), RegsBut.refl _ s, Only.refl _ s⟩
  · exact ⟨fun _ => State.fld_setFld w (by decide) (by decide), State.setReg_regsBut w _ _, s.setReg_only _ _⟩

theorem execTimCapStatRead_bar0 (reach : s.reachable = true) :
    exec (.timCapStatRead .bar0) s = .next (s.lostRead.answer [s.capStat]) := by
  refine (onRead_bar0 reach _ _).trans ?_
  rw [State.peeks_bar0]
  rfl

end

end Sys2Proof.Machine
end

section
/-! ## Obligation O59 -/

namespace Sys2Proof.Machine

/-- An error recorded on TIM page 1. -/
theorem State.timErr_recorded {s : State} (w : Table.wf regInit s.regs = true) (info : Nat) {code : Nat}
    (hc : code < 2 ^ 16) : 0 < bits ((s.timErr 1 code info).reg (timPage + 0x1000 + 0x18)) 31 16 ∧
      RegsBut (errRegs (timPage + 0x1000)) s (s.timErr 1 code info) ∧
      Only [.regs, .con, .host] s (s.timErr 1 code info) := by
  obtain ⟨only, regs, count⟩ := State.err_recorded w (timPage + 0x1000) info hc
  exact ⟨count, regs, only⟩

/-- Settles O59: each event is one exec equation; its actions are calm on the events, VL2 and the causes. -/
theorem triggersAndCaptures : Obligations.TriggersAndCaptures := by
  unfold Obligations.TriggersAndCaptures
  refine ⟨?_, ?_⟩
  · rintro line slot ps lines s ⟨w, -⟩ hl page recorded
    refine ⟨fun reach srst on sync => ?_, fun reach srst on sync named => ?_, fun on native sync fresh due => ?_,
      fun event due => ⟨?_, fun act source en empty => ?_, fun act run => ?_⟩, fun reach srst => ⟨fun on free => ?_,
      fun on busy => ?_⟩, fun cal => ⟨fun most => ?_, ?_⟩, fun off => ⟨?_, execTrgCal_off hl off, ?_⟩⟩
    · obtain ⟨l, fired, mem⟩ := State.fireLines_synced on sync lines
      refine ⟨s.withFires l, (onWrite_open reach srst _).trans (congrArg _ fired), fun q hq => (mem q).mpr (.inl hq),
        fun n hn hb native => (mem _).mpr (.inr ⟨⟨hn, hb, native⟩, rfl⟩), fun q hq => ?_, rfl, Only.tim s _⟩
      rcases (mem q).mp hq with old | ⟨⟨-, hb, native⟩, slotOf⟩
      · exact .inl old
      · exact .inr ⟨slotOf, hb, native⟩
    · exact ⟨_, (onWrite_open reach srst _).trans (congrArg _ (State.fireLines_unsynced on sync named)),
        State.timErr_recorded w _ (by decide)⟩
    · let t : State := { s with tim := { s.tim with events := s.tim.events ++ [(line, slot)] } }
      have only := t.raise_only page (flagAt true 1)
      refine ⟨t.cause page 1, execTrgSample_seen hl on native sync fresh due, only.2 .tim (by simp),
        State.bit_cause (s := t) w _ (by decide),
        fun a ha => ?_, ((Only.tim s _).mono (by simp)).trans (only.mono (by simp))⟩
      exact (State.reg_raise (s := t) w _ _ _).trans (if_neg (by simpa using ha))
    · exact ⟨_, execTrgAct_due hl event due, (Calm.trgAct (s.eventTaken line slot) line slot).events⟩
    · have next := execTrgAct_due hl event due
      rw [State.trgAct_capture (s := s.eventTaken line slot) w hl act source en empty] at next
      have only := ((s.eventTaken line slot).withCaptures
        [⟨(10 * slot + s.trgLat) * 8 / 5, line, BitVec.ofNat 64 (10 * slot), 0⟩]).raise_only (timPage + 0x2000)
          (flagAt true 1)
      refine ⟨_, next, ⟨(10 * slot + s.trgLat) * 8 / 5, only.2 .tim (by simp)⟩,
        State.bit_cause (s := (s.eventTaken line slot).withCaptures _) w _ (by decide), ?_⟩
      exact ((Only.tim s _).mono (by simp)).trans (only.mono (by simp))
    · have next := execTrgAct_due hl event due
      rw [State.trgAct_halt (s := s.eventTaken line slot) act] at next
      obtain ⟨halting, causes, only⟩ := State.haltRequest_run (s := s.eventTaken line slot) run 6
      exact ⟨_, next, only.2 .tim (by simp), halting, causes,
        ((Only.tim s _).mono (by simp)).trans (only.mono (by simp))⟩
    · have next := execTrgCal_on hl reach srst on
      rw [if_neg (by simp [free])] at next
      exact ⟨_, next, rfl, Only.tim s _⟩
    · have next := execTrgCal_on hl reach srst on
      rw [if_pos busy] at next
      exact ⟨_, next, State.timErr_recorded w _ (by decide)⟩
    · exact ⟨_, execTrgCalDone_ok cal most, rfl, State.rd_wr (s := s.calEnded) w,
        State.setReg_regsBut (s := s.calEnded) w _ _,
        ((Only.tim s _).mono (by simp)).trans ((s.calEnded.setReg_only _ _).mono (by simp))⟩
    · obtain ⟨count, regs, only⟩ := State.timErr_recorded (s := s.calEnded) w line (code := 0x5007) (by decide)
      exact ⟨_, execTrgCalDone_none cal, only.2 .tim (by simp), count, regs,
        ((Only.tim s _).mono (by simp)).trans (only.mono (by simp))⟩
    · show onWrite _ s (.next (s.fireLines lines)) = _
      rw [State.fireLines_off off, onWrite, ite_self]
    · exact (guardUnit_of (decide_eq_true hl) _).trans (whenDue_not (by simp [off]) s _)
  · rintro width n val c rest s ⟨w, -⟩ page fields
    refine ⟨fun on => ⟨fun low high => ?_, fun neither short => ?_, fun long armed => ?_, fun long fired => ?_⟩,
      fun on fell due master rearm => ?_, fun reach srst => ⟨fun asked master on => ?_, fun asked on armed => ?_,
      fun asked other => ?_, fun asked => ?_⟩, fun reach => ⟨fun full => ?_, fun empty => ?_, ?_, ?_⟩⟩
    · have only := State.captureIn_only s (nclkCycle s.out16) 8 (s.vl2Stamp width / 2 ^ 16) (s.vl2Stamp width % 2 ^ 16)
      refine ⟨_, execVl2ArmPulse_arm on low high, rfl, only.2 .run (by simp),
        fun source en empty => ⟨nclkCycle s.out16, ?_⟩⟩
      show (s.captureIn _ _ _ _).tim.captures = _
      rw [State.captureIn_first source en empty]
      exact congrArg TimeKeeper.captures ((State.raise_only _ _ _).2 .tim (by simp))
    · obtain ⟨count, regs, only⟩ := State.timErr_recorded w (min 0xFFFF (width / 10)) (code := 0x500A) (by decide)
      exact ⟨_, execVl2ArmPulse_glitch on neither short, count, only.2 .tim (by simp), regs, only⟩
    · have next := execVl2FirePulse_on on long
      rw [State.vl2Seen_armed armed] at next
      obtain ⟨wf, fired, set, act, runs⟩ := State.fireTaken_spec w width
      have calm := Calm.trgRun (s.fireTaken width) 7
      refine ⟨_, next, calm.vl2.trans fired, ((calm.regs wf).2 _ (by decide)).2 1 (by decide) set, fun halt run => ?_⟩
      rw [State.trgRun_halt (act.trans halt)]
      obtain ⟨halting, causes, -⟩ := State.haltRequest_run (s := s.fireTaken width) (by rw [runs]; exact run) 6
      refine ⟨halting, ?_⟩
      rw [causes, bit, BitVec.getLsbD_or]
      exact Bool.or_eq_true_iff.mpr (.inr (by decide))
    · exact ⟨_, execVl2LineFall_fired on long fired, rfl, Only.tim s _⟩
    · exact ⟨_, execVl2Rearm_due on fell due master rearm, rfl, Only.tim s _⟩
    · exact ⟨_, (execVl2Arm_open reach srst asked).trans (congrArg _ (State.vl2ArmCmd_master w master on)),
        State.vl2Fields_tim w val _, rfl⟩
    · exact ⟨_, (execVl2Fire_open reach srst asked).trans (congrArg _ (State.vl2FireNow_armed w on armed)),
        State.vl2Fields_tim w val _, rfl⟩
    · exact ⟨_, (execVl2Fire_open reach srst asked).trans (congrArg _ (State.vl2FireNow_not other)),
        State.vl2Fields_tim w val _, rfl⟩
    · exact ⟨_, execVl2Disarm_open reach srst asked, State.vl2Fields_tim w val _, rfl⟩
    · obtain ⟨ns, regs, only⟩ := State.capLatched_spec w c
      exact ⟨_, execTimCapPop_some reach full, rfl, ns, rfl, regs,
        ((only.mono (by simp)).trans ((Only.tim _ _).mono (by simp))).trans ((State.answer_only _ _).mono (by simp))⟩
    · exact ⟨_, execTimCapPop_none reach empty, rfl, s.answer_only _⟩
    · obtain ⟨cleared, regs, only⟩ := State.lostRead_spec w
      exact ⟨_, execTimCapStatRead_bar0 reach, rfl, cleared, regs,
        (only.mono (by simp)).trans ((State.answer_only _ _).mono (by simp))⟩
    · obtain ⟨latched, regs, only⟩ := State.nowLatched_spec w
      exact ⟨_, execTimNowRead_bar0 reach, rfl, latched, regs,
        (only.mono (by simp)).trans ((State.answer_only _ _).mono (by simp))⟩

end Sys2Proof.Machine
end

section
/-! ## Errors of a step (R108) -/

namespace Sys2Proof.Machine

/-- An error put into its place joins the list, and no other error comes or goes. -/
theorem mem_insertErr {e a : StepErr} : ∀ {l : List StepErr}, a ∈ insertErr e l ↔ a = e ∨ a ∈ l
  | [] => by simp [insertErr]
  | h :: rest => by
    unfold insertErr
    split
    · exact List.mem_cons
    · rw [List.mem_cons, mem_insertErr, List.mem_cons, or_left_comm]

theorem mem_foldl_insertErr {a : StepErr} : ∀ {l acc : List StepErr},
    a ∈ l.foldl (fun acc e => insertErr e acc) acc ↔ a ∈ acc ∨ a ∈ l
  | [], acc => by simp
  | e :: l, acc => by
    rw [List.foldl_cons, mem_foldl_insertErr, mem_insertErr, List.mem_cons, or_assoc, or_left_comm]

/-- The order of R108 loses no error and adds none. -/
theorem mem_sortErrs {a : StepErr} {l : List StepErr} : a ∈ sortErrs l ↔ a ∈ l := by
  simp [sortErrs, mem_foldl_insertErr]

/-- A step without errors records nothing. -/
@[simp] theorem State.stepErrs_nil (s : State) (t : Nat) : s.stepErrs t [] = s := rfl

/-- The one error of a step is recorded on its page, and asks for a halt. -/
theorem State.stepErrs_one (s : State) (t : Nat) (e : StepErr) :
    s.stepErrs t [e] = (s.tileErr t e.pg e.code e.info).haltRequest 8 := rfl

/-- Errors recorded one after another on the pages of tile t. -/
def State.tileErrs (s : State) (t : Nat) (l : List StepErr) : State :=
  l.foldl (fun s e => s.tileErr t e.pg e.code e.info) s

/-- Recording the errors of a step: they are taken in the order of R108, and ask for one halt. -/
theorem State.stepErrs_eq (s : State) (t : Nat) (l : List StepErr) :
    s.stepErrs t l = s ∨ s.stepErrs t l = (s.tileErrs t (sortErrs l)).haltRequest 8 := by
  unfold State.stepErrs
  split
  · exact Or.inl rfl
  · next order => exact Or.inr (order ▸ rfl)

theorem State.tileErrs_only (s : State) (t : Nat) (l : List StepErr) :
    Only [.regs, .con, .host] s (s.tileErrs t l) :=
  Only.foldl (F := fun s (e : StepErr) => s.tileErr t e.pg e.code e.info) (fun s _ => State.err_only s _ _ _) l s

/-- The errors of a step change registers, run control, the requests that a pause keeps, the console and what is
sent. -/
theorem State.stepErrs_only (s : State) (t : Nat) (l : List StepErr) :
    Only [.regs, .run, .prf, .con, .host] s (s.stepErrs t l) := by
  rcases s.stepErrs_eq t l with h | h
  · rw [h]
    exact Only.refl _ s
  · rw [h]
    exact ((s.tileErrs_only t _).mono (by simp)).trans ((State.haltRequest_only _ 8).mono (by simp))

@[simp] theorem State.stepErrs_tiles (s : State) (t : Nat) (l : List StepErr) : (s.stepErrs t l).tiles = s.tiles :=
  (s.stepErrs_only t l).2 .tiles (by simp)

@[simp] theorem State.stepErrs_tile (s : State) (t : Nat) (l : List StepErr) (k : Nat) :
    (s.stepErrs t l).tile k = s.tile k := State.tile_congr (s.stepErrs_tiles t l) k

@[simp] theorem State.haltRequest_regs (s : State) (c : Nat) : (s.haltRequest c).regs = s.regs :=
  (s.haltRequest_only c).2 .regs (by simp)

@[simp] theorem State.haltRequest_reg (s : State) (c a : Nat) : (s.haltRequest c).reg a = s.reg a :=
  State.reg_congr (s.haltRequest_regs c) a

/-- The error registers of two pages of a tile do not meet. -/
theorem tilePage_errRegs {t pg other : Nat} (h : other ≠ pg) : tilePage t pg + 0x18 ∉ errRegs (tilePage t other) := by
  simp only [errRegs, tilePage, List.mem_cons, List.not_mem_nil, or_false, not_or]
  omega

/-- A page of a tile that has recorded an error keeps a COUNT above 0 whatever is recorded after it. -/
theorem State.tileErr_keeps_count {s : State} (w : Table.wf regInit s.regs = true) {t pg : Nat} (other code info : Nat)
    (h : 0 < bits (s.reg (tilePage t pg + 0x18)) 31 16) :
    0 < bits ((s.tileErr t other code info).reg (tilePage t pg + 0x18)) 31 16 := by
  by_cases same : other = pg
  · subst same
    unfold State.tileErr State.err
    simp only [h.ne', if_false]
    rw [State.cause, State.reg_raise (State.wf_setReg w), if_neg (by omega), State.reg_setReg w, if_pos rfl]
    simp only [bits, BitVec.extractLsb'_toNat, BitVec.toNat_ofNat, Nat.shiftRight_eq_div_pow, satAdd] at h ⊢
    omega
  · rw [State.tileErr, State.err_regsBut w _ _ _ _ (tilePage_errRegs same)]
    exact h

/-- Errors of a tile leave a COUNT above 0 on a page that had one, or that one of them names. -/
theorem State.tileErrs_count {t pg : Nat} : ∀ {l : List StepErr} {s : State}, Table.wf regInit s.regs = true →
    0 < bits (s.reg (tilePage t pg + 0x18)) 31 16 ∨ (∃ e ∈ l, e.pg = pg ∧ e.code < 2 ^ 16) →
    0 < bits ((s.tileErrs t l).reg (tilePage t pg + 0x18)) 31 16
  | [], s, _, h => by simpa [State.tileErrs] using h
  | e :: l, s, w, h => by
    refine State.tileErrs_count (s := s.tileErr t e.pg e.code e.info) (State.wf_err w _ _ _) ?_
    rcases h with count | ⟨a, mem, page, code⟩
    · exact Or.inl (State.tileErr_keeps_count w _ _ _ count)
    · rcases List.mem_cons.mp mem with rfl | rest
      · exact Or.inl (page ▸ State.err_count_pos w _ _ code)
      · exact Or.inr ⟨a, rest, page, code⟩

/-- An error of a step leaves the COUNT of the page that it names above 0. -/
theorem State.stepErrs_count {s : State} (w : Table.wf regInit s.regs = true) {t : Nat} {l : List StepErr}
    {e : StepErr} (mem : e ∈ l) (code : e.code < 2 ^ 16) :
    0 < bits ((s.stepErrs t l).reg (tilePage t e.pg + 0x18)) 31 16 := by
  have sorted : e ∈ sortErrs l := mem_sortErrs.mpr mem
  have recorded := State.tileErrs_count (t := t) w (Or.inr ⟨e, sorted, rfl, code⟩)
  unfold State.stepErrs
  split
  · next none => simp [none] at sorted
  · next order =>
    rw [State.haltRequest_reg]
    rwa [order] at recorded

/-! ## Reserved operand codes (R86) -/

/-- Settles O12: a code of either reserved range passes every test before the one that reports it. -/
theorem reservedOperandCode : Obligations.ReservedOperandCode := by
  rintro e x b code upper (⟨low, high⟩ | ⟨low, high⟩)
  · have h : ¬ code < 0x400 ∧ ¬ code < 0x600 ∧ ¬ code < 0x680 ∧ code ≠ 0x680 := by omega
    simp only [bpOperand, h, high, if_true, if_false, and_self]
  · have h : ¬ code < 0x400 ∧ ¬ code < 0x600 ∧ ¬ code < 0x680 ∧ code ≠ 0x680 ∧ ¬ code < 0x7F0 ∧ code ≠ 0x7F0 ∧
        code ≠ 0x7F1 ∧ ¬ code < 0x7FA ∧ code ≠ 0x7FA ∧ code ≠ 0x7FB := by omega
    simp only [bpOperand, h, if_false, and_self]

end Sys2Proof.Machine
end

section
/-! ## Word unit results (R94 to R98) -/

namespace Sys2Proof.Machine

section
variable {t u : Nat} {f : WuFields} {s : State} {c : Instr}

/-- What a word unit command gives in a tile that steps. -/
theorem wuRow_runs (ht : t < 136) (hu : u < 16) (st : s.stepping t = true) (g : Tile → TileRes) :
    wuRow t u g s = .next ((s.setTile t (g (s.tile t)).1).stepErrs t (g (s.tile t)).2) := by
  have unit : (decide (t < numTiles) && decide (u < 16)) = true := by simp [numTiles, ht, hu]
  rw [wuRow, guardUnit_of unit, whenDue_of st]

/-- A tile stored with the errors of its step: only that tile changes, and without errors nothing else does. -/
theorem State.setTile_stepErrs_frame (w : s.TilesWf) (t : Nat) (x : Tile) (l : List StepErr) :
    ((s.setTile t x).stepErrs t l).tile t = x ∧ TilesBut t s ((s.setTile t x).stepErrs t l) ∧
    Only [.regs, .tiles, .run, .prf, .con, .host] s ((s.setTile t x).stepErrs t l) ∧
    (l = [] → Only [.tiles] s ((s.setTile t x).stepErrs t l)) := by
  refine ⟨?_, fun k other => ?_, ?_, fun none => ?_⟩
  · rw [State.stepErrs_tile, State.tile_setTile w, if_pos rfl]
  · rw [State.stepErrs_tile, State.tile_setTile w, if_neg other]
  · exact ((s.setTile_only t x).mono (by simp)).trans ((State.stepErrs_only _ t l).mono (by simp))
  · rw [none, State.stepErrs_nil]
    exact s.setTile_only t x

/-- A command that issues one result, counts its energy and reports errors. -/
theorem does_issues (w : s.Canonical) (ht : t < 136) (hu : u < 16) (st : s.stepping t = true) {g : Tile → TileRes}
    {lo tapHi : Word} {hi : Option Word} {errs : List StepErr} (run : exec c s = wuRow t u g s)
    (issued : ∃ e : Energy, (g (s.tile t)).1 = { s.tile t with
      results := (s.tile t).results ++ [⟨u, (s.tile t).step + 4, f.dst.toNat, lo, hi, tapHi, f.tap⟩]
      energy := e })
    (quiet : errs = [] → (g (s.tile t)).2 = []) : Does c s (fun r => Issues t u f s r lo hi tapHi errs) := by
  obtain ⟨e, tile⟩ := issued
  obtain ⟨mine, others, only, silent⟩ := State.setTile_stepErrs_frame w.2.1 t (g (s.tile t)).1 (g (s.tile t)).2
  exact ⟨_, run.trans (wuRow_runs ht hu st g), ⟨e, mine.trans tile⟩, others, only, fun none => silent (quiet none)⟩

/-- The two-input operations. -/
theorem wu2_issues (w : s.Canonical) (ht : t < 136) (hu : u < 16) (st : s.stepping t = true)
    {g : Word → Word → Word} {lo : Word} (run : exec c s = wuRow t u (fun x => wu2 g x u f) s)
    (value : g ((s.tile t).inA u f).1 ((s.tile t).inB u f false).1 = lo) :
    Does c s (fun r => Issues t u f s r lo none 0
      (((s.tile t).inA u f).2 ++ ((s.tile t).inB u f false).2 ++ ccIllegal (s.tile t) u f)) :=
  does_issues w ht hu st run (value ▸ ⟨_, rfl⟩) id

/-- The multiplies. -/
theorem wuMul_issues (w : s.Canonical) (ht : t < 136) (hu : u < 16) (st : s.stepping t = true)
    {g : Word → Word → DWord} {lo hi : Word} (run : exec c s = wuRow t u (fun x => wuMul g x u f) s)
    (low : lo32 (g ((s.tile t).inA u f).1 ((s.tile t).inB u f false).1) = lo)
    (high : hi32 (g ((s.tile t).inA u f).1 ((s.tile t).inB u f false).1) = hi) :
    Does c s (fun r => Issues t u f s r lo (some hi) hi
      (((s.tile t).inA u f).2 ++ ((s.tile t).inB u f false).2 ++ oddIllegal (s.tile t) u f ++
        ccIllegal (s.tile t) u f)) :=
  does_issues w ht hu st run (low ▸ high ▸ ⟨_, rfl⟩) id

end

/-- A low field of a vector as a remainder. -/
theorem bits_low {w : Nat} (x : BitVec w) (n : Nat) : bits x n 0 = x.toNat % 2 ^ (n + 1) := by
  simp [bits, BitVec.extractLsb'_toNat]

theorem shamt_eq (b : Word) : shamt b = b.toNat % 32 := bits_low b 4

theorem ofNat_add_toNat (a b : Word) : BitVec.ofNat 32 (a.toNat + b.toNat) = a + b :=
  BitVec.eq_of_toNat_eq (by rw [BitVec.toNat_ofNat, BitVec.toNat_add])

theorem ofNat_sub_toNat (a b : Word) : BitVec.ofNat 32 (2 ^ 32 + a.toNat - b.toNat) = a - b := by
  apply BitVec.eq_of_toNat_eq
  have := b.isLt
  rw [BitVec.toNat_ofNat, BitVec.toNat_sub]
  congr 1
  omega

/-- The condition that CMP tests, R96. -/
def CmpHolds (cc : Nat) (a b : Word) : Prop :=
  (cc = 0 ∧ a = b) ∨ (cc = 1 ∧ a ≠ b) ∨ (cc = 2 ∧ a.toNat < b.toNat) ∨ (cc = 3 ∧ b.toNat ≤ a.toNat) ∨
    (cc = 4 ∧ a.toInt < b.toInt) ∨ (cc = 5 ∧ b.toInt ≤ a.toInt)

theorem cmpHolds_iff (cc : Nat) (a b : Word) : (cmpHolds cc a b).1 = true ↔ CmpHolds cc a b := by
  match cc with
  | 0 | 1 | 2 | 3 | 4 | 5 => simp [cmpHolds, CmpHolds]
  | n + 6 => simp [cmpHolds, CmpHolds]

theorem cmpHolds_reserved (cc : Nat) (a b : Word) : (cmpHolds cc a b).2 = decide (6 ≤ cc) := by
  match cc with
  | 0 | 1 | 2 | 3 | 4 | 5 => simp [cmpHolds]
  | n + 6 => simp [cmpHolds]

section
variable {t u : Nat} {f : WuFields} {s : State}

/-- CMP gives the truth value of its condition. -/
theorem wuCmp_issues (w : s.Canonical) (ht : t < 136) (hu : u < 16) (st : s.stepping t = true) {v : Bool}
    (value : (cmpHolds f.cc.toNat ((s.tile t).inA u f).1 ((s.tile t).inB u f false).1).1 = v) :
    Does (.cmp t u f) s (fun r => Issues t u f s r (BitVec.ofNat 32 (b2n v)) none 0
      (((s.tile t).inA u f).2 ++ ((s.tile t).inB u f false).2 ++ ccIllegal (s.tile t) u f)) := by
  refine does_issues w ht hu st (g := fun x => wuCmp x u f) rfl (value ▸ ⟨_, rfl⟩) fun none => ?_
  simpa [wuCmp, cmpHolds_reserved, ccIllegal] using none

/-- SEL takes input a where bit 0 of input c is set, and input b otherwise. -/
theorem wuSel_issues (w : s.Canonical) (ht : t < 136) (hu : u < 16) (st : s.stepping t = true) :
    Does (.sel t u f) s (fun r => Issues t u f s r (if ((s.tile t).inC u f).1.toNat % 2 = 1
      then ((s.tile t).inA u f).1 else ((s.tile t).inB u f false).1) none 0
      (((s.tile t).inA u f).2 ++ ((s.tile t).inB u f false).2 ++ ccIllegal (s.tile t) u f ++
        ((s.tile t).inC u f).2)) := by
  have low (x : Word) : (bit x 0 = true) = (x.toNat % 2 = 1) := by
    simp [bit, BitVec.getLsbD, Nat.testBit_zero]
  refine does_issues w ht hu st (g := fun x => wuSel x u f) rfl ⟨(s.tile t).countAlu.energy, ?_⟩ fun none => ?_
  · simp only [wuSel, low]
    rfl
  · simp only [List.append_eq_nil_iff] at none
    simp only [wuSel, none, List.append_nil]

end

/-- Settles O8: each operation issues its value; the values of R95 and R96 agree with those of the model. -/
theorem wordUnitResults : Obligations.WordUnitResults := by
  intro t u f s w ht hu st x a b c n cc holds bad ab
  have cmp (v : Bool) (value : (cmpHolds cc a.1 b.1).1 = v) := wuCmp_issues w ht hu st (f := f) value
  have two {g : Word → Word → Word} {c : Instr} {lo : Word} (run : exec c s = wuRow t u (fun x => wu2 g x u f) s)
    (value : g a.1 b.1 = lo) := wu2_issues w ht hu st run value
  refine ⟨does_issues w ht hu st (g := fun x => wuMov x u f) rfl ⟨_, rfl⟩ id,
    two rfl (ofNat_add_toNat _ _).symm, two rfl (ofNat_sub_toNat _ _).symm, two rfl rfl, two rfl rfl, two rfl rfl,
    two rfl (by rw [shamt_eq]), two rfl (by rw [shamt_eq]), two rfl (by rw [shamt_eq]), two rfl (by rw [shamt_eq]),
    ?_, fun yes => ?_, fun no _ => ?_, fun reserved => ?_⟩
  · exact wuSel_issues w ht hu st
  · exact cmp true ((cmpHolds_iff cc a.1 b.1).mpr yes)
  · exact cmp false (Bool.eq_false_iff.mpr fun yes => no ((cmpHolds_iff cc a.1 b.1).mp yes))
  · refine cmp false (Bool.eq_false_iff.mpr fun yes => ?_)
    have := (cmpHolds_iff cc a.1 b.1).mp yes
    unfold CmpHolds at this
    omega

end Sys2Proof.Machine
end

section
/-! ## Fields and products (R95, R96, R100) -/

namespace Sys2Proof.Machine

theorem fieldPos_eq (f : WuFields) : fieldPos f = f.p1.toNat % 32 := bits_low f.p1 4

theorem fieldW_eq (f : WuFields) : fieldW f = f.p2.toNat % 64 := bits_low f.p2 5

/-- The mask M covers the bits from pos on, w of them, and none outside the word. -/
theorem fieldMask_bit (f : WuFields) (i : Nat) : (fieldMask f).getLsbD i =
    (decide (i < 32) && decide (fieldPos f ≤ i ∧ i < fieldPos f + fieldW f)) := by
  rw [fieldMask, BitVec.getLsbD_ofNat, Nat.testBit_mul_two_pow, Nat.testBit_two_pow_sub_one]
  by_cases low : fieldPos f ≤ i
  · simp only [low, decide_true, Bool.true_and, true_and, Nat.sub_lt_iff_lt_add' low]
  · simp only [low, decide_false, Bool.false_and, false_and]

section
variable {t u : Nat} {f : WuFields} {s : State}

/-- The errors that an operation on fields meets in its encoding. -/
def fieldErrs (x : Tile) (u : Nat) (f : WuFields) : List StepErr := fieldIllegal x u f ++ ccIllegal x u f

theorem fieldErrs_eq (x : Tile) (u : Nat) (f : WuFields) : fieldErrs x u f =
    (if f.p2.toNat % 64 = 0 ∨ 32 < f.p1.toNat % 32 + f.p2.toNat % 64 then [x.wuIllegal u] else []) ++
      ccIllegal x u f := by
  rw [fieldErrs, fieldIllegal, fieldW_eq, fieldPos_eq]

theorem wuExt_issues (w : s.Canonical) (ht : t < 136) (hu : u < 16) (st : s.stepping t = true) :
    Does (.ext t u f) s (fun r => Issues t u f s r ((((s.tile t).inA u f).1 &&& fieldMask f) >>> fieldPos f) none 0
      (((s.tile t).inA u f).2 ++ fieldErrs (s.tile t) u f)) :=
  does_issues w ht hu st (g := fun x => wuExt x u f) rfl ⟨_, rfl⟩ ((List.append_assoc _ _ _).trans ·)

theorem wuIns_issues (w : s.Canonical) (ht : t < 136) (hu : u < 16) (st : s.stepping t = true) :
    Does (.ins t u f) s (fun r => Issues t u f s r ((((s.tile t).inC u f).1 &&& ~~~fieldMask f) |||
        ((((s.tile t).inA u f).1 <<< fieldPos f) &&& fieldMask f)) none 0
      (((s.tile t).inA u f).2 ++ ((s.tile t).inC u f).2 ++ fieldErrs (s.tile t) u f)) :=
  does_issues w ht hu st (g := fun x => wuIns x u f) rfl ⟨_, rfl⟩ ((List.append_assoc _ _ _).trans ·)

theorem wuMrg_issues (w : s.Canonical) (ht : t < 136) (hu : u < 16) (st : s.stepping t = true) :
    Does (.mrg t u f) s (fun r => Issues t u f s r ((((s.tile t).inC u f).1 &&& ~~~fieldMask f) |||
        (((s.tile t).inA u f).1 &&& fieldMask f)) none 0
      (((s.tile t).inA u f).2 ++ ((s.tile t).inC u f).2 ++ fieldErrs (s.tile t) u f)) :=
  does_issues w ht hu st (g := fun x => wuMrg x u f) rfl ⟨_, rfl⟩ ((List.append_assoc _ _ _).trans ·)

end

/-- A field extracted: w bits from pos on, moved to bit 0. -/
theorem ext_bit (f : WuFields) (a : Word) (i : Nat) : ((a &&& fieldMask f) >>> fieldPos f).getLsbD i =
    (decide (i < fieldW f) && a.getLsbD (fieldPos f + i)) := by
  rw [BitVec.getLsbD_ushiftRight, BitVec.getLsbD_and, fieldMask_bit]
  by_cases word : fieldPos f + i < 32
  · simp [word, Bool.and_comm]
  · rw [BitVec.getLsbD_of_ge a _ (by omega), Bool.false_and, Bool.and_false]

/-- What the mask selects comes from `v`, the rest from c. -/
theorem masked_bit (f : WuFields) (c v : Word) {i : Nat} (hi : i < 32) :
    ((c &&& ~~~fieldMask f) ||| (v &&& fieldMask f)).getLsbD i =
      if fieldPos f ≤ i ∧ i < fieldPos f + fieldW f then v.getLsbD i else c.getLsbD i := by
  simp only [BitVec.getLsbD_or, BitVec.getLsbD_and, BitVec.getLsbD_not, fieldMask_bit, hi, decide_true, Bool.true_and]
  split
  · next inside => simp [inside]
  · next outside => simp [outside]

theorem lo32_ofNat (p : Nat) : lo32 (BitVec.ofNat 64 p) = BitVec.ofNat 32 p := by
  apply BitVec.eq_of_toNat_eq
  simp only [lo32, BitVec.toNat_setWidth, BitVec.toNat_ofNat]
  omega

theorem hi32_ofNat (p : Nat) : hi32 (BitVec.ofNat 64 p) = BitVec.ofNat 32 (p / 2 ^ 32) := by
  apply BitVec.eq_of_toNat_eq
  simp only [hi32, BitVec.toNat_setWidth, BitVec.toNat_ushiftRight, BitVec.toNat_ofNat, Nat.shiftRight_eq_div_pow]
  omega

theorem lo32_ofInt (q : Int) : lo32 (BitVec.ofInt 64 q) = BitVec.ofInt 32 q := by
  apply BitVec.eq_of_toNat_eq
  simp only [lo32, BitVec.toNat_setWidth, BitVec.toNat_ofInt]
  omega

theorem hi32_ofInt (q : Int) : hi32 (BitVec.ofInt 64 q) = BitVec.ofInt 32 (q / 2 ^ 32) := by
  apply BitVec.eq_of_toNat_eq
  simp only [hi32, BitVec.toNat_setWidth, BitVec.toNat_ushiftRight, BitVec.toNat_ofInt, Nat.shiftRight_eq_div_pow]
  omega

/-- Settles O9: the values are those of the model's mask M bit by bit, and the halves of the 64-bit products. -/
theorem wordUnitFieldsAndProducts : Obligations.WordUnitFieldsAndProducts := by
  constructor
  · intro t u f s w ht hu st x a c pos width bad
    have errs : bad = fieldErrs x u f := (fieldErrs_eq x u f).symm
    have hpos : pos = fieldPos f := (fieldPos_eq f).symm
    have hwidth : width = fieldW f := (fieldW_eq f).symm
    rw [errs, hpos, hwidth]
    refine ⟨⟨_, wuExt_issues w ht hu st, fun i _ => ext_bit f a.1 i⟩, ⟨_, wuIns_issues w ht hu st, fun i hi => ?_⟩,
      _, wuMrg_issues w ht hu st, fun i hi => masked_bit f c.1 a.1 hi⟩
    rw [masked_bit f _ _ hi]
    split
    · next inside =>
      simp only [BitVec.getLsbD_shiftLeft, hi, Nat.not_lt.mpr inside.1, decide_true, decide_false, Bool.not_false,
        Bool.true_and, a, x]
    · rfl
  · intro t u f s w ht hu st x a b errs p q hiU hiS
    exact ⟨wuMul_issues w ht hu st rfl (lo32_ofNat p) (hi32_ofNat p),
      wuMul_issues w ht hu st rfl (lo32_ofInt q) (hi32_ofInt q)⟩

end Sys2Proof.Machine
end

section
/-! ## Due results become visible (R98 to R100) -/

namespace Sys2Proof.Machine

theorem lo32_join32 (hi lo : Word) : lo32 (join32 hi lo) = lo := by
  refine BitVec.eq_of_getLsbD_eq fun i lt => ?_
  rw [lo32, join32, BitVec.getLsbD_setWidth, BitVec.getLsbD_append, if_pos lt, decide_eq_true lt, Bool.true_and]

theorem hi32_join32 (hi lo : Word) : hi32 (join32 hi lo) = hi := by
  refine BitVec.eq_of_getLsbD_eq fun i lt => ?_
  rw [hi32, join32, BitVec.getLsbD_setWidth, BitVec.getLsbD_ushiftRight, BitVec.getLsbD_append, if_neg (by omega),
    decide_eq_true lt, Bool.true_and, Nat.add_sub_cancel_left]

/-- A register reads back what was written, and every other register reads as before. -/
theorem Tile.wreg_setWreg {x : Tile} (w : zeroed x.wuReg) (u r v k : Nat) (val : Word) :
    (x.setWreg u r val).wreg v k = if v * 256 + k = u * 256 + r then val else x.wreg v k := Table.get_set w

theorem Tile.zeroed_setWreg {x : Tile} (w : zeroed x.wuReg) (u r : Nat) (val : Word) :
    zeroed (x.setWreg u r val).wuReg := Table.wf_set w

/-- The second register of a result written, where it has one. -/
def Tile.landHi (x : Tile) (w : WuResult) : Tile :=
  match w.hi with
  | some h => x.setWreg w.wu ((w.dst + 1) % 256) h
  | none => x

/-- The tap of a result loaded, where it asks for that. -/
def Tile.landTap (x : Tile) (w : WuResult) : Tile :=
  if w.tap then { x with tap := Table.set (fun _ => 0) x.tap w.wu (join32 w.tapHi w.lo) } else x

theorem Tile.land_eq (x : Tile) (w : WuResult) : x.land w = ((x.setWreg w.wu w.dst w.lo).landHi w).landTap w := by
  unfold Tile.land Tile.landHi Tile.landTap
  rfl

theorem Tile.landTap_wreg (x : Tile) (w : WuResult) (v k : Nat) : (x.landTap w).wreg v k = x.wreg v k := by
  unfold Tile.landTap
  split <;> rfl

/-- Register k of unit v is one that a result writes. -/
def WuResult.Writes (w : WuResult) (v k : Nat) : Prop :=
  v * 256 + k = w.wu * 256 + w.dst ∨ (w.hi.isSome = true ∧ v * 256 + k = w.wu * 256 + (w.dst + 1) % 256)

/-- The results of l have become visible: only registers and taps change, and only registers that l names. -/
structure Landed (l : List WuResult) (x y : Tile) : Prop where
  rest : y = { x with wuReg := y.wuReg, tap := y.tap }
  regs : zeroed y.wuReg
  taps : zeroed y.tap
  other : ∀ v k, (∀ w ∈ l, ¬ w.Writes v k) → y.wreg v k = x.wreg v k

theorem Landed.trans {l m : List WuResult} {x y z : Tile} (a : Landed l x y) (b : Landed m y z) :
    Landed (l ++ m) x z := by
  refine ⟨?_, b.regs, b.taps, fun v k none => ?_⟩
  · rw [b.rest, a.rest]
  · rw [b.other v k fun w hw => none w (List.mem_append_right l hw),
      a.other v k fun w hw => none w (List.mem_append_left m hw)]

theorem Tile.setWreg_landed {x : Tile} (regs : zeroed x.wuReg) (taps : zeroed x.tap) {w : WuResult} {r : Nat} (val : Word)
    (writes : ∀ v k, v * 256 + k = w.wu * 256 + r → w.Writes v k) : Landed [w] x (x.setWreg w.wu r val) := by
  refine ⟨rfl, Tile.zeroed_setWreg regs _ _ _, taps, fun v k none => ?_⟩
  rw [Tile.wreg_setWreg regs, if_neg fun same => none w (List.mem_singleton_self w) (writes v k same)]

theorem Tile.landHi_landed {x : Tile} (regs : zeroed x.wuReg) (taps : zeroed x.tap) (w : WuResult) :
    Landed [w] x (x.landHi w) := by
  unfold Tile.landHi
  split
  · next h some => exact Tile.setWreg_landed regs taps h fun v k same => .inr ⟨by simp [some], same⟩
  · exact ⟨rfl, regs, taps, fun _ _ _ => rfl⟩

theorem Tile.landTap_landed {x : Tile} (regs : zeroed x.wuReg) (taps : zeroed x.tap) (w : WuResult) :
    Landed [w] x (x.landTap w) := by
  refine ⟨?_, ?_, ?_, fun v k _ => x.landTap_wreg w v k⟩ <;> unfold Tile.landTap <;> split
  · rfl
  · rfl
  · exact regs
  · exact regs
  · exact Table.wf_set taps
  · exact taps

/-- One result lands. -/
theorem Tile.land_landed {x : Tile} (regs : zeroed x.wuReg) (taps : zeroed x.tap) (w : WuResult) :
    Landed [w] x (x.land w) := by
  rw [Tile.land_eq]
  have low := Tile.setWreg_landed regs taps w.lo fun v k same => (.inl same : w.Writes v k)
  have high := Tile.landHi_landed low.regs low.taps w
  have all := (low.trans high).trans (Tile.landTap_landed high.regs high.taps w)
  exact ⟨all.rest, all.regs, all.taps, fun v k none => all.other v k fun w' hw => none w' (by simpa using hw)⟩

/-- Results land one after another. -/
theorem Tile.foldl_land_landed : ∀ {l : List WuResult} {x : Tile}, zeroed x.wuReg → zeroed x.tap →
    Landed l x (l.foldl Tile.land x)
  | [], _, regs, taps => ⟨rfl, regs, taps, fun _ _ _ => rfl⟩
  | w :: _, _, regs, taps =>
    have first := Tile.land_landed regs taps w
    first.trans (Tile.foldl_land_landed first.regs first.taps)

/-- A result's own register holds its low word, unless its second register is the same. -/
theorem Tile.land_lo {x : Tile} (regs : zeroed x.wuReg) (w : WuResult) (apart : w.hi = none ∨ w.dst < 255) :
    (x.land w).wreg w.wu w.dst = w.lo := by
  rw [Tile.land_eq, Tile.landTap_wreg, Tile.landHi]
  split
  · next h some =>
    have dst : w.dst < 255 := apart.resolve_left (by simp [some])
    rw [Tile.wreg_setWreg (Tile.zeroed_setWreg regs _ _ _), if_neg (by omega), Tile.wreg_setWreg regs, if_pos rfl]
  · rw [Tile.wreg_setWreg regs, if_pos rfl]

/-- The second register of a product holds its high word. -/
theorem Tile.land_hi {x : Tile} (regs : zeroed x.wuReg) {w : WuResult} {h : Word} (some : w.hi = some h)
    (dst : w.dst < 255) : (x.land w).wreg w.wu (w.dst + 1) = h := by
  rw [Tile.land_eq, Tile.landTap_wreg, Tile.landHi, some, Tile.wreg_setWreg (Tile.zeroed_setWreg regs _ _ _),
    if_pos (by omega)]

theorem Tile.landHi_tap (x : Tile) (w : WuResult) : (x.landHi w).tap = x.tap := by
  unfold Tile.landHi
  split <;> rfl

/-- A result loads its tap when it asks for that, and no tap otherwise. -/
theorem Tile.land_tap {x : Tile} (taps : zeroed x.tap) (w : WuResult) :
    (w.tap = true → (x.land w).tapOf w.wu = join32 w.tapHi w.lo) ∧ (w.tap = false → (x.land w).tap = x.tap) := by
  have hi := (x.setWreg w.wu w.dst w.lo).landHi_tap w
  rw [Tile.land_eq, Tile.landTap]
  refine ⟨fun on => ?_, fun off => ?_⟩
  · rw [if_pos on, Tile.tapOf, hi]
    exact (Table.get_set taps).trans (if_pos rfl)
  · rw [if_neg (by simp [off])]
    exact hi

/-- The results still to come after step n. -/
def Tile.pendingAfter (x : Tile) (n : Nat) : Tile := { x with results := x.results.filter fun w => n < w.due }

theorem Tile.landDue_eq (x : Tile) (n : Nat) :
    x.landDue n = (x.results.filter fun w => w.due ≤ n).foldl Tile.land (x.pendingAfter n) := rfl

/-- A tile whose one result is due. -/
theorem Tile.landDue_one {x : Tile} {w : WuResult} (one : x.results = [w]) {n : Nat} (due : w.due ≤ n) :
    x.landDue n = (x.pendingAfter n).land w := by
  rw [Tile.landDue_eq, one, List.filter_cons_of_pos (by simpa using due), List.filter_nil, List.foldl_cons,
    List.foldl_nil]

/-- The results due by step n become visible. -/
theorem Tile.landDue_landed {x : Tile} (canon : x.Canonical) (n : Nat) :
    Landed (x.results.filter fun w => w.due ≤ n) (x.pendingAfter n) (x.landDue n) := by
  obtain ⟨-, -, -, -, -, regs, taps, -⟩ := canon
  exact Tile.foldl_land_landed regs taps

/-- Settles O11: the due results land one after another, each on its own registers and tap. -/
theorem dueResultsBecomeVisible : Obligations.DueResultsBecomeVisible := by
  intro t s w ht st x
  have canon : x.Canonical := w.2.2.1 t
  have ⟨_, _, _, _, _, regs, taps, _⟩ := canon
  have landed := Tile.landDue_landed canon x.step
  have mine : (s.modTile t fun x => x.landDue x.step).tile t = x.landDue x.step := by
    rw [State.modTile, State.tile_setTile w.2.1, if_pos rfl]
  refine ⟨s.modTile t fun x => x.landDue x.step, (onTile_of ht _).trans (whenDue_of st _ _),
    s.setTile_only t _, fun k other => ?_, ?_⟩
  · rw [State.modTile, State.tile_setTile w.2.1, if_neg other]
  rw [mine]
  refine ⟨?_, ?_, ?_, ?_, fun u k hu hk keep => landed.other u k fun r hr => ?_, fun r one due => ?_⟩
  · rw [landed.rest]; rfl
  · rw [landed.rest]; rfl
  · rw [landed.rest]; rfl
  · rw [landed.rest]; rfl
  · obtain ⟨mem, due⟩ := List.mem_filter.mp hr
    obtain ⟨unit, dst, apart⟩ := keep r mem
    have apart := apart (of_decide_eq_true due)
    rintro (same | ⟨some, same⟩)
    · exact (apart (by omega)).1 (by omega)
    · exact (apart (by omega)).2 some (by omega)
  · rw [Tile.landDue_one one due]
    have tap := Tile.land_tap (x := x.pendingAfter x.step) taps r
    have regs : zeroed (x.pendingAfter x.step).wuReg := regs
    refine ⟨fun none => Tile.land_lo regs r (.inl none), fun h some dst => ⟨Tile.land_lo regs r (.inr dst),
      Tile.land_hi regs some dst⟩, fun on => ?_, tap.2⟩
    rw [tap.1 on]
    exact ⟨lo32_join32 _ _, hi32_join32 _ _⟩

end Sys2Proof.Machine
end

section
/-! ## Pantry operations issued (R97, R102) -/

namespace Sys2Proof.Machine

section
variable {t u : Nat} {f : WuFields} {s : State} {c : Instr}

/-- A command that issues one pantry access and reports errors. -/
theorem does_accesses (w : s.Canonical) (ht : t < 136) (hu : u < 16) (st : s.stepping t = true) {g : Tile → TileRes}
    {a : PanAccess} {errs : List StepErr} (run : exec c s = wuRow t u g s)
    (issued : (g (s.tile t)).1 = { s.tile t with accesses := (s.tile t).accesses ++ [a] })
    (quiet : errs = [] → (g (s.tile t)).2 = []) : Does c s (fun r => Accesses t s r a errs) := by
  obtain ⟨mine, others, only, silent⟩ := State.setTile_stepErrs_frame w.2.1 t (g (s.tile t)).1 (g (s.tile t)).2
  exact ⟨_, run.trans (wuRow_runs ht hu st g), mine.trans issued, others, only, fun none => silent (quiet none)⟩

/-- The address of an access is the sum of input a and IMM in 20 bits. -/
theorem pantryAddr_ofNat (a imm : Word) :
    BitVec.ofNat 20 (pantryAddr a imm) = BitVec.ofNat 20 (a.toNat + imm.toNat) :=
  BitVec.eq_of_toNat_eq (by rw [pantryAddr, BitVec.toNat_ofNat, BitVec.toNat_ofNat, Nat.mod_mod])

theorem Tile.access_eq (x : Tile) (u : Nat) (f : WuFields) (op : PanOp) (a b c : Word) : x.access u f op a b c =
    { x with accesses := x.accesses ++ [⟨u, x.step, op, BitVec.ofNat 20 (a.toNat + f.imm.toNat), storeSize f, b, c,
      f.dst.toNat, f.tap⟩] } := by
  rw [Tile.access, pantryAddr_ofNat]

/-- The errors of a store's encoding (R97, R102). -/
theorem wuStore_errs (op : PanOp) (x : Tile) (u : Nat) (f : WuFields) : (wuStore op x u f).2 =
    (x.inA u f).2 ++ (x.inB u f true).2 ++ tapIllegal x u f ++ ccIllegal x u f ++
      if f.p1.toNat % 4 = 3 then [x.wuIllegal u] else [] := by
  rw [wuStore, bits_low f.p1 1]
  rfl

/-- A word unit NOP records its errors and leaves every tile as it is. -/
theorem wuNop_runs (w : s.Canonical) (ht : t < 136) (hu : u < 16) (st : s.stepping t = true) :
    exec (.wuNop t u f) s = .next (s.stepErrs t (wuNop (s.tile t) u f).2) := by
  have run := wuRow_runs ht hu st fun x => wuNop x u f
  rwa [show (wuNop (s.tile t) u f).1 = s.tile t from rfl, State.setTile_tile w.2.1] at run

theorem wuNop_quiet {x : Tile} (tap : f.tap = false) (am : f.am ≠ 3) (cc : f.cc.toNat < 6) :
    (wuNop x u f).2 = [] := by
  simp only [wuNop, tapIllegal, amIllegal, ccIllegal, tap, am, Nat.not_le.mpr cc, if_false, Bool.false_eq_true,
    List.append_nil]

/-- The four pantry operations and NOP as issued. -/
theorem pantryOps_issue (w : s.Canonical) (ht : t < 136) (hu : u < 16) (st : s.stepping t = true) :
    let x := s.tile t
    let a := x.inA u f
    let b := x.inB u f true
    let c := x.inC u f
    let e : BitVec 20 := BitVec.ofNat 20 (a.1.toNat + f.imm.toNat)
    let size := storeSize f
    let errs := a.2 ++ b.2 ++ tapIllegal x u f ++ ccIllegal x u f ++ if f.p1.toNat % 4 = 3 then [x.wuIllegal u] else []
    Does (.ld t u f) s (fun r => Accesses t s r ⟨u, x.step, .ld, e, size, 0, 0, f.dst.toNat, f.tap⟩
      (a.2 ++ bmIllegal x u f ++ ccIllegal x u f)) ∧
    Does (.ldh t u f) s (fun r => Accesses t s r ⟨u, x.step, .ldh, e, size, 0, c.1, f.dst.toNat, f.tap⟩
      (a.2 ++ c.2 ++ bmIllegal x u f ++ ccIllegal x u f)) ∧
    Does (.st t u f) s (fun r => Accesses t s r ⟨u, x.step, .st, e, size, b.1, 0, f.dst.toNat, f.tap⟩ errs) ∧
    Does (.sth t u f) s (fun r => Accesses t s r ⟨u, x.step, .sth, e, size, b.1, 0, f.dst.toNat, f.tap⟩ errs) := by
  intro x a b c e size errs
  exact ⟨does_accesses w ht hu st (g := fun x => wuLd x u f) rfl (Tile.access_eq ..) id,
    does_accesses w ht hu st (g := fun x => wuLdh x u f) rfl (Tile.access_eq ..) id,
    does_accesses w ht hu st (g := fun x => wuSt x u f) rfl (Tile.access_eq ..) (wuStore_errs .st x u f).trans,
    does_accesses w ht hu st (g := fun x => wuSth x u f) rfl (Tile.access_eq ..) (wuStore_errs .sth x u f).trans⟩

end

end Sys2Proof.Machine
end

section
/-! ## Words and lanes of the pantry (R102) -/

namespace Sys2Proof.Machine

/-- Bit i of the number that bytes spell is bit i mod 8 of byte i / 8. -/
theorem testBit_leNat : ∀ (l : List Byte) (i : Nat), (leNat l).testBit i = (l.getD (i / 8) 0).getLsbD (i % 8)
  | [], i => by simp [leNat]
  | b :: rest, i => by
    have split : leNat (b :: rest) = 2 ^ 8 * leNat rest + b.toNat := Nat.add_comm _ _
    rw [split, Nat.testBit_two_pow_mul_add _ b.isLt]
    by_cases low : i < 8
    · rw [if_pos low, Nat.div_eq_of_lt low, Nat.mod_eq_of_lt low]
      rfl
    · obtain ⟨j, rfl⟩ := Nat.exists_eq_add_of_le' (Nat.le_of_not_lt low)
      rw [if_neg low, Nat.add_sub_cancel, testBit_leNat rest j, Nat.add_div_right j (by decide), Nat.add_mod_right]
      rfl

/-- Bit i of a pantry word lies in byte i / 8 of the word. -/
theorem Tile.panWord_bit (x : Tile) (w : Nat) {i : Nat} (hi : i < 32) :
    (x.panWord w).getLsbD i = (x.pantry.read (4 * w + i / 8)).getLsbD (i % 8) := by
  rw [Tile.panWord, BitVec.getLsbD_ofNat, decide_eq_true hi, Bool.true_and, Memory.readNat, testBit_leNat,
    Memory.readBytes_getD _ _ _ _ (by omega)]

/-- A pantry word rotated right by k bytes. -/
theorem Tile.panWord_rotated (x : Tile) (w : Nat) {k i : Nat} (hk : k < 4) (hi : i < 32) :
    ((x.panWord w).rotateRight (8 * k)).getLsbD i =
      (x.pantry.read (4 * w + (i / 8 + k) % 4)).getLsbD (i % 8) := by
  rw [BitVec.getLsbD_rotateRight, Bool.cond_decide, Nat.mod_eq_of_lt (by omega : 8 * k < 32)]
  by_cases low : i < 32 - 8 * k
  · rw [if_pos low, Tile.panWord_bit _ _ (by omega), show (8 * k + i) / 8 = (i / 8 + k) % 4 by omega,
      show (8 * k + i) % 8 = i % 8 by omega]
  · rw [if_neg low, decide_eq_true hi, Bool.true_and, Tile.panWord_bit _ _ (by omega),
      show (i - (32 - 8 * k)) / 8 = (i / 8 + k) % 4 by omega, show (i - (32 - 8 * k)) % 8 = i % 8 by omega]

/-- Byte lane j of a word. -/
def laneOf (v : Word) (j : Nat) : Byte := v.extractLsb' (8 * j) 8

/-- Lane j of data rotated left by k bytes is lane j - k of the data, counted modulo 4. -/
theorem laneOf_rotateLeft (v : Word) {k j : Nat} (hk : k < 4) (hj : j < 4) :
    laneOf (v.rotateLeft (8 * k)) j = laneOf v (if k ≤ j then j - k else j + 4 - k) := by
  refine BitVec.eq_of_getLsbD_eq fun i hi => ?_
  simp only [laneOf, BitVec.getLsbD_extractLsb', hi, decide_true, Bool.true_and]
  rw [BitVec.getLsbD_rotateLeft, Bool.cond_decide, Nat.mod_eq_of_lt (by omega : 8 * k < 32)]
  by_cases high : k ≤ j
  · rw [if_pos high, if_neg (by omega : ¬ 8 * j + i < 8 * k), decide_eq_true (by omega : 8 * j + i < 32), Bool.true_and]
    congr 1
    omega
  · rw [if_neg high, if_pos (by omega : 8 * j + i < 8 * k)]
    congr 1
    omega

/-- The mask of the lanes from 4 - k on. -/
theorem highLanes_bit {k i : Nat} (hk : k ≤ 4) (hi : i < 32) :
    (BitVec.ofNat 32 (2 ^ 32 - 2 ^ (8 * (4 - k)))).getLsbD i = decide (8 * (4 - k) ≤ i) := by
  have block : 2 ^ 32 - 2 ^ (8 * (4 - k)) = (2 ^ (8 * k) - 1) * 2 ^ (8 * (4 - k)) := by
    rw [Nat.sub_mul, ← Nat.pow_add, Nat.one_mul, show 8 * k + 8 * (4 - k) = 32 by omega]
  rw [block, BitVec.getLsbD_ofNat, Nat.testBit_mul_two_pow, Nat.testBit_two_pow_sub_one, decide_eq_true hi,
    Bool.true_and]
  by_cases high : 8 * (4 - k) ≤ i
  · simp only [high, decide_true, Bool.true_and, decide_eq_true_eq]
    omega
  · simp only [high, decide_false, Bool.false_and]

/-! ## Bytes put one by one -/

/-- Bytes written one after another, each at its own address. -/
def Memory.puts (m : Memory) (l : List (Nat × Byte)) : Memory := l.foldl (fun m p => m.write p.1 p.2) m

theorem Memory.wf_puts : ∀ {l : List (Nat × Byte)} {m : Memory}, m.wf = true → (m.puts l).wf = true
  | [], _, w => w
  | p :: l, _, w => Memory.wf_puts (l := l) (Memory.wf_write (a := p.1) (v := p.2) w)

/-- A byte that nothing is put at keeps its value. -/
theorem Memory.read_puts_other {a : Nat} : ∀ {l : List (Nat × Byte)} {m : Memory}, m.wf = true →
    a ∉ l.map Prod.fst → (m.puts l).read a = m.read a
  | [], _, _, _ => rfl
  | p :: l, m, w, free => by
    rw [List.map_cons, List.mem_cons, not_or] at free
    rw [Memory.puts, List.foldl_cons]
    exact (Memory.read_puts_other (Memory.wf_write w) free.2).trans
      ((Memory.read_write w).trans (if_neg free.1))

/-- Bytes put at addresses that rise one by one. -/
theorem Memory.read_puts_range' (base : Nat) (f : Nat → Byte) {a : Nat} :
    ∀ {n lo : Nat} {m : Memory}, m.wf = true →
      (m.puts ((List.range' lo n).map fun j => (base + j, f j))).read a =
        if base + lo ≤ a ∧ a < base + lo + n then f (a - base) else m.read a
  | 0, lo, m, _ => by rw [if_neg (by omega)]; rfl
  | n + 1, lo, m, w => by
    rw [List.range'_succ, List.map_cons, Memory.puts, List.foldl_cons]
    refine (Memory.read_puts_range' base f (n := n) (lo := lo + 1) (Memory.wf_write w)).trans ?_
    rw [Memory.read_write w]
    by_cases first : a = base + lo
    · rw [if_neg (by omega), if_pos first, if_pos (by omega), first, Nat.add_sub_cancel_left]
    · rw [if_neg first]
      exact if_congr (by omega) rfl rfl

end Sys2Proof.Machine
end

section
/-! ## Accesses taking place (R103, R104) -/

namespace Sys2Proof.Machine

/-- The accesses of a tile that are due by step n. -/
def Tile.dueBy (x : Tile) (n : Nat) : List PanAccess := x.accesses.filter fun a => a.step + 2 ≤ n

/-- An access whose bank the tile owns, or that touches no word. -/
def PanAccess.allowed (e : TileEnv) (a : PanAccess) : Bool :=
  match a.word with
  | none => true
  | some w => e.owned (wordBank w)

/-- An access that reads or writes a word. -/
def PanAccess.made (e : TileEnv) (a : PanAccess) : Bool := a.word.isSome && a.allowed e

/-- The value that a load gives, whether it is allowed or refused. -/
def Tile.given (e : TileEnv) (x : Tile) (a : PanAccess) : Word :=
  if a.allowed e then x.loadValue a else if a.op = .ldh then a.c else 0

/-- The result of a load, visible four steps after its issue. -/
def Tile.loadResult (e : TileEnv) (x : Tile) (a : PanAccess) : WuResult :=
  ⟨a.wu, a.step + 4, a.dst, x.given e a, none, 0, a.tap⟩

/-- The bytes that the accesses of l store, in rising order of their units. -/
def panPuts (e : TileEnv) (l : List PanAccess) : List (Nat × Byte) :=
  (List.range 16).flatMap fun u => ((l.filter (PanAccess.made e)).filter fun a => a.wu = u).flatMap PanAccess.stores

/-- The errors of the accesses of l. -/
def ownerErrs (e : TileEnv) (l : List PanAccess) : List StepErr :=
  l.filterMap fun a =>
    match a.word with
    | some w => if a.allowed e then none else some (a.ownerErr w)
    | none => none

/-- Bytes put into the pantry change it and the dirty bits of its lines, and nothing else. -/
theorem Tile.foldl_panPut : ∀ (l : List (Nat × Byte)) (x : Tile), ∃ d0 d1,
    l.foldl (fun x p => x.panPut p.1 p.2) x = { x with pantry := x.pantry.puts l, dirty0 := d0, dirty1 := d1 }
  | [], x => ⟨x.dirty0, x.dirty1, rfl⟩
  | p :: l, x => by
    obtain ⟨d0, d1, rest⟩ := Tile.foldl_panPut l (x.panPut p.1 p.2)
    exact ⟨d0, d1, rest⟩

/-- What the accesses due by step n leave of the tile. -/
theorem Tile.pantryStep_tile (e : TileEnv) (x : Tile) (n : Nat) : ∃ d0 d1 en, (x.pantryStep e n).x = { x with
    accesses := x.accesses.filter fun a => n < a.step + 2
    pantry := x.pantry.puts (panPuts e (x.dueBy n))
    results := x.results ++ ((x.dueBy n).filter PanAccess.isLoad).map (x.loadResult e)
    dirty0 := d0, dirty1 := d1, energy := en } := by
  obtain ⟨d0, d1, put⟩ := Tile.foldl_panPut (panPuts e (x.dueBy n))
    { x with accesses := x.accesses.filter fun a => n < a.step + 2 }
  refine ⟨d0, d1, (x.pantryStep e n).x.energy, ?_⟩
  exact congrArg (fun y : Tile => { y with
    results := y.results ++ ((x.dueBy n).filter PanAccess.isLoad).map (x.loadResult e)
    energy := (x.pantryStep e n).x.energy }) put

theorem Tile.pantryStep_errs (e : TileEnv) (x : Tile) (n : Nat) :
    (x.pantryStep e n).errs = ownerErrs e (x.dueBy n) := rfl

theorem Tile.pantryStep_watches (e : TileEnv) (x : Tile) (n : Nat) :
    (x.pantryStep e n).watches = ((x.dueBy n).filter (PanAccess.made e)).flatMap PanAccess.watch := rfl

/-- A byte that the accesses put is one that an access of theirs stores. -/
theorem mem_panPuts {e : TileEnv} {l : List PanAccess} {q : Nat × Byte} (h : q ∈ panPuts e l) :
    ∃ a ∈ l, a.made e = true ∧ q ∈ a.stores := by
  simp only [panPuts, List.mem_flatMap, List.mem_filter] at h
  obtain ⟨-, -, a, ⟨⟨mem, made⟩, -⟩, stored⟩ := h
  exact ⟨a, mem, made, stored⟩

/-- A tile that owns no bank stores nothing. -/
theorem panPuts_unowned {e : TileEnv} (l : List PanAccess) (unowned : ∀ k, e.owned k = false) : panPuts e l = [] := by
  refine List.eq_nil_iff_forall_not_mem.mpr fun q hq => ?_
  obtain ⟨a, -, made, -⟩ := mem_panPuts hq
  obtain ⟨some, allowed⟩ := Bool.and_eq_true_iff.mp made
  obtain ⟨w, word⟩ := Option.isSome_iff_exists.mp some
  have refused : a.allowed e = false := by
    simp only [PanAccess.allowed, word]
    exact unowned _
  exact Bool.false_ne_true (refused.symm.trans allowed)

/-- A list that only index k of a range contributes. -/
theorem flatMap_range_eq {α : Type} (k : Nat) (l : List α) : ∀ n, k < n →
    ((List.range n).flatMap fun u => if k = u then l else []) = l := by
  intro n
  induction n with
  | zero => exact fun h => absurd h (Nat.not_lt_zero k)
  | succ n ih =>
    intro h
    rw [List.range_succ, List.flatMap_append, List.flatMap_cons, List.flatMap_nil, List.append_nil]
    by_cases last : k = n
    · subst last
      rw [if_pos rfl, List.flatMap_eq_nil_iff.mpr fun u hu => if_neg (List.mem_range.mp hu).ne', List.nil_append]
    · rw [if_neg last, List.append_nil, ih (by omega)]

/-- One due access puts its own bytes, when it is made. -/
theorem panPuts_one {e : TileEnv} {p : PanAccess} (unit : p.wu < 16) :
    panPuts e [p] = if p.made e then p.stores else [] := by
  by_cases made : p.made e = true
  · rw [if_pos made, ← flatMap_range_eq p.wu p.stores 16 unit, panPuts, List.filter_cons_of_pos made]
    congr 1
    funext u
    by_cases own : p.wu = u <;> simp [own]
  · rw [if_neg made, panPuts, List.filter_cons_of_neg made]
    simp

/-! ### What a store writes -/

/-- The bytes of a store lie in one word, in lanes that follow each other. -/
theorem PanAccess.stores_lanes (a : PanAccess) : a.stores = [] ∨ ∃ w lo n, a.word = some w ∧ a.stores =
    (List.range' lo n).map fun j => (4 * w + j, laneOf (a.data.rotateLeft (8 * (a.addr.toNat % 4))) j) := by
  unfold PanAccess.stores
  split
  · next w _ word => exact .inr ⟨w, _, _, word, rfl⟩
  · next w _ word => exact .inr ⟨w, 0, _, word, by rw [← List.range_eq_range']; rfl⟩
  · exact .inl rfl

/-- Every byte that one store puts is stored. -/
theorem Memory.read_puts_stores {m : Memory} (w : m.wf = true) (a : PanAccess) {q : Nat × Byte} (h : q ∈ a.stores) :
    (m.puts a.stores).read q.1 = q.2 := by
  rcases a.stores_lanes with none | ⟨word, lo, n, -, lanes⟩
  · simp [none] at h
  · rw [lanes] at h ⊢
    obtain ⟨j, hj, rfl⟩ := List.mem_map.mp h
    rw [List.mem_range'_1] at hj
    rw [Memory.read_puts_range' _ _ w, if_pos (by omega)]
    simp only [Nat.add_sub_cancel_left]

/-! ### PANTRY_ACCESS -/

/-- What the hit of a comparator changes. -/
theorem State.acmpHit_only (s : State) (j : Nat) (a : Seen) :
    Only [.regs, .run, .prf, .con, .host] s (s.acmpHit j a) := by
  have reg (s : State) (addr : Nat) (v : Word) : Only [.regs, .run, .prf, .con, .host] s (s.setReg addr v) :=
    (s.setReg_only addr v).mono (by simp)
  have halt (s : State) (b : Bool) : Only [.regs, .run, .prf, .con, .host] s (if b then s.haltRequest 4 else s) := by
    split
    · exact (s.haltRequest_only 4).mono (by simp)
    · exact Only.refl _ s
  have cause (s : State) (b : Bool) : Only [.regs, .run, .prf, .con, .host] s (if b then s.cause runPage 3 else s) := by
    split
    · exact (s.raise_only _ _).mono (by simp)
    · exact Only.refl _ s
  unfold State.acmpHit
  extract_lets c lo counted recorded halted
  have count : Only [.regs, .run, .prf, .con, .host] s counted := reg _ _ _
  have record : Only [.regs, .run, .prf, .con, .host] counted recorded := by
    show Only _ _ (if _ then _ else _)
    split
    · exact Only.refl _ _
    · exact ((reg _ _ _).trans ((reg _ _ _).trans (reg _ _ _))).trans ((reg _ _ _).trans (reg _ _ _))
  exact ((count.trans record).trans (halt _ _)).trans (cause _ _)

/-- A watched access changes registers, run control, the requests that a pause keeps, the console and what is
sent. -/
theorem State.watch_only (s : State) (a : Seen) : Only [.regs, .run, .prf, .con, .host] s (s.watch a) := by
  unfold State.watch
  split
  · exact Only.refl _ s
  · refine Only.foldl (fun s j => ?_) _ s
    split
    · exact s.acmpHit_only j a
    · exact Only.refl _ s

theorem State.watchAll_only (s : State) (t : Nat) (l : List Watch) :
    Only [.regs, .run, .prf, .con, .host] s (s.watchAll t l) := Only.foldl (fun s _ => s.watch_only _) l s

section
variable {t : Nat} {s : State}

/-- The tile after the accesses due in its current step. -/
def State.pantryRes (s : State) (t : Nat) : PanRes := (s.tile t).pantryStep (s.env t) (s.tile t).step

/-- The state after the accesses due in the current step of tile t. -/
def State.pantryDone (s : State) (t : Nat) : State :=
  (((s.setTile t (s.pantryRes t).x).countReg .tilDpStall 0xFFFFFFFF (s.pantryRes t).stall t).watchAll t
    (s.pantryRes t).watches).stepErrs t (s.pantryRes t).errs

theorem execPantryAccess_runs (ht : t < 136) (st : s.stepping t = true) :
    exec (.pantryAccess t) s = .next (s.pantryDone t) := (onTile_of ht _).trans (whenDue_of st _ _)

theorem State.pantryDone_tiles (s : State) (t : Nat) : (s.pantryDone t).tiles = (s.setTile t (s.pantryRes t).x).tiles :=
  (State.stepErrs_tiles _ _ _).trans ((State.watchAll_only _ _ _).2 .tiles (by simp))

theorem State.pantryDone_tile (w : s.TilesWf) : (s.pantryDone t).tile t = (s.pantryRes t).x := by
  rw [State.tile_congr (s.pantryDone_tiles t), State.tile_setTile w, if_pos rfl]

theorem State.pantryDone_others (w : s.TilesWf) : TilesBut t s (s.pantryDone t) := fun k other => by
  rw [State.tile_congr (s.pantryDone_tiles t), State.tile_setTile w, if_neg other]

/-- The parts of the tile that the due accesses change. -/
theorem State.pantryDone_spec (w : s.TilesWf) : ((s.pantryDone t).tile t).accesses =
      (s.tile t).accesses.filter (fun a => (s.tile t).step < a.step + 2) ∧
    ((s.pantryDone t).tile t).results = (s.tile t).results ++
      (((s.tile t).dueBy (s.tile t).step).filter PanAccess.isLoad).map ((s.tile t).loadResult (s.env t)) ∧
    ((s.pantryDone t).tile t).pantry =
      (s.tile t).pantry.puts (panPuts (s.env t) ((s.tile t).dueBy (s.tile t).step)) := by
  obtain ⟨d0, d1, en, done⟩ := Tile.pantryStep_tile (s.env t) (s.tile t) (s.tile t).step
  rw [State.pantryDone_tile w, State.pantryRes, done]
  exact ⟨rfl, rfl, rfl⟩

/-- TIL_DP_STALL is no error register of its page. -/
theorem dpStall_ne (t o : Nat) (h : o = 0x18 ∨ o = 0x1C) : tilePage t 4 + o ∉ [Reg.addr .tilDpStall t 0] := by
  simp only [Reg.addr, Reg.row, tilePage, List.mem_singleton]
  omega

/-- A refused access alone is recorded as PANTRY_OWNER. -/
theorem State.pantryDone_refused (w : Table.wf regInit s.regs = true) {p : PanAccess} {word : Nat}
    (errs : (s.pantryRes t).errs = [p.ownerErr word]) (watches : (s.pantryRes t).watches = []) :
    0 < bits ((s.pantryDone t).reg (tilePage t 4 + 0x18)) 31 16 ∧
    (bits (s.reg (tilePage t 4 + 0x18)) 31 16 = 0 → (s.pantryDone t).reg (tilePage t 4 + 0x18) = 0x11023 ∧
      (s.pantryDone t).reg (tilePage t 4 + 0x1C) =
        BitVec.ofNat 32 (p.step * 2 ^ 22 + p.wu * 2 ^ 18 + word / 2 ^ 14 * 2 ^ 14 + word % 2 ^ 14)) := by
  have wc : Table.wf regInit ((s.setTile t (s.pantryRes t).x).countReg .tilDpStall 0xFFFFFFFF
    (s.pantryRes t).stall t).regs = true := State.wf_setReg (s := s.setTile t _) w
  have kept := State.countReg_regsBut (s := s.setTile t (s.pantryRes t).x) w .tilDpStall 0xFFFFFFFF
    (s.pantryRes t).stall t 0 _ (dpStall_ne t 0x18 (.inl rfl))
  unfold State.pantryDone
  rw [errs, watches, State.stepErrs_one, State.haltRequest_reg, State.haltRequest_reg]
  exact ⟨State.err_count_pos wc _ _ (show 0x1023 < 2 ^ 16 by decide), fun first =>
    State.err_first wc _ _ ((congrArg (bits · 31 16) kept).trans first)⟩

end

end Sys2Proof.Machine
end

section
/-! ## One due access (R102 to R104) -/

namespace Sys2Proof.Machine

section
variable {p : PanAccess}

/-! ### The word that an access touches -/

theorem PanAccess.word_near (near : p.op = .ld ∨ p.op = .st) : p.word = some (p.addr.toNat / 4) := by
  rcases near with op | op <;> simp only [PanAccess.word, op]

theorem PanAccess.word_ldh (op : p.op = .ldh) : p.word =
    if p.addr.toNat % 4 = 0 then none else some ((p.addr.toNat / 4 + 1) % 2 ^ 18) := by
  simp only [PanAccess.word, op]

theorem PanAccess.word_sth (op : p.op = .sth) : p.word =
    if 4 < p.addr.toNat % 4 + p.size then some ((p.addr.toNat / 4 + 1) % 2 ^ 18) else none := by
  simp only [PanAccess.word, op]

theorem PanAccess.isLoad_iff : p.isLoad = true ↔ p.op = .ld ∨ p.op = .ldh := by
  simp [PanAccess.isLoad]

theorem PanAccess.isLoad_store (op : p.op = .st ∨ p.op = .sth) : p.isLoad = false := by
  rcases op with op | op <;> simp [PanAccess.isLoad, op]

/-- A load stores nothing. -/
theorem PanAccess.stores_load (load : p.isLoad = true) : p.stores = [] := by
  rcases PanAccess.isLoad_iff.mp load with op | op <;> simp only [PanAccess.stores, op]

theorem PanAccess.allowed_some {e : TileEnv} {w : Nat} (word : p.word = some w) :
    p.allowed e = e.owned (wordBank w) := by
  simp only [PanAccess.allowed, word]

theorem PanAccess.allowed_none {e : TileEnv} (word : p.word = none) : p.allowed e = true := by
  simp only [PanAccess.allowed, word]

theorem PanAccess.made_some {e : TileEnv} {w : Nat} (word : p.word = some w) : p.made e = e.owned (wordBank w) := by
  rw [PanAccess.made, PanAccess.allowed_some word, word, Option.isSome_some, Bool.true_and]

theorem PanAccess.made_none {e : TileEnv} (word : p.word = none) : p.made e = false := by
  rw [PanAccess.made, word, Option.isSome_none, Bool.false_and]

/-! ### The value of a load -/

theorem Tile.loadValue_ld (x : Tile) (op : p.op = .ld) :
    x.loadValue p = (x.panWord (p.addr.toNat / 4)).rotateRight (8 * (p.addr.toNat % 4)) := by
  simp only [Tile.loadValue, PanAccess.word_near (.inl op), op]

theorem Tile.loadValue_ldh_aligned (x : Tile) (op : p.op = .ldh) (k : p.addr.toNat % 4 = 0) : x.loadValue p = p.c := by
  simp only [Tile.loadValue, PanAccess.word_ldh op, op, k, if_true]

/-- A load of a word whose bank the tile owns, or of no word. -/
theorem Tile.given_allowed {e : TileEnv} (x : Tile) (allowed : p.allowed e = true) : x.given e p = x.loadValue p :=
  if_pos allowed

/-- A refused LD gives 0. -/
theorem Tile.given_refused_ld {e : TileEnv} (x : Tile) (op : p.op = .ld) (refused : p.allowed e = false) :
    x.given e p = 0 := by
  simp [Tile.given, refused, op]

/-- A refused LDH gives its input c. -/
theorem Tile.given_refused_ldh {e : TileEnv} (x : Tile) (op : p.op = .ldh) (refused : p.allowed e = false) :
    x.given e p = p.c := by
  simp [Tile.given, refused, op]

/-- LDH takes the lanes from 4 - k on of the next word, rotated, and the lanes below of its input c. -/
theorem Tile.loadValue_ldh_bit (x : Tile) (op : p.op = .ldh) (k : 0 < p.addr.toNat % 4) {i : Nat} (hi : i < 32) :
    (x.loadValue p).getLsbD i = if i < 8 * (4 - p.addr.toNat % 4) then p.c.getLsbD i else
      (x.pantry.read (4 * ((p.addr.toNat / 4 + 1) % 2 ^ 18) + (i / 8 + p.addr.toNat % 4) % 4)).getLsbD (i % 8) := by
  have lt : p.addr.toNat % 4 < 4 := Nat.mod_lt _ (by decide)
  simp only [Tile.loadValue, PanAccess.word_ldh op, op, k.ne', if_false, BitVec.getLsbD_or, BitVec.getLsbD_and,
    BitVec.getLsbD_not, hi, highLanes_bit lt.le hi, x.panWord_rotated _ lt hi, decide_true, Bool.true_and]
  by_cases low : i < 8 * (4 - p.addr.toNat % 4)
  · rw [if_pos low, decide_eq_false (Nat.not_le.mpr low), Bool.not_false, Bool.and_true, Bool.and_false, Bool.or_false]
  · rw [if_neg low, decide_eq_true (Nat.not_lt.mp low), Bool.not_true, Bool.and_false, Bool.and_true, Bool.false_or]

/-! ### The bytes of a store -/

/-- ST stores the lanes from k on that its size covers. -/
theorem Memory.read_puts_st {m : Memory} (w : m.wf = true) (op : p.op = .st) :
    (∀ j < 4, (m.puts p.stores).read (4 * (p.addr.toNat / 4) + j) =
      if p.addr.toNat % 4 ≤ j ∧ j < p.addr.toNat % 4 + p.size then laneOf p.data (j - p.addr.toNat % 4)
      else m.read (4 * (p.addr.toNat / 4) + j)) ∧
    ∀ a : Nat, a / 4 ≠ p.addr.toNat / 4 → (m.puts p.stores).read a = m.read a := by
  have lt : p.addr.toNat % 4 < 4 := Nat.mod_lt _ (by decide)
  have lanes : p.stores = (List.range' (p.addr.toNat % 4) (min 4 (p.addr.toNat % 4 + p.size) - p.addr.toNat % 4)).map
      fun j => (4 * (p.addr.toNat / 4) + j, laneOf (p.data.rotateLeft (8 * (p.addr.toNat % 4))) j) := by
    simp only [PanAccess.stores, PanAccess.word_near (.inr op), op, laneOf]
  refine ⟨fun j hj => ?_, fun a other => ?_⟩
  · rw [lanes, Memory.read_puts_range' _ _ w, Nat.add_sub_cancel_left, laneOf_rotateLeft _ lt hj]
    by_cases inside : p.addr.toNat % 4 ≤ j ∧ j < p.addr.toNat % 4 + p.size
    · rw [if_pos (by omega), if_pos inside, if_pos inside.1]
    · rw [if_neg (by omega), if_neg inside]
  · rw [lanes, Memory.read_puts_range' _ _ w, if_neg (by omega)]

/-- STH stores in the next word the lanes that do not fit into the first. -/
theorem Memory.read_puts_sth {m : Memory} (w : m.wf = true) (op : p.op = .sth) (size : p.size ≤ 4)
    (beyond : 4 < p.addr.toNat % 4 + p.size) :
    (∀ j < 4, (m.puts p.stores).read (4 * ((p.addr.toNat / 4 + 1) % 2 ^ 18) + j) =
      if j + 4 < p.addr.toNat % 4 + p.size then laneOf p.data (j + 4 - p.addr.toNat % 4)
      else m.read (4 * ((p.addr.toNat / 4 + 1) % 2 ^ 18) + j)) ∧
    ∀ a : Nat, a / 4 ≠ (p.addr.toNat / 4 + 1) % 2 ^ 18 → (m.puts p.stores).read a = m.read a := by
  have lt : p.addr.toNat % 4 < 4 := Nat.mod_lt _ (by decide)
  have lanes : p.stores = (List.range' 0 (p.addr.toNat % 4 + p.size - 4)).map fun j =>
      (4 * ((p.addr.toNat / 4 + 1) % 2 ^ 18) + j, laneOf (p.data.rotateLeft (8 * (p.addr.toNat % 4))) j) := by
    simp only [PanAccess.stores, PanAccess.word_sth op, op, beyond, if_true, List.range_eq_range', laneOf]
  refine ⟨fun j hj => ?_, fun a other => ?_⟩
  · rw [lanes, Memory.read_puts_range' _ _ w, Nat.add_sub_cancel_left, laneOf_rotateLeft _ lt hj]
    by_cases inside : j + 4 < p.addr.toNat % 4 + p.size
    · rw [if_pos (by omega), if_pos inside, if_neg (by omega)]
    · rw [if_neg (by omega), if_neg inside]
  · rw [lanes, Memory.read_puts_range' _ _ w, if_neg (by omega)]

end

/-! ### The state after it -/

section
variable {t : Nat} {p : PanAccess} {s : State}

/-- The one access of a tile is due. -/
structure OneDue (s : State) (t : Nat) (p : PanAccess) : Prop where
  one : (s.tile t).accesses = [p]
  due : p.step + 2 ≤ (s.tile t).step
  unit : p.wu < 16

theorem OneDue.dueBy (o : OneDue s t p) : (s.tile t).dueBy (s.tile t).step = [p] := by
  rw [Tile.dueBy, o.one]
  exact List.filter_cons_of_pos (decide_eq_true o.due)

/-- A due load gives its result and stores nothing. -/
theorem OneDue.load (o : OneDue s t p) (w : s.TilesWf) (load : p.isLoad = true) :
    ((s.pantryDone t).tile t).results = (s.tile t).results ++
      [⟨p.wu, p.step + 4, p.dst, (s.tile t).given (s.env t) p, none, 0, p.tap⟩] ∧
    ((s.pantryDone t).tile t).pantry = (s.tile t).pantry ∧ ((s.pantryDone t).tile t).accesses = [] := by
  obtain ⟨accesses, results, pantry⟩ := State.pantryDone_spec (t := t) w
  rw [accesses, results, pantry, o.dueBy, panPuts_one o.unit, PanAccess.stores_load load, ite_self, o.one]
  refine ⟨?_, rfl, List.filter_cons_of_neg (by simpa using o.due)⟩
  rw [List.filter_cons_of_pos load]
  rfl

/-- A due store gives no result; it stores its bytes when it is made, and nothing otherwise. -/
theorem OneDue.store (o : OneDue s t p) (w : s.TilesWf) (op : p.op = .st ∨ p.op = .sth) :
    ((s.pantryDone t).tile t).results = (s.tile t).results ∧
    (p.made (s.env t) = true → ((s.pantryDone t).tile t).pantry = (s.tile t).pantry.puts p.stores) ∧
    (p.made (s.env t) = false → ((s.pantryDone t).tile t).pantry = (s.tile t).pantry) := by
  obtain ⟨-, results, pantry⟩ := State.pantryDone_spec (t := t) w
  rw [results, pantry, o.dueBy, panPuts_one o.unit,
    List.filter_cons_of_neg (by rw [PanAccess.isLoad_store op]; decide)]
  refine ⟨List.append_nil _, fun made => by rw [if_pos made], fun refused => ?_⟩
  rw [refused]
  rfl

/-- A due access to a bank that the tile does not own is PANTRY_OWNER. -/
theorem OneDue.refused (o : OneDue s t p) (w : Table.wf regInit s.regs = true) {word : Nat} (touches : p.word = some word)
    (unowned : ¬ s.tileOwns t (word / 2 ^ 14) = true) :
    0 < bits ((s.pantryDone t).reg (tilePage t 4 + 0x18)) 31 16 ∧
    (bits (s.reg (tilePage t 4 + 0x18)) 31 16 = 0 → (s.pantryDone t).reg (tilePage t 4 + 0x18) = 0x11023 ∧
      (s.pantryDone t).reg (tilePage t 4 + 0x1C) =
        BitVec.ofNat 32 (p.step * 2 ^ 22 + p.wu * 2 ^ 18 + word / 2 ^ 14 * 2 ^ 14 + word % 2 ^ 14)) := by
  have bank : (s.env t).owned (wordBank word) = false := Bool.eq_false_iff.mpr unowned
  refine State.pantryDone_refused w ?_ ?_
  · rw [State.pantryRes, Tile.pantryStep_errs, o.dueBy]
    simp only [ownerErrs, List.filterMap_cons, touches, PanAccess.allowed_some touches, bank, Bool.false_eq_true,
      if_false, List.filterMap_nil]
  · rw [State.pantryRes, Tile.pantryStep_watches, o.dueBy,
      List.filter_cons_of_neg (by rw [PanAccess.made_some touches, bank]; decide)]
    rfl

end

section
variable {t : Nat} {s : State}

/-- The due accesses as a whole: bytes that none stores, a tile without banks, and one due store. -/
theorem dueAccesses_done (w : s.Canonical) (ht : t < 136) (st : s.stepping t = true) :
    let x := s.tile t
    let due := x.accesses.filter fun a => a.step + 2 ≤ x.step
    Does (.pantryAccess t) s (fun r =>
      (r.tile t).accesses = x.accesses.filter (fun a => x.step < a.step + 2) ∧
      TilesBut t s r ∧
      (∀ a : Nat, (∀ p ∈ due, a ∉ p.stores.map Prod.fst) → (r.tile t).pantry.read a = x.pantry.read a) ∧
      ((∀ k : Nat, s.tileOwns t k = false) → (r.tile t).pantry = x.pantry) ∧
      (∀ p : PanAccess, due = [p] → p.wu < 16 → (∀ w : Nat, p.word = some w → s.tileOwns t (w / 2 ^ 14) = true) →
        ∀ e ∈ p.stores, (r.tile t).pantry.read e.1 = e.2)) := by
  intro x due
  have wp : x.pantry.wf = true := (w.2.2.1 t).1
  obtain ⟨accesses, -, pantry⟩ := State.pantryDone_spec (t := t) w.2.1
  refine ⟨_, execPantryAccess_runs ht st, accesses, State.pantryDone_others w.2.1, ?_⟩
  rw [pantry]
  refine ⟨fun a free => Memory.read_puts_other wp fun stored => ?_, fun unowned => ?_, fun p one unit owned e he => ?_⟩
  · obtain ⟨q, hq, rfl⟩ := List.mem_map.mp stored
    obtain ⟨p, mem, -, own⟩ := mem_panPuts hq
    exact free p mem (List.mem_map_of_mem own)
  · rw [panPuts_unowned _ unowned]
    rfl
  · rw [show x.dueBy x.step = [p] from one, panPuts_one unit]
    rcases p.stores_lanes with none | ⟨word, -, -, touches, -⟩
    · simp [none] at he
    · rw [if_pos ((PanAccess.made_some touches).trans (owned word touches))]
      exact Memory.read_puts_stores wp p he

end

/-- Settles O10: issue, then the due accesses as a whole, then one due access by its operation. -/
theorem pantryAccesses : Obligations.PantryAccesses := by
  refine ⟨fun t u f s w ht hu st => ?_, fun t s w ht st => dueAccesses_done w ht st, ?_⟩
  · obtain ⟨ld, ldh, store, sth⟩ := pantryOps_issue (f := f) w ht hu st
    have nop := wuNop_runs (f := f) w ht hu st
    refine ⟨ld, ldh, store, sth, ⟨_, nop, .inl (State.stepErrs_tiles _ _ _)⟩, fun tap am cc => ⟨s, ?_, fun _ => rfl,
      Only.refl _ s⟩⟩
    rw [nop, wuNop_quiet tap am cc, State.stepErrs_nil]
  · intro t p s w ht st one due unit size x q k q1 owned rotated loaded lane refused
    have o : OneDue s t p := ⟨one, due, unit⟩
    have run := execPantryAccess_runs ht st
    have wp : x.pantry.wf = true := (w.2.2.1 t).1
    have lt : k < 4 := Nat.mod_lt _ (by decide)
    have owner {word : Nat} : ¬ owned word → (s.env t).owned (wordBank word) = false := Bool.eq_false_iff.mpr
    have load (op : p.op = .ld ∨ p.op = .ldh) {v : Word} (value : x.given (s.env t) p = v) :
        loaded v (s.pantryDone t) := value ▸ o.load w.2.1 (PanAccess.isLoad_iff.mpr op)
    have near (op : p.op = .ld ∨ p.op = .st) : p.word = some q := PanAccess.word_near op
    have ldhNext (op : p.op = .ldh) (some : 0 < k) : p.word = .some q1 :=
      (PanAccess.word_ldh op).trans (if_neg some.ne')
    have sthNext (op : p.op = .sth) (some : 4 < k + p.size) : p.word = .some q1 :=
      (PanAccess.word_sth op).trans (if_pos some)
    refine ⟨fun op own => ?_, fun op zero => ?_, fun op some own => ?_, fun op own => ?_, fun op some own => ?_,
      fun op fits => ?_, fun op no => ?_, fun op some no => ?_, fun op no => ?_, fun op some no => ?_⟩
    · have value := x.given_allowed (e := s.env t) ((PanAccess.allowed_some (near (.inl op))).trans own)
      refine ⟨_, ⟨_, run, load (.inl op) value⟩, fun i hi => ?_⟩
      rw [Tile.loadValue_ld _ op]
      exact x.panWord_rotated q lt hi
    · have value := x.given_allowed (e := s.env t)
        (PanAccess.allowed_none ((PanAccess.word_ldh op).trans (if_pos zero)))
      exact ⟨_, run, load (.inr op) (value.trans (x.loadValue_ldh_aligned op zero))⟩
    · have value := x.given_allowed (e := s.env t) ((PanAccess.allowed_some (ldhNext op some)).trans own)
      exact ⟨_, ⟨_, run, load (.inr op) value⟩, fun i hi => x.loadValue_ldh_bit op some hi⟩
    · obtain ⟨results, stored, -⟩ := o.store w.2.1 (.inl op)
      refine ⟨_, run, results, ?_⟩
      rw [stored ((PanAccess.made_some (near (.inr op))).trans own)]
      exact Memory.read_puts_st wp op
    · obtain ⟨results, stored, -⟩ := o.store w.2.1 (.inr op)
      refine ⟨_, run, results, ?_⟩
      rw [stored ((PanAccess.made_some (sthNext op some)).trans own)]
      exact Memory.read_puts_sth wp op size some
    · obtain ⟨results, -, kept⟩ := o.store w.2.1 (.inr op)
      exact ⟨_, run, results,
        kept (PanAccess.made_none ((PanAccess.word_sth op).trans (if_neg (Nat.not_lt.mpr fits))))⟩
    · have value := x.given_refused_ld op ((PanAccess.allowed_some (near (.inl op))).trans (owner no))
      exact ⟨_, run, load (.inl op) value, o.refused w.1 (near (.inl op)) no⟩
    · have value := x.given_refused_ldh op ((PanAccess.allowed_some (ldhNext op some)).trans (owner no))
      exact ⟨_, run, load (.inr op) value, o.refused w.1 (ldhNext op some) no⟩
    · obtain ⟨results, -, kept⟩ := o.store w.2.1 (.inl op)
      exact ⟨_, run, results, kept ((PanAccess.made_some (near (.inr op))).trans (owner no)),
        o.refused w.1 (near (.inr op)) no⟩
    · obtain ⟨results, -, kept⟩ := o.store w.2.1 (.inr op)
      exact ⟨_, run, results, kept ((PanAccess.made_some (sthNext op some)).trans (owner no)),
        o.refused w.1 (sthNext op some) no⟩

end Sys2Proof.Machine
end

section
/-! ## A packet applied to its tile (R119, R120, R125, R126) -/

namespace Sys2Proof.Machine

theorem Tile.flag_lt (x : Tile) (f : Nat) : x.flag f < 16 := (Table.get _ _ _ : BitVec 4).isLt

/-- An increment changes the flags of a tile, and nothing else. -/
theorem Tile.incFlag_tile (x : Tile) (f : Nat) : (x.incFlag f).1 = { x with flags := (x.incFlag f).1.flags } := by
  unfold Tile.incFlag
  split <;> rfl

/-- A flag counts to 15 and stays there. -/
theorem Tile.flag_incFlag {x : Tile} (w : zeroed x.flags) (f : Nat) :
    (x.incFlag f).1.flag f = min 15 (x.flag f + 1) := by
  have lt := x.flag_lt f
  unfold Tile.incFlag
  split
  · next full => exact full.trans (by omega)
  · have stored : Table.get (fun _ => (0 : BitVec 4)) (x.setFlag f (x.flag f + 1)).flags f =
        BitVec.ofNat 4 (x.flag f + 1) := (Table.get_set w).trans (if_pos rfl)
    rw [Tile.flag, stored, BitVec.toNat_ofNat]
    omega

/-- The data part of a packet leaves the flags alone. -/
theorem Tile.takeData_flags (x : Tile) (p : Packet) : (x.takeData p).1.flags = x.flags := by
  unfold Tile.takeData
  split
  · rfl
  · split
    · next y put =>
      unfold Tile.enqueue at put
      split at put
      · exact Option.some.inj put ▸ rfl
      · cases put
    · rfl
  · rfl

/-- A packet applied: its data part, then its flag. -/
theorem Tile.take_tile (x : Tile) (p : Packet) :
    (x.take p).1 = { (x.takeData p).1 with flags := (x.take p).1.flags } := Tile.incFlag_tile _ _

theorem Tile.take_flag {x : Tile} (w : zeroed x.flags) (p : Packet) :
    (x.take p).1.flag p.flag = min 15 (x.flag p.flag + 1) := by
  have flags := x.takeData_flags p
  have same : (x.takeData p).1.flag p.flag = x.flag p.flag := by rw [Tile.flag, flags, Tile.flag]
  rw [← same]
  exact Tile.flag_incFlag (flags ▸ w) p.flag

section
variable {t : Nat} {p : Packet} {s : State}

/-- The tile as a packet leaves it, its valid bits held clear while the set-reset is asserted (R91). -/
def State.tileTaken (s : State) (t : Nat) (p : Packet) : Tile :=
  if s.ldr.setReset then ((s.tile t).take p).1.holdValid else ((s.tile t).take p).1

/-- An error that is recorded where b holds. -/
theorem State.haltErr_only (s : State) (b : Bool) (t pg code info : Nat) : Only [.regs, .run, .prf, .con, .host] s
    (if b then (s.tileErr t pg code info).haltRequest 8 else s) := by
  split
  · exact ((s.err_only _ code info).mono (by simp)).trans ((State.haltRequest_only _ 8).mono (by simp))
  · exact Only.refl _ s

/-- Beside the tile a packet changes what its errors change. -/
theorem State.applyPacket_records (s : State) (t : Nat) (p : Packet) :
    Only [.regs, .run, .prf, .con, .host] (s.setTile t (s.tileTaken t p)) (s.applyPacket t p) :=
  (State.haltErr_only _ _ _ _ _ _).trans (State.haltErr_only _ _ _ _ _ _)

theorem State.applyPacket_only (s : State) (t : Nat) (p : Packet) :
    Only [.regs, .tiles, .run, .prf, .con, .host] s (s.applyPacket t p) :=
  ((s.setTile_only t _).mono (by simp)).trans ((s.applyPacket_records t p).mono (by simp))

theorem State.applyPacket_tiles (s : State) (t : Nat) (p : Packet) :
    (s.applyPacket t p).tiles = (s.setTile t (s.tileTaken t p)).tiles := (s.applyPacket_records t p).2 .tiles (by simp)

theorem State.applyPacket_tile (w : s.TilesWf) : (s.applyPacket t p).tile t = s.tileTaken t p := by
  rw [State.tile_congr (s.applyPacket_tiles t p), State.tile_setTile w, if_pos rfl]

theorem State.applyPacket_others (w : s.TilesWf) : TilesBut t s (s.applyPacket t p) := fun k other => by
  rw [State.tile_congr (s.applyPacket_tiles t p), State.tile_setTile w, if_neg other]

theorem State.applyPacket_wf (w : s.TilesWf) : (s.applyPacket t p).TilesWf := by
  rw [State.TilesWf, s.applyPacket_tiles t p]
  exact State.wf_setTile w

/-- The set-reset holds the valid bits of a tile clear, and changes nothing else that a packet writes. -/
theorem State.tileTaken_eq (s : State) (t : Nat) (p : Packet) : s.tileTaken t p = { ((s.tile t).takeData p).1 with
    flags := ((s.tile t).take p).1.flags
    mbxValid := (s.tileTaken t p).mbxValid
    mbxHeld := (s.tileTaken t p).mbxHeld } := by
  unfold State.tileTaken
  rw [Tile.take_tile]
  split <;> rfl

theorem State.applyPacket_flag (w : s.Canonical) :
    ((s.applyPacket t p).tile t).flag p.flag = min 15 ((s.tile t).flag p.flag + 1) := by
  have ⟨_, _, _, _, _, _, _, flags, _⟩ := w.2.2.1 t
  rw [State.applyPacket_tile w.2.1, State.tileTaken_eq, ← Tile.take_flag flags p]
  rfl

/-- A mailbox packet fills its slot and sets its valid bit, held back while the set-reset is asserted. -/
theorem State.applyPacket_mailbox (w : s.Canonical) (kind : p.kind = .mailbox) (index : p.index < 64) :
    ((s.applyPacket t p).tile t).slot p.index = p.data ∧
    (s.ldr.setReset = false → bit ((s.applyPacket t p).tile t).mbxValid p.index = true) ∧
    (s.ldr.setReset = true → bit ((s.applyPacket t p).tile t).mbxHeld p.index = true) := by
  have ⟨_, _, _, _, _, _, _, _, mbx, _⟩ := w.2.2.1 t
  have data : ((s.tile t).takeData p).1 = (s.tile t).writeSlot p.index p.data := by
    unfold Tile.takeData
    rw [kind]
  have valid : bit ((s.tile t).take p).1.mbxValid p.index = true := by
    rw [Tile.take_tile, data]
    refine (BitVec.getLsbD_or ..).trans (Bool.or_eq_true_iff.mpr (.inr ?_))
    rw [BitVec.getLsbD_ofNat, decide_eq_true index, Bool.true_and, Nat.testBit_two_pow_self]
  rw [State.applyPacket_tile w.2.1]
  refine ⟨?_, fun open_ => ?_, fun held => ?_⟩
  · rw [State.tileTaken_eq, data]
    exact (Table.get_set mbx).trans (if_pos rfl)
  · rw [State.tileTaken, if_neg (by simp [open_])]
    exact valid
  · rw [State.tileTaken, if_pos held]
    exact (BitVec.getLsbD_or ..).trans (Bool.or_eq_true_iff.mpr (.inr valid))

theorem State.applyPacket_held (w : s.TilesWf) (held : s.ldr.setReset = true) :
    ((s.applyPacket t p).tile t).mbxValid = 0 := by
  rw [State.applyPacket_tile w, State.tileTaken, if_pos held]
  rfl

/-- A queue packet goes behind the last entry of its queue. -/
theorem State.applyPacket_queue (w : s.Canonical) (kind : p.kind = .queue) (room : (s.tile t).qLen p.index < 16) :
    ((s.applyPacket t p).tile t).qLen p.index = (s.tile t).qLen p.index + 1 ∧
    Table.get (fun _ => 0) ((s.applyPacket t p).tile t).qData
      (p.index * 16 + ((s.tile t).qPos p.index + (s.tile t).qLen p.index) % 16) = p.data := by
  have ⟨_, _, _, _, _, _, _, _, _, qData, _, qCount, _⟩ := w.2.2.1 t
  have data := State.tileTaken_eq s t p
  unfold Tile.takeData at data
  simp only [kind, Tile.enqueue, room, if_true] at data
  rw [State.applyPacket_tile w.2.1, data]
  exact ⟨(Table.get_set qCount).trans (if_pos rfl), (Table.get_set qData).trans (if_pos rfl)⟩

end

end Sys2Proof.Machine
end

section
/-! ## What the input log leaves alone (R482, R483) -/

namespace Sys2Proof.Machine

/-- A step that logs an input: the network, the flags and the places of every tile stay, and no pause begins to wait
for answers. -/
structure Logged (s r : State) : Prop where
  net : r.net = s.net
  tiles : s.TilesWf → r.TilesWf ∧
    ∀ k, (r.tile k).flags = (s.tile k).flags ∧ (r.tile k).retry = (s.tile k).retry
  awaiting : s.prf.awaiting = false → r.prf.awaiting = false

section
variable {s t r : State}

theorem Logged.of_eq (net : r.net = s.net) (tiles : r.tiles = s.tiles)
    (awaiting : s.prf.awaiting = false → r.prf.awaiting = false) : Logged s r := by
  refine ⟨net, fun w => ⟨?_, fun k => ?_⟩, awaiting⟩
  · rw [State.TilesWf, tiles]
    exact w
  · rw [State.tile_congr tiles]
    exact ⟨rfl, rfl⟩

theorem Logged.refl (s : State) : Logged s s := Logged.of_eq rfl rfl id

theorem Logged.trans (a : Logged s t) (b : Logged t r) : Logged s r := by
  refine ⟨b.net.trans a.net, fun w => ⟨(b.tiles (a.tiles w).1).1, fun k => ?_⟩, b.awaiting ∘ a.awaiting⟩
  obtain ⟨wt, first⟩ := a.tiles w
  obtain ⟨-, second⟩ := b.tiles wt
  exact ⟨(second k).1.trans (first k).1, (second k).2.trans (first k).2⟩

theorem Logged.foldl {α : Type} {f : State → α → State} (step : ∀ s a, Logged s (f s a)) :
    ∀ (l : List α) (s : State), Logged s (l.foldl f s)
  | [], s => Logged.refl s
  | a :: l, s => (step s a).trans (Logged.foldl step l (f s a))

theorem Logged.of_only {l : List Part} (h : Only l s r) (net : .net ∉ l) (tiles : .tiles ∉ l) (prf : .prf ∉ l) :
    Logged s r :=
  Logged.of_eq (h.2 .net net) (h.2 .tiles tiles) fun idle => (congrArg Proofs.awaiting (h.2 .prf prf)).trans idle

theorem Logged.setReg (s : State) (a : Nat) (v : Word) : Logged s (s.setReg a v) :=
  Logged.of_only (s.setReg_only a v) (by simp) (by simp) (by simp)

theorem Logged.setFld (s : State) (reg : Reg) (hi lo v i j : Nat) : Logged s (s.setFld reg hi lo v i j) :=
  Logged.setReg s _ _

theorem Logged.alert (s : State) (i : Nat) (b : Bool) : Logged s (s.alert i b) := Logged.setFld s _ _ _ _ _ _

theorem Logged.err (s : State) (page code info : Nat) : Logged s (s.err page code info) :=
  Logged.of_only (s.err_only page code info) (by simp) (by simp) (by simp)

theorem Logged.cause (s : State) (page i : Nat) : Logged s (s.cause page i) :=
  Logged.of_only (s.raise_only page _) (by simp) (by simp) (by simp)

theorem Logged.setRun (s : State) (x : RunState) : Logged s (s.setRun x) :=
  Logged.of_only (s.setRun_only x) (by simp) (by simp) (by simp)

theorem Logged.mem (s : State) (x : Memories) : Logged s { s with mem := x } := Logged.of_eq rfl rfl id

theorem Logged.svc (s : State) (x : Service) : Logged s { s with svc := x } := Logged.of_eq rfl rfl id

/-! ### An integrity failure (R143, R328) -/

/-- A tile changed beside its flags and its places. -/
theorem Logged.modTile (s : State) (k : Nat) {f : Tile → Tile} (flags : ∀ x, (f x).flags = x.flags)
    (retry : ∀ x, (f x).retry = x.retry) : Logged s (s.modTile k f) := by
  refine ⟨rfl, fun w => ⟨State.wf_setTile w, fun j => ?_⟩, id⟩
  rw [State.modTile, State.tile_setTile w]
  split
  · next same => exact ⟨same ▸ flags _, same ▸ retry _⟩
  · exact ⟨rfl, rfl⟩

theorem Logged.stopTiles (s : State) : Logged s s.stopTiles := by
  have stop (x : Tile) : (if x.vtile.isSome then x.stop else x).flags = x.flags ∧
      (if x.vtile.isSome then x.stop else x).retry = x.retry := by
    split <;> exact ⟨rfl, rfl⟩
  exact Logged.foldl (fun s k => Logged.modTile s k (fun x => (stop x).1) fun x => (stop x).2) _ s

theorem Logged.softRepair (s : State) : Logged s s.softRepair := by
  refine Logged.foldl (fun s q => ?_) _ s
  have drawn : Logged s { s.freeNat.2 with mem := {
      s.freeNat.2.mem with pprQueue := s.freeNat.2.mem.pprQueue.erase q } } := Logged.of_eq rfl rfl id
  dsimp only
  split
  · exact drawn.trans (Logged.mem _ _)
  · exact drawn.trans (Logged.err _ _ _ _)

theorem Logged.haltTaken (s : State) : Logged s s.haltTaken := by
  have repaired := Logged.softRepair s
  unfold State.haltTaken
  dsimp only
  generalize s.softRepair = t at repaired
  exact repaired.trans (Logged.of_eq rfl rfl id)

theorem Logged.stopAll (s : State) (causes : BitVec 13) : Logged s (s.stopAll causes) := by
  have halt := (Logged.stopTiles s).trans (Logged.haltTaken _)
  unfold State.stopAll
  dsimp only
  generalize s.stopTiles.haltTaken = t at halt
  refine ((halt.trans ?_).trans (Logged.setRun _ .halted)).trans (Logged.cause _ _ 1)
  exact Logged.of_eq rfl rfl id

theorem Logged.immediateStop (s : State) (c : Nat) : Logged s (s.immediateStop c) := by
  unfold State.immediateStop
  split
  · exact Logged.refl s
  · exact Logged.stopAll s _

theorem Logged.integrityFail (s : State) (a cls slot queue : Nat) (rmw : Bool) :
    Logged s (s.integrityFail a cls slot queue rmw) := by
  have noted (v : DWord) (w : Word) : Logged s (if bit (s.rd .encFailInfo) 31 then s
      else (s.wr64 .encFailLo .encFailHi v).wr .encFailInfo w) := by
    split
    · exact Logged.refl s
    · exact ((Logged.setReg _ _ _).trans (Logged.setReg _ _ _)).trans (Logged.setReg _ _ _)
  unfold State.integrityFail
  dsimp only
  refine Logged.trans ?_ ((Logged.stopTiles _).trans (Logged.immediateStop _ 11))
  refine Logged.trans ?_ (Logged.alert _ 1 true)
  refine Logged.trans ?_ ((Logged.err _ _ _ _).trans (Logged.cause _ _ 1))
  refine Logged.trans ?_ (Logged.setFld _ .encStat 31 31 1 0 0)
  exact (noted _ _).trans (Logged.of_eq rfl rfl fun _ => rfl)

/-! ### A record written (R314, R324) -/

theorem Logged.meetChannel (s : State) (a : Nat) : Logged s (s.meetChannel a) := by
  unfold State.meetChannel
  split
  · exact Logged.mem s _
  · exact Logged.refl s

theorem Logged.writeTag (s : State) (a : Nat) : Logged s (s.writeTag a) := by
  unfold State.writeTag
  split
  · exact (Logged.mem s _).trans (Logged.mem _ _)
  · exact Logged.refl s

/-- A part of a line written, where the DRAM meets no error. -/
theorem Logged.linePut (s : State) (q : Requester) (slot a : Nat) (d : List Byte) :
    Logged s (s.linePut q slot a d .clean).2 := by
  unfold State.linePut
  split
  · exact Logged.refl s
  · split
    · exact Logged.err s _ _ _
    · extract_lets met used base whole blocks rmw cleaned tagged plain stored
      have meet : Logged s met := Logged.meetChannel s a
      have clean : Logged met cleaned := by
        show Logged met (if _ then met.dramMeets _ .clean else _)
        split <;> exact Logged.refl met
      have tag : Logged cleaned tagged := by
        show Logged cleaned (if _ then _ else _)
        split
        · exact Logged.mem _ _
        · exact Logged.refl _
      have all := (meet.trans clean).trans tag
      split
      · exact meet.trans ((Logged.setReg _ _ _).trans (Logged.err _ _ _ _))
      · split
        · exact all.trans (Logged.integrityFail _ _ _ _ _ _)
        · have store : Logged s stored := all.trans (Logged.mem _ _)
          split
          · exact store.trans (Logged.writeTag _ _)
          · exact store

/-- The writes of the input log: requester PROOF, whose lines have no undo entry (R481). -/
theorem Logged.ddrWriteParts (slot : Nat) (l : List (Nat × Nat)) : ∀ (s : State) (d : List Byte),
    Logged s (s.ddrWriteParts reqProof slot .clean d l).2 := by
  induction l with
  | nil => exact fun s _ => Logged.refl s
  | cons e l ih =>
    obtain ⟨a, k⟩ := e
    intro s d
    have line : Logged s ((s.snoop a).lineWrite reqProof slot a (d.take k) .clean).2 :=
      (Logged.svc s _).trans (Logged.linePut _ _ _ _ _)
    unfold State.ddrWriteParts
    split
    · next h =>
      rw [h] at line
      exact line.trans (ih _ _)
    · next h =>
      rw [h] at line
      exact line.trans (ih _ _)

theorem Logged.unprotect (s : State) (why : Nat) : Logged s (s.unprotect why) := by
  unfold State.unprotect
  split
  · exact Logged.refl s
  · have noted : Logged s { s with prf := { s.prf with unprot := why :: s.prf.unprot, saveDue := true } } :=
      Logged.of_eq rfl rfl id
    exact (noted.trans (Logged.err _ _ _ _)).trans (Logged.cause _ _ _)

theorem Logged.logSave (s : State) : Logged s s.logSave := by
  unfold State.logSave
  split
  · exact Logged.of_eq rfl rfl id
  · exact Logged.refl s

/-- A record of the input log. -/
theorem Logged.logInput (s : State) (rec : LogRec) : Logged s (s.logInput rec) := by
  unfold State.logInput
  split
  · exact Logged.refl s
  · split
    · have full : Logged s { s with prf := { s.prf with inputFull := true } } := Logged.of_eq rfl rfl id
      exact full.trans (Logged.unprotect _ _)
    · extract_lets wrote stored
      have write : Logged s stored := Logged.ddrWriteParts _ _ s _
      have noted : Logged stored { stored with prf := { stored.prf with input := stored.prf.input ++ [rec] } } :=
        Logged.of_eq rfl rfl id
      exact (write.trans noted).trans (Logged.logSave _)

end

end Sys2Proof.Machine
end

section
/-! ## Arrivals (R119, R135 to R137) -/

namespace Sys2Proof.Machine

section
variable {t : Nat} {p : Packet} {s : State} {rest : List Packet}

/-- The first packet of a list arrives whatever stands behind it. -/
theorem mayArrive_first (p : Packet) (rest : List Packet) : mayArrive (p :: rest) 0 = some p := rfl

/-- A local packet is applied at the tile that serves its virtual tile. -/
theorem execPacketArrival_first (loc : s.net.loc = p :: rest) (serves : s.ptile p.dstVt = some t) :
    exec (.packetArrival 0) s = .next (({ s with net := { s.net with loc := rest } } : State).applyPacket t p) := by
  show execPacketArrival 0 s = _
  have there : ({ s with net := { s.net with loc := rest } } : State).ptile p.dstVt = some t := serves
  simp only [execPacketArrival, loc, mayArrive_first, List.eraseIdx_cons_zero, there]

/-- The first remote packet taken from those delivered. -/
def State.remoteTaken (s : State) (rest : List Packet) : State := { s with net := { s.net with arrivals := rest } }

/-- The state in which the first remote packet has its answer. -/
def State.remoteAnswered (s : State) (rest : List Packet) (p : Packet) (o : AnsOutcome) (x : DWord) : State :=
  (s.remoteTaken rest).sendAnswer (answerTo p s.devId o x)

theorem Only.net (s : State) (x : Network) : Only [.net] s { s with net := x } :=
  ⟨rfl, fun part other => by
    cases part with
    | net => simp at other
    | _ => rfl⟩

theorem State.remoteAnswered_only (s : State) (rest : List Packet) (p : Packet) (o : AnsOutcome) (x : DWord) :
    Only [.net] s (s.remoteAnswered rest p o x) := Only.net s _

theorem execRemotePacketArrival_first (arr : s.net.arrivals = p :: rest) :
    exec (.remotePacketArrival 0) s = .next ((s.remoteTaken rest).arriveRemote p) := by
  show execRemotePacketArrival 0 s = _
  simp only [execRemotePacketArrival, arr, mayArrive_first, List.eraseIdx_cons_zero]
  rfl

/-- No tile serves the packet's virtual tile. -/
theorem State.arriveRemote_unserved (none : s.ptile p.dstVt = none) :
    (s.remoteTaken rest).arriveRemote p = s.remoteAnswered rest p .unserved 0 := by
  have nowhere : (s.remoteTaken rest).ptile p.dstVt = .none := none
  simp only [State.arriveRemote, nowhere]
  rfl

/-- A recovery pause refuses every packet. -/
theorem State.arriveRemote_recover (serves : s.ptile p.dstVt = some t) (pause : s.run.state = .recover) :
    (s.remoteTaken rest).arriveRemote p = s.remoteAnswered rest p .refused (s.tile t).xbatch := by
  have there : (s.remoteTaken rest).ptile p.dstVt = some t := serves
  have paused : (s.remoteTaken rest).run.state = .recover := pause
  simp only [State.arriveRemote, there, paused, if_true]
  rfl

/-- What becomes of a packet that has its answer. -/
def State.placed (s : State) (t : Nat) (p : Packet) (x : Tile) : AnsOutcome × Option Bool → State
  | (.stale, _) => (s.tileErr t 1 0x1015 (srcInfo p + (x.xbatch.toNat - p.tag.toNat) % 2 ^ 16)).haltRequest 8
  | (_, some false) => (s.applyPacket t p).logInput (.arrive x.logStep p)
  | (_, some true) => s.setTile t { x with rack := x.rack ++ [p] }
  | (_, none) => s

theorem State.placed_applied (s : State) (t : Nat) (p : Packet) (x : Tile) :
    s.placed t p x (.accepted, some false) = (s.applyPacket t p).logInput (.arrive x.logStep p) := rfl

theorem State.placed_stale (s : State) (t : Nat) (p : Packet) (x : Tile) : s.placed t p x (.stale, none) =
    (s.tileErr t 1 0x1015 (srcInfo p + (x.xbatch.toNat - p.tag.toNat) % 2 ^ 16)).haltRequest 8 := rfl

theorem State.arriveRemote_placed (serves : s.ptile p.dstVt = some t) (live : s.run.state ≠ .recover) :
    (s.remoteTaken rest).arriveRemote p =
      (s.remoteAnswered rest p ((s.tile t).place p).1 (s.tile t).xbatch).placed t p (s.tile t)
        ((s.tile t).place p) := by
  have there : (s.remoteTaken rest).ptile p.dstVt = some t := serves
  have on : (s.remoteTaken rest).run.state ≠ .recover := live
  have tile : (s.remoteTaken rest).tile t = s.tile t := rfl
  simp only [State.arriveRemote, there, on, if_false, tile]
  unfold State.placed
  rfl

end

/-! ### The table of R135 -/

section
variable {x : Tile} {p : Packet}

theorem Tile.place_stale (past : p.tag.toNat < x.xbatch.toNat) : x.place p = (.stale, none) := if_pos past

theorem Tile.place_applied (now : p.tag = x.xbatch) (phase : x.phase ≠ .batchEnd) (power : x.power ≠ .sleep) :
    x.place p = (.accepted, some false) := by
  simp [Tile.place, now, phase, power]

theorem Tile.place_racked (power : x.power ≠ .sleep) (room : x.rack.length < 64)
    (near : p.tag.toNat = x.xbatch.toNat + 1 ∨ (p.tag.toNat = x.xbatch.toNat ∧ x.phase = .batchEnd)) :
    x.place p = (.accepted, some true) := by
  rcases near with next | ⟨now, ending⟩
  · simp [Tile.place, next, power, room]
  · simp [Tile.place, now, ending, power, room]

theorem Tile.place_refused (far : x.xbatch.toNat + 2 ≤ p.tag.toNat ∨
      (p.tag.toNat = x.xbatch.toNat + 1 ∧ (64 ≤ x.rack.length ∨ x.power = .sleep))) :
    x.place p = (.refused, none) := by
  rcases far with far | ⟨next, full | asleep⟩
  · have h : ¬ p.tag.toNat < x.xbatch.toNat ∧ p.tag.toNat ≠ x.xbatch.toNat ∧ ¬ p.tag.toNat ≤ x.xbatch.toNat + 1 := by
      omega
    simp [Tile.place, h]
  · simp [Tile.place, next, Nat.not_lt.mpr full]
  · simp [Tile.place, next, asleep]

end

/-! ### Answers and places (R137, R349) -/

section
variable {t : Nat} {s : State}

/-- An interface without places sends nothing. -/
theorem State.pump_empty (n : Nat) (none : (s.tile t).retry = []) : State.pump t n s = s := by
  cases n with
  | zero => rfl
  | succ n => simp only [State.pump, none, nextSend]

/-- An interface whose one packet waits for its answer sends nothing. -/
theorem State.pump_awaiting (n : Nat) {p : Packet} {b : Bool} (one : (s.tile t).retry = [⟨p, .awaiting b⟩]) :
    State.pump t n s = s := by
  cases n with
  | zero => rfl
  | succ n => simp only [State.pump, one, nextSend]

/-- The first delivered answer goes to the tile that serves its source. -/
theorem execAnswerArrival_first {a : Answer} {rest : List Answer} (answers : s.net.answers = a :: rest)
    (serves : s.ptile a.srcVt = some t) : exec .answerArrival s =
      .next ((({ s with net := { s.net with answers := rest } } : State).takeAnswer t a).answersDone) := by
  show execAnswerArrival s = _
  have there : ({ s with net := { s.net with answers := rest } } : State).ptile a.srcVt = some t := serves
  simp only [execAnswerArrival, answers, there]

/-- An answer is for the one packet that waits for it. -/
theorem Tile.answered_one {x : Tile} {e : RetryEntry} {a : Answer} (one : x.retry = [e]) (entry : e.pkt.entry = a.entry)
    (tag : e.pkt.tag.setWidth 16 = a.tag) (waits : ∃ b, e.stage = .awaiting b) : x.answered a = some 0 := by
  obtain ⟨b, waits⟩ := waits
  simp [Tile.answered, one, List.findIdx?_cons, entry, tag, waits]

/-- The only place of an interface freed, with what its destinations have reported. -/
def State.placeFreed (s : State) (t : Nat) (known : Table DWord) : State :=
  s.setTile t { s.tile t with retry := [], known := known }

/-- An acceptance logged leaves the freed interface empty. -/
theorem State.placeFreed_logged (w : s.TilesWf) (known : Table DWord) (rec : LogRec) :
    (((s.placeFreed t known).logInput rec).tile t).retry = [] := by
  have logged := (Logged.logInput (s.placeFreed t known) rec).tiles (State.wf_setTile w)
  rw [(logged.2 t).2, State.placeFreed, State.tile_setTile w, if_pos rfl]

/-- An accepted packet leaves its place, the only one taken: nothing else is sent, and the acceptance is logged. -/
theorem State.takeAnswer_accepted (w : s.TilesWf) {e : RetryEntry} {a : Answer} (accepted : a.outcome = .accepted)
    (one : (s.tile t).retry = [e]) (mine : (s.tile t).answered a = some 0) :
    ∃ known rec, s.takeAnswer t a = (s.placeFreed t known).logInput rec := by
  unfold State.takeAnswer
  simp only [mine, accepted, one, List.eraseIdx_cons_zero]
  exact ⟨_, _, State.pump_empty 33 (State.placeFreed_logged w _ _)⟩

/-- 160 ns after its refusal the only packet of an interface is sent again. -/
theorem execPacketResend_due {e : RetryEntry} {n : Nat} (ht : t < 136) (one : (s.tile t).retry = [e])
    (refused : e.stage = .refused n) (old : 160 ≤ n) (entry : e.pkt.entry < 256) :
    exec (.packetResend t e.pkt.entry) s = .next (State.pump t 33 (s.sendPlace t 0 true)) := by
  show execPacketResend t e.pkt.entry s = _
  simp [execPacketResend, guardUnit, whenDue, numTiles, ht, entry, one, refused, old, List.findIdx?_cons]

theorem State.sendPlace_routed {e : RetryEntry} {n count : Nat} {half : BitVec 12} {hops : BitVec 36}
    (one : (s.tile t).retry = [e]) (refused : e.stage = .refused n)
    (route : s.route e.pkt.dstDev = some (count, half, hops)) :
    s.sendPlace t 0 true =
      let r := s.setTile t { s.tile t with retry := [⟨e.pkt, .awaiting true⟩] }
      { r with net := { r.net with quad := r.net.quad ++ [⟨none,
        { e.pkt with count := count, half := half, hop := hops, next := 1, rcount := 0, ret := 0 }⟩] } } := by
  simp [State.sendPlace, one, route, refused]

theorem State.sendPlace_unrouted {e : RetryEntry} (one : (s.tile t).retry = [e])
    (route : s.route e.pkt.dstDev = none) : s.sendPlace t 0 true =
      (s.setTile t { s.tile t with retry := [] }).destInvalid t e.pkt.step (e.pkt.entry * 2 ^ 14) 1 := by
  simp [State.sendPlace, one, route]

/-- A wait for answers that has not begun has no end. -/
theorem State.answersDone_idle (idle : s.prf.awaiting = false) : s.answersDone = s := by
  unfold State.answersDone
  rw [idle]
  rfl

/-- DEST_INVALID is recorded on page 1 of the source tile, and changes neither tiles nor the network. -/
theorem State.destInvalid_spec (w : Table.wf regInit s.regs = true) (step place reason : Nat) :
    Only [.regs, .run, .prf, .con, .host] s (s.destInvalid t step place reason) ∧
    0 < bits ((s.destInvalid t step place reason).reg (tilePage t 1 + 0x18)) 31 16 := by
  refine ⟨((s.err_only _ _ _).mono (by simp)).trans ((State.haltRequest_only _ 8).mono (by simp)), ?_⟩
  rw [State.destInvalid, State.haltRequest_reg]
  exact State.err_count_pos w _ _ (by decide)

/-- The packet is sent again by its route. -/
theorem packetResend_routed (w : s.TilesWf) (ht : t < 136) {e : RetryEntry} {n count : Nat} {half : BitVec 12}
    {hops : BitVec 36} (one : (s.tile t).retry = [e]) (refused : e.stage = .refused n) (old : 160 ≤ n)
    (entry : e.pkt.entry < 256) (route : s.route e.pkt.dstDev = some (count, half, hops)) :
    Does (.packetResend t e.pkt.entry) s (fun r =>
      (r.tile t).retry = [⟨e.pkt, .awaiting true⟩] ∧ TilesBut t s r ∧ Only [.tiles, .net] s r ∧
      r.net.quad = s.net.quad ++ [⟨none,
        { e.pkt with count := count, half := half, hop := hops, next := 1, rcount := 0, ret := 0 }⟩]) := by
  let x : Tile := { s.tile t with retry := [⟨e.pkt, .awaiting true⟩] }
  have sent := State.sendPlace_routed one refused route
  have mine : (s.sendPlace t 0 true).tile t = x := by
    rw [sent]
    exact (State.tile_setTile w).trans (if_pos rfl)
  have retry : ((s.sendPlace t 0 true).tile t).retry = [⟨e.pkt, .awaiting true⟩] := by rw [mine]
  refine ⟨_, (execPacketResend_due ht one refused old entry).trans (congrArg _ (State.pump_awaiting 33 retry)), retry,
    fun k other => ?_, ?_, ?_⟩
  · rw [sent]
    exact (State.tile_setTile w).trans (if_neg other)
  · rw [sent]
    exact ((s.setTile_only t x).mono (by simp)).trans ((Only.net _ _).mono (by simp))
  · rw [sent]
    rfl

/-- A packet whose device has no route any more is removed. -/
theorem packetResend_unrouted (w : s.Canonical) (ht : t < 136) {e : RetryEntry} {n : Nat}
    (one : (s.tile t).retry = [e]) (refused : e.stage = .refused n) (old : 160 ≤ n) (entry : e.pkt.entry < 256)
    (route : s.route e.pkt.dstDev = none) : Does (.packetResend t e.pkt.entry) s (fun r =>
      r.tile t = { s.tile t with retry := [] } ∧ TilesBut t s r ∧ r.net = s.net ∧
      0 < bits (r.reg (tilePage t 1 + 0x18)) 31 16) := by
  let removed : State := s.setTile t { s.tile t with retry := [] }
  obtain ⟨only, count⟩ := State.destInvalid_spec (s := removed) (t := t) w.1 e.pkt.step (e.pkt.entry * 2 ^ 14) 1
  have tiles := only.2 .tiles (by simp)
  have sent : s.sendPlace t 0 true = removed.destInvalid t e.pkt.step (e.pkt.entry * 2 ^ 14) 1 :=
    State.sendPlace_unrouted one route
  have mine : (removed.destInvalid t e.pkt.step (e.pkt.entry * 2 ^ 14) 1).tile t = { s.tile t with retry := [] } := by
    rw [State.tile_congr tiles, State.tile_setTile w.2.1, if_pos rfl]
  have next := execPacketResend_due ht one refused old entry
  rw [sent, State.pump_empty 33 (by rw [mine])] at next
  refine ⟨_, next, mine, fun k other => ?_, only.2 .net (by simp), count⟩
  rw [State.tile_congr tiles, State.tile_setTile w.2.1, if_neg other]

end

/-! ### Remote packets (R135, R136) -/

section
variable {t : Nat} {p : Packet} {s : State} {rest : List Packet}

/-- A packet applied lets the run and the input log go on. -/
theorem State.applyPacket_runsOn (s : State) (t : Nat) (p : Packet) : RunsOn s (s.applyPacket t p) := by
  have err (s : State) (b : Bool) (pg code info : Nat) :
      RunsOn s (if b then (s.tileErr t pg code info).haltRequest 8 else s) := by
    split
    · exact (RunsOn.of_only (s.err_only _ code info) (by simp) (by simp)).trans (State.haltRequest_runsOn _ 8)
    · exact RunsOn.refl s
  have stored : RunsOn s (s.setTile t (s.tileTaken t p)) :=
    RunsOn.of_only (s.setTile_only t _) (by simp) (by simp)
  exact (stored.trans (err _ _ _ _ _)).trans (err _ _ _ _ _)

/-- A packet of the tile's exchange batch is applied, answered ACCEPTED and logged. -/
theorem remoteArrival_applied (w : s.Canonical) (arr : s.net.arrivals = p :: rest) (serves : s.ptile p.dstVt = some t)
    (live : s.run.state ≠ .recover) (now : p.tag = (s.tile t).xbatch) (phase : (s.tile t).phase ≠ .batchEnd)
    (power : (s.tile t).power ≠ .sleep) : Does (.remotePacketArrival 0) s (fun r =>
      r.net.arrivals = rest ∧ (s.inputOn = false → TilesBut t s r) ∧
      (r.tile t).flag p.flag = min 15 ((s.tile t).flag p.flag + 1) ∧
      r.net.quadAns = s.net.quadAns ++ [⟨none, answerTo p s.devId .accepted (s.tile t).xbatch⟩]) := by
  let q : State := s.remoteAnswered rest p .accepted (s.tile t).xbatch
  have next := execRemotePacketArrival_first arr
  rw [State.arriveRemote_placed serves live, Tile.place_applied now phase power,
    State.placed_applied] at next
  have wq : q.Canonical := w
  have logged := Logged.logInput (q.applyPacket t p) (.arrive (s.tile t).logStep p)
  have net : ((q.applyPacket t p).logInput (.arrive (s.tile t).logStep p)).net = q.net :=
    logged.net.trans ((q.applyPacket_only t p).2 .net (by simp))
  refine ⟨_, next, congrArg Network.arrivals net, fun off k other => ?_, ?_, congrArg Network.quadAns net⟩
  · rw [State.logInput_off ((State.applyPacket_runsOn q t p).inputOn.trans off)]
    exact State.applyPacket_others wq.2.1 k other
  · have flags := ((logged.tiles (State.applyPacket_wf wq.2.1)).2 t).1
    exact (congrArg (fun m => (Table.get (fun _ => (0 : BitVec 4)) m p.flag).toNat) flags).trans
      (State.applyPacket_flag wq)

/-- A packet for the next batch, or for the batch end in progress, waits in the rack. -/
theorem remoteArrival_racked (w : s.TilesWf) (arr : s.net.arrivals = p :: rest) (serves : s.ptile p.dstVt = some t)
    (live : s.run.state ≠ .recover) (power : (s.tile t).power ≠ .sleep) (room : (s.tile t).rack.length < 64)
    (near : p.tag.toNat = (s.tile t).xbatch.toNat + 1 ∨
      (p.tag.toNat = (s.tile t).xbatch.toNat ∧ (s.tile t).phase = .batchEnd)) :
    Does (.remotePacketArrival 0) s (fun r =>
      r.net = (s.remoteAnswered rest p .accepted (s.tile t).xbatch).net ∧
      r.tile t = { s.tile t with rack := (s.tile t).rack ++ [p] } ∧ TilesBut t s r ∧ Only [.tiles, .net] s r) := by
  let q : State := s.remoteAnswered rest p .accepted (s.tile t).xbatch
  have next := execRemotePacketArrival_first arr
  rw [State.arriveRemote_placed serves live, Tile.place_racked power room near] at next
  exact ⟨_, next, rfl, (State.tile_setTile (s := q) w).trans (if_pos rfl),
    fun k other => (State.tile_setTile (s := q) w).trans (if_neg other),
    ((s.remoteAnswered_only ..).mono (by simp)).trans ((q.setTile_only t _).mono (by simp))⟩

/-- A packet in a pause, one further ahead, or one for a full rack is refused. -/
theorem remoteArrival_refused (arr : s.net.arrivals = p :: rest) (serves : s.ptile p.dstVt = some t)
    (refused : s.run.state = .recover ∨ (s.tile t).xbatch.toNat + 2 ≤ p.tag.toNat ∨
      (p.tag.toNat = (s.tile t).xbatch.toNat + 1 ∧ (64 ≤ (s.tile t).rack.length ∨ (s.tile t).power = .sleep))) :
    exec (.remotePacketArrival 0) s = .next (s.remoteAnswered rest p .refused (s.tile t).xbatch) := by
  have next := execRemotePacketArrival_first arr
  by_cases pause : s.run.state = .recover
  · rwa [State.arriveRemote_recover serves pause] at next
  · rwa [State.arriveRemote_placed serves pause, Tile.place_refused (refused.resolve_left pause)] at next

/-- A packet of an earlier batch is answered STALE, dropped and recorded on page 1 of its tile. -/
theorem remoteArrival_stale (w : Table.wf regInit s.regs = true) (arr : s.net.arrivals = p :: rest)
    (serves : s.ptile p.dstVt = some t) (live : s.run.state ≠ .recover)
    (past : p.tag.toNat < (s.tile t).xbatch.toNat) : Does (.remotePacketArrival 0) s (fun r =>
      r.net = (s.remoteAnswered rest p .stale (s.tile t).xbatch).net ∧ TilesSame s r ∧ r.mem = s.mem ∧
      0 < bits (r.reg (tilePage t 1 + 0x18)) 31 16) := by
  let q : State := s.remoteAnswered rest p .stale (s.tile t).xbatch
  let info : Nat := srcInfo p + ((s.tile t).xbatch.toNat - p.tag.toNat) % 2 ^ 16
  have next := execRemotePacketArrival_first arr
  rw [State.arriveRemote_placed serves live, Tile.place_stale past, State.placed_stale] at next
  have only : Only [.regs, .run, .prf, .con, .host] q ((q.tileErr t 1 0x1015 info).haltRequest 8) :=
    ((q.err_only _ _ _).mono (by simp)).trans ((State.haltRequest_only _ 8).mono (by simp))
  refine ⟨_, next, only.2 .net (by simp), fun k => State.tile_congr (only.2 .tiles (by simp)) k,
    only.2 .mem (by simp), ?_⟩
  rw [State.haltRequest_reg]
  exact State.err_count_pos (s := q) w _ _ (by decide)

/-- An ACCEPTED answer frees the place of its packet. -/
theorem answerArrival_accepted (w : s.TilesWf) {a : Answer} {others : List Answer} {e : RetryEntry}
    (answers : s.net.answers = a :: others) (serves : s.ptile a.srcVt = some t) (accepted : a.outcome = .accepted)
    (one : (s.tile t).retry = [e]) (entry : e.pkt.entry = a.entry) (tag : e.pkt.tag.setWidth 16 = a.tag)
    (waits : ∃ b, e.stage = .awaiting b) (idle : s.prf.awaiting = false) : Does .answerArrival s (fun r =>
      r.net.answers = others ∧ (r.tile t).retry = [] ∧ (s.inputOn = false → TilesBut t s r)) := by
  let q : State := { s with net := { s.net with answers := others } }
  have next := execAnswerArrival_first answers serves
  obtain ⟨known, rec, taken⟩ := State.takeAnswer_accepted (s := q) w accepted one
    (Tile.answered_one one entry tag waits)
  have logged := Logged.logInput (q.placeFreed t known) rec
  rw [taken, State.answersDone_idle (logged.awaiting idle)] at next
  refine ⟨_, next, congrArg Network.answers logged.net, State.placeFreed_logged (s := q) w known rec,
    fun off k other => ?_⟩
  have unlogged : (q.placeFreed t known).inputOn = false := off
  rw [State.logInput_off unlogged]
  exact (State.tile_setTile (s := q) w).trans (if_neg other)

end

/-- Settles O19: packets applied, then each kind of arrival, answers and resends. -/
theorem packetsAndAnswersArrive : Obligations.PacketsAndAnswersArrive := by
  intro t p a s w ht y len
  refine ⟨State.applyPacket_mailbox w, State.applyPacket_held w.2.1, State.applyPacket_queue w,
    fun rest loc serves => ?_, fun rest arr serves live now phase power =>
      remoteArrival_applied w arr serves live now phase power,
    fun rest e answers serves accepted one entry tag waits idle =>
      answerArrival_accepted w.2.1 answers serves accepted one entry tag waits idle,
    fun e n count half hops one refused old entry route => packetResend_routed w.2.1 ht one refused old entry route,
    fun rest arr serves => ⟨fun live power room near => remoteArrival_racked w.2.1 arr serves live power room near,
      fun refused => ⟨_, remoteArrival_refused arr serves refused, rfl, s.remoteAnswered_only ..⟩,
      fun live past => remoteArrival_stale w.1 arr serves live past⟩,
    fun rest arr none => ?_, fun e n one refused old entry route => packetResend_unrouted w ht one refused old entry route⟩
  · let q : State := { s with net := { s.net with loc := rest } }
    have wq : q.Canonical := w
    have only := q.applyPacket_only t p
    exact ⟨_, execPacketArrival_first loc serves, congrArg Network.loc (only.2 .net (by simp)),
      State.applyPacket_flag wq, State.applyPacket_others wq.2.1, only.2 .mem (by simp)⟩
  · have next := execRemotePacketArrival_first arr
    rw [State.arriveRemote_unserved none] at next
    exact ⟨_, next, s.remoteAnswered_only .., rfl⟩

end Sys2Proof.Machine
end

section
/-! ## Entries of a table -/

namespace Sys2Proof.Machine

section
variable {α : Type} {d : Nat → α} [DecidableEq α]

theorem Table.le_key_of_mem {e : Nat × α} : ∀ {m : Table α} {lo : Nat}, Table.wfFrom d lo m = true → e ∈ m → lo ≤ e.1
  | (a, v) :: rest, lo, w, mem => by
    simp only [Table.wfFrom, Bool.and_eq_true, decide_eq_true_eq] at w
    rcases List.mem_cons.mp mem with rfl | later
    · exact w.1.1
    · exact w.1.1.trans (Nat.le_of_succ_le (Table.le_key_of_mem w.2 later))

/-- The keys of a canonical table rise. -/
theorem Table.keys_rise : ∀ {m : Table α} {lo : Nat}, Table.wfFrom d lo m = true → m.Pairwise fun a b => a.1 < b.1
  | [], _, _ => List.Pairwise.nil
  | (a, v) :: rest, lo, w => by
    simp only [Table.wfFrom, Bool.and_eq_true, decide_eq_true_eq] at w
    exact List.Pairwise.cons (fun e later => Table.le_key_of_mem w.2 later) (Table.keys_rise w.2)

/-- The entries of a canonical table are the keys that do not read as their default. -/
theorem Table.mem_iff {k : Nat} {v : α} : ∀ {m : Table α} {lo : Nat}, Table.wfFrom d lo m = true →
    ((k, v) ∈ m ↔ Table.get d m k = v ∧ v ≠ d k)
  | [], _, _ => by
    simp only [List.not_mem_nil, Table.get_nil, false_iff, not_and, not_not]
    exact Eq.symm
  | (a, x) :: rest, lo, w => by
    simp only [Table.wfFrom, Bool.and_eq_true, decide_eq_true_eq] at w
    have ih := Table.mem_iff (k := k) (v := v) w.2
    rw [List.mem_cons, Prod.mk.injEq, ih, Table.get]
    by_cases here : k = a
    · subst here
      rw [if_pos rfl, Table.get_below w.2 (Nat.lt_succ_self k)]
      constructor
      · rintro (⟨-, rfl⟩ | ⟨rfl, other⟩)
        · exact ⟨rfl, w.1.2⟩
        · exact absurd rfl other
      · rintro ⟨rfl, -⟩
        exact .inl ⟨rfl, rfl⟩
    · have later : (if k < a then d k else Table.get d rest k) = Table.get d rest k := by
        split
        · next below => exact (Table.get_below w.2 (below.trans (Nat.lt_succ_self a))).symm
        · rfl
      rw [if_neg here, later]
      simp only [here, false_and, false_or]

end

/-! ## Bits set one by one -/

/-- A vector in which the bits k a are set for the elements a of a list that satisfy p. -/
theorem getLsbD_foldl_setBit {α : Type} {n : Nat} (p : α → Bool) (k : α → Nat) (i : Nat) : ∀ (l : List α) (v : BitVec n),
    (l.foldl (fun v a => if p a then v ||| BitVec.ofNat n (2 ^ k a) else v) v).getLsbD i =
      (v.getLsbD i || (decide (i < n) && l.any fun a => p a && decide (k a = i)))
  | [], v => by simp
  | a :: l, v => by
    rw [List.foldl_cons, getLsbD_foldl_setBit p k i l, List.any_cons]
    by_cases on : p a = true
    · simp only [on, if_true, BitVec.getLsbD_or, BitVec.getLsbD_ofNat, Nat.testBit_two_pow, Bool.true_and,
        Bool.and_or_distrib_left, Bool.or_assoc]
    · simp only [on, Bool.false_eq_true, if_false, Bool.false_and, Bool.false_or]

theorem getLsbD_foldl_setBit_zero {α : Type} {n : Nat} (p : α → Bool) (k : α → Nat) {i : Nat} (hi : i < n) (l : List α) :
    (l.foldl (fun v a => if p a then v ||| BitVec.ofNat n (2 ^ k a) else v) 0).getLsbD i = true ↔
      ∃ a ∈ l, p a = true ∧ k a = i := by
  rw [getLsbD_foldl_setBit p k i l, decide_eq_true hi, Bool.true_and, Bool.or_eq_true_iff, List.any_eq_true]
  simp

end Sys2Proof.Machine
end

section
/-! ## The Boolean processors of a step (R79 to R93) -/

namespace Sys2Proof.Machine

/-- What BP b does in the current step. -/
def Tile.bpAt (e : TileEnv) (x : Tile) (b : Nat) : BpRes := bpExec e x b (x.bpInstr x.step b)

/-- The no-op drives nothing and outputs 0. -/
theorem bpExec_zero (e : TileEnv) (x : Tile) (b : Nat) :
    (bpExec e x b 0).out = false ∧ (bpExec e x b 0).now = false ∧ (bpExec e x b 0).wire = none := by
  have field (hi lo : Nat) : bits 0#64 hi lo = 0 := by simp [bits]
  refine ⟨?_, ?_, ?_⟩
  · simp [bpExec, bit]
  · simp [bpExec, field]
  · simp [bpExec, field]

/-- What the listed BPs do, in rising order. -/
def Tile.bpResults (e : TileEnv) (x : Tile) : List (Nat × BpRes) := x.bpList.map fun p => (p.1, bpExec e x p.1 p.2)

section
variable {e : TileEnv} {x : Tile}

theorem Tile.mem_bpList (w : zeroed x.bpCode) {b : Nat} {i : DWord} :
    (b, i) ∈ x.bpList ↔ b < 512 ∧ x.bpInstr x.step b = i ∧ i ≠ 0 := by
  have entry (k : Nat) (v : DWord) : (k, v) ∈ x.bpCode ↔ Table.get (fun _ => 0) x.bpCode k = v ∧ v ≠ 0 :=
    Table.mem_iff w
  simp only [Tile.bpList, List.mem_map, List.mem_filter, Bool.and_eq_true, decide_eq_true_eq, Prod.mk.injEq]
  constructor
  · rintro ⟨⟨k, v⟩, ⟨mem, low, high⟩, key, rfl⟩
    obtain ⟨reads, nonzero⟩ := (entry k v).mp mem
    refine ⟨by omega, ?_, nonzero⟩
    rw [Tile.bpInstr, ← reads, show x.step * 512 + b = k by omega]
  · rintro ⟨hb, reads, nonzero⟩
    exact ⟨(x.step * 512 + b, i), ⟨(entry _ _).mpr ⟨reads, nonzero⟩, by omega, by omega⟩, by omega, rfl⟩

/-- The listed BPs stand in rising order. -/
theorem Tile.bpResults_rise (w : zeroed x.bpCode) : (x.bpResults e).Pairwise fun a b => a.1 < b.1 := by
  refine List.pairwise_map.mpr (List.pairwise_map.mpr ?_)
  refine (List.Pairwise.filter _ (Table.keys_rise w)).imp_of_mem fun {a b} ha hb rise => ?_
  have low := (List.mem_filter.mp ha).2
  simp only [Bool.and_eq_true, decide_eq_true_eq] at low
  show a.1 - x.step * 512 < b.1 - x.step * 512
  omega

/-- A listed result is that of its BP. -/
theorem Tile.bpResults_eq (w : zeroed x.bpCode) {r : Nat × BpRes} (mem : r ∈ x.bpResults e) :
    r.1 < 512 ∧ r.2 = x.bpAt e r.1 := by
  obtain ⟨⟨b, i⟩, listed, rfl⟩ := List.mem_map.mp mem
  obtain ⟨hb, rfl, -⟩ := (Tile.mem_bpList w).mp listed
  exact ⟨hb, rfl⟩

/-- A BP that does anything is listed. -/
theorem Tile.bpResults_mem (w : zeroed x.bpCode) {b : Nat} (hb : b < 512) (acts : (x.bpAt e b).out = true ∨
    (x.bpAt e b).now = true ∨ (x.bpAt e b).wire.isSome = true) : (b, x.bpAt e b) ∈ x.bpResults e := by
  refine List.mem_map.mpr ⟨(b, x.bpInstr x.step b), (Tile.mem_bpList w).mpr ⟨hb, rfl, fun zero => ?_⟩, rfl⟩
  obtain ⟨out, now, wire⟩ := bpExec_zero e x b
  rw [Tile.bpAt, zero, out, now, wire] at acts
  simp at acts

/-! ### The step bus (R87) -/

/-- The step bus after the step. -/
def Tile.busAfter (e : TileEnv) (x : Tile) : BitVec 512 :=
  (x.bpResults e).foldl (fun v r => if r.2.out then v ||| BitVec.ofNat 512 (2 ^ r.1) else v) 0

theorem Tile.busAfter_bit (w : zeroed x.bpCode) {b : Nat} (hb : b < 512) :
    (x.busAfter e).getLsbD b = (x.bpAt e b).out := by
  rw [Bool.eq_iff_iff, Tile.busAfter, getLsbD_foldl_setBit_zero (fun r : Nat × BpRes => r.2.out) Prod.fst hb]
  constructor
  · rintro ⟨r, mem, out, rfl⟩
    rwa [← (Tile.bpResults_eq w mem).2]
  · intro out
    exact ⟨_, Tile.bpResults_mem w hb (.inl out), out, rfl⟩

/-! ### The now-half (R88, R89) -/

/-- The now-half after writes of step n. -/
def nowAfter (n : Nat) (m : Table (Option Bool)) (l : List (Nat × BpRes)) : Table (Option Bool) :=
  l.foldl (fun m r => if r.2.now then Table.set (fun _ => none) m (r.1 * 1024 + n) (some r.2.out) else m) m

theorem Tile.foldl_writeNow (n : Nat) : ∀ (l : List (Nat × BpRes)) (y : Tile),
    l.foldl (fun y r => if r.2.now then y.writeNow r.1 n r.2.out else y) y =
      { y with nowHalf := nowAfter n y.nowHalf l }
  | [], y => rfl
  | r :: l, y => by
    rw [List.foldl_cons, Tile.foldl_writeNow n l]
    by_cases now : r.2.now = true
    · simp only [nowAfter, List.foldl_cons, now, if_true]
      rfl
    · simp only [nowAfter, List.foldl_cons, now, Bool.false_eq_true, if_false]

/-- A position keeps its value, unless a write of the list hits it: then it holds what every such write gives. -/
theorem get_nowAfter {n k : Nat} {v : Option Bool} : ∀ {l : List (Nat × BpRes)} {m : Table (Option Bool)},
    Table.wf (fun _ => none) m = true →
    (∀ r ∈ l, r.2.now = true → r.1 * 1024 + n = k → some r.2.out = v) →
    (Table.get (fun _ => none) m k = v ∨ ∃ r ∈ l, r.2.now = true ∧ r.1 * 1024 + n = k) →
    Table.get (fun _ => none) (nowAfter n m l) k = v
  | [], m, _, _, h => by simpa [nowAfter] using h
  | r :: l, m, w, hits, h => by
    rw [nowAfter, List.foldl_cons]
    have later : ∀ q ∈ l, q.2.now = true → q.1 * 1024 + n = k → some q.2.out = v :=
      fun q hq => hits q (List.mem_cons_of_mem r hq)
    by_cases now : r.2.now = true
    · rw [if_pos now]
      refine get_nowAfter (l := l) (Table.wf_set w) later ?_
      rw [Table.get_set w]
      by_cases here : k = r.1 * 1024 + n
      · rw [if_pos here]
        exact .inl (hits r List.mem_cons_self now here.symm)
      · rw [if_neg here]
        refine h.imp id ?_
        rintro ⟨q, mem, hit⟩
        rcases List.mem_cons.mp mem with rfl | rest
        · exact absurd hit.2.symm here
        · exact ⟨q, rest, hit⟩
    · rw [if_neg now]
      refine get_nowAfter (l := l) w later (h.imp id ?_)
      rintro ⟨q, mem, hit⟩
      rcases List.mem_cons.mp mem with rfl | rest
      · exact absurd hit.1 now
      · exact ⟨q, rest, hit⟩

/-- The now-half position of a step holds the output of its BP, if that writes it, and what it held otherwise. -/
theorem Tile.nowAfter_own (w : zeroed x.bpCode) (wn : Table.wf (fun _ => none) x.nowHalf = true) {b n : Nat}
    (hb : b < 512) : Table.get (fun _ => none) (nowAfter n x.nowHalf (x.bpResults e)) (b * 1024 + n) =
      if (x.bpAt e b).now then some (x.bpAt e b).out else Table.get (fun _ => none) x.nowHalf (b * 1024 + n) := by
  have hit {r : Nat × BpRes} (mem : r ∈ x.bpResults e) (key : r.1 * 1024 + n = b * 1024 + n) :
      r.2 = x.bpAt e b := by
    rw [(Tile.bpResults_eq w mem).2, show r.1 = b by omega]
  by_cases now : (x.bpAt e b).now = true
  · rw [if_pos now]
    exact get_nowAfter wn (fun r mem _ key => by rw [hit mem key])
      (.inr ⟨_, Tile.bpResults_mem w hb (.inr (.inl now)), now, rfl⟩)
  · rw [if_neg now]
    exact get_nowAfter wn (fun r mem writes key => absurd (hit mem key ▸ writes) now) (.inl rfl)

/-- The positions of other steps keep what they held. -/
theorem nowAfter_other {m : Table (Option Bool)} (wn : Table.wf (fun _ => none) m = true) (l : List (Nat × BpRes))
    {n k b : Nat} (hn : n < 1024) (hk : k < 1024) (other : k ≠ n) :
    Table.get (fun _ => none) (nowAfter n m l) (b * 1024 + k) = Table.get (fun _ => none) m (b * 1024 + k) :=
  get_nowAfter wn (fun r _ _ key => absurd key (by omega)) (.inl rfl)

/-! ### The spine (R92, R93) -/

/-- The wires that the BPs drive: wire, BP, value, in rising order of the BPs. -/
def Tile.bpDrives (e : TileEnv) (x : Tile) : List (Nat × Nat × Bool) :=
  (x.bpResults e).filterMap fun r => r.2.wire.map fun w => (w.1, r.1, w.2)

/-- The value that a list of drives gives a wire: that of the first one. -/
def wireValue (l : List (Nat × Nat × Bool)) (w : Nat) : Bool :=
  match l.find? fun d => d.1 = w with
  | some d => d.2.2
  | none => false

/-- The spine after the step. -/
def Tile.spineAfter (e : TileEnv) (x : Tile) : DWord :=
  (List.range 64).foldl (fun v w =>
    match (x.bpDrives e).find? fun d => d.1 = w with
    | some d => if d.2.2 then v ||| BitVec.ofNat 64 (2 ^ w) else v
    | none => v) (0 : DWord)

theorem Tile.spineAfter_bit {w : Nat} (hw : w < 64) : (x.spineAfter e).getLsbD w = wireValue (x.bpDrives e) w := by
  have step (v : DWord) (u : Nat) : (match (x.bpDrives e).find? fun d => d.1 = u with
      | some d => if d.2.2 then v ||| BitVec.ofNat 64 (2 ^ u) else v
      | none => v) = if wireValue (x.bpDrives e) u then v ||| BitVec.ofNat 64 (2 ^ u) else v := by
    unfold wireValue
    split <;> rfl
  rw [Tile.spineAfter]
  simp only [step]
  rw [Bool.eq_iff_iff]
  refine (getLsbD_foldl_setBit_zero (wireValue (x.bpDrives e)) id hw _).trans ?_
  exact ⟨fun ⟨u, _, on, same⟩ => same ▸ on, fun on => ⟨w, List.mem_range.mpr hw, on, rfl⟩⟩

theorem Tile.mem_bpDrives (w : zeroed x.bpCode) {wire b : Nat} {v : Bool} :
    (wire, b, v) ∈ x.bpDrives e ↔ b < 512 ∧ (x.bpAt e b).wire = some (wire, v) := by
  simp only [Tile.bpDrives, List.mem_filterMap, Option.map_eq_some_iff, Prod.mk.injEq]
  constructor
  · rintro ⟨r, mem, q, drives, rfl, rfl, rfl⟩
    obtain ⟨hb, own⟩ := Tile.bpResults_eq w mem
    exact ⟨hb, own ▸ drives⟩
  · rintro ⟨hb, drives⟩
    exact ⟨_, Tile.bpResults_mem w hb (.inr (.inr (by rw [drives]; rfl))), _, drives, rfl, rfl, rfl⟩

theorem Tile.bpDrives_rise (w : zeroed x.bpCode) : (x.bpDrives e).Pairwise fun a b => a.2.1 < b.2.1 := by
  refine List.Pairwise.filterMap _ (fun a c rise p hp q hq => ?_) (Tile.bpResults_rise w)
  obtain ⟨-, -, rfl⟩ := Option.map_eq_some_iff.mp hp
  obtain ⟨-, -, rfl⟩ := Option.map_eq_some_iff.mp hq
  exact rise

/-- A search in a sorted list stops at an element that no other match comes before. -/
theorem find?_of_first {α : Type} {R : α → α → Prop} {p : α → Bool} {a : α} : ∀ {l : List α}, l.Pairwise R → a ∈ l →
    p a = true → (∀ c ∈ l, p c = true → ¬ R c a) → l.find? p = some a
  | c :: l, sorted, mem, hit, first => by
    obtain ⟨before, rest⟩ := List.pairwise_cons.mp sorted
    rcases List.mem_cons.mp mem with rfl | later
    · exact List.find?_cons_of_pos hit
    · rw [List.find?_cons_of_neg fun head => first c List.mem_cons_self head (before a later)]
      exact find?_of_first rest later hit fun q hq => first q (List.mem_cons_of_mem c hq)

/-- The lowest BP of a wire gives it its value. -/
theorem Tile.wireValue_first (w : zeroed x.bpCode) {wire b : Nat} {v : Bool} (hb : b < 512)
    (drives : (x.bpAt e b).wire = some (wire, v))
    (lowest : ∀ c < b, ∀ u, (x.bpAt e c).wire ≠ some (wire, u)) : wireValue (x.bpDrives e) wire = v := by
  have found : (x.bpDrives e).find? (fun d => d.1 = wire) = some (wire, b, v) := by
    refine find?_of_first (Tile.bpDrives_rise w) ((Tile.mem_bpDrives w).mpr ⟨hb, drives⟩) (by simp) ?_
    rintro ⟨c, d, u⟩ mem hit before
    obtain rfl : c = wire := of_decide_eq_true hit
    exact lowest d before u ((Tile.mem_bpDrives w).mp mem).2
  rw [wireValue, found]

/-- A wire that no BP drives carries 0. -/
theorem Tile.wireValue_free (w : zeroed x.bpCode) {wire : Nat}
    (free : ∀ b < 512, ∀ v, (x.bpAt e b).wire ≠ some (wire, v)) : wireValue (x.bpDrives e) wire = false := by
  have none : (x.bpDrives e).find? (fun d => d.1 = wire) = none := by
    refine List.find?_eq_none.mpr ?_
    rintro ⟨c, b, v⟩ mem hit
    obtain rfl : c = wire := of_decide_eq_true hit
    obtain ⟨hb, drives⟩ := (Tile.mem_bpDrives w).mp mem
    exact free b hb v drives
  rw [wireValue, none]

/-- SPINE_CONFLICT of each wire that two BPs drive. -/
def Tile.bpConflicts (e : TileEnv) (x : Tile) : List StepErr :=
  (List.range 64).filterMap fun w =>
    match (x.bpDrives e).filter fun d => d.1 = w with
    | _ :: d :: _ => some (⟨4, 0x1020, 0, d.2.1, x.step * 2 ^ 22 + w * 2 ^ 16 + d.2.1⟩ : StepErr)
    | _ => none

/-- Two different members of a list make it one of two elements at least. -/
theorem exists_two {α : Type} {l : List α} {a b : α} (ha : a ∈ l) (hb : b ∈ l) (ne : a ≠ b) :
    ∃ p q rest, l = p :: q :: rest := by
  match l with
  | [] => simp at ha
  | [c] => exact absurd ((List.mem_singleton.mp ha).trans (List.mem_singleton.mp hb).symm) ne
  | p :: q :: rest => exact ⟨p, q, rest, rfl⟩

/-- Two BPs on one wire are a SPINE_CONFLICT. -/
theorem Tile.bpConflicts_of_two (w : zeroed x.bpCode) {wire b c : Nat} {u v : Bool} (hw : wire < 64) (hb : b < 512)
    (hc : c < 512) (other : b ≠ c) (first : (x.bpAt e b).wire = some (wire, u))
    (second : (x.bpAt e c).wire = some (wire, v)) : ∃ r ∈ x.bpConflicts e, r.pg = 4 ∧ r.code < 2 ^ 16 := by
  have on {d : Nat} {y : Bool} (hd : d < 512) (drives : (x.bpAt e d).wire = some (wire, y)) :
      (wire, d, y) ∈ (x.bpDrives e).filter fun d => d.1 = wire :=
    List.mem_filter.mpr ⟨(Tile.mem_bpDrives w).mpr ⟨hd, drives⟩, by simp⟩
  obtain ⟨p, q, rest, two⟩ := exists_two (on hb first) (on hc second) (by simp [other])
  refine ⟨⟨4, 0x1020, 0, q.2.1, x.step * 2 ^ 22 + wire * 2 ^ 16 + q.2.1⟩, ?_, rfl, by simp⟩
  exact List.mem_filterMap.mpr ⟨wire, List.mem_range.mpr hw, by rw [two]⟩

/-! ### The step of all BPs -/

/-- What the BPs leave of the tile. -/
theorem Tile.bpStep_tile (e : TileEnv) (x : Tile) : ∃ en, (x.bpStep e).1 = { x with
    nowHalf := nowAfter x.step x.nowHalf (x.bpResults e)
    bus := x.busAfter e, spine := x.spineAfter e, energy := en } := by
  refine ⟨(x.bpStep e).1.energy, ?_⟩
  exact congrArg (fun y : Tile => { y with
    bus := x.busAfter e, spine := x.spineAfter e, energy := (x.bpStep e).1.energy })
    (Tile.foldl_writeNow x.step (x.bpResults e) x)

theorem Tile.bpStep_conflicts {r : StepErr} (mem : r ∈ x.bpConflicts e) : r ∈ (x.bpStep e).2 :=
  List.mem_append_left _ mem

end

end Sys2Proof.Machine
end

section
/-! ## The operands and the output of a BP (R80 to R86) -/

namespace Sys2Proof.Machine

/-- The value of a mailbox operand: the bit of a valid slot, and 0 of an empty one (R83). -/
def Tile.mbxOperand (x : Tile) (b code : Nat) : Bool :=
  bit x.mbxValid (8 * (code - 0x7F2) + b / 64) && bit (x.slot (8 * (code - 0x7F2) + b / 64)) (b % 64)

theorem bpOperand_mbx (e : TileEnv) (x : Tile) (b : Nat) (upper : Bool) {code : Nat} (low : 0x7F2 ≤ code)
    (high : code ≤ 0x7F9) : (bpOperand e x b code upper).1 = x.mbxOperand b code := by
  have h : ¬ code < 0x400 ∧ ¬ code < 0x600 ∧ ¬ code < 0x680 ∧ code ≠ 0x680 ∧ ¬ code < 0x7F0 ∧ code ≠ 0x7F0 ∧
      code ≠ 0x7F1 ∧ code < 0x7FA := by omega
  simp only [bpOperand, h, if_false, if_true, Tile.mbxOperand]
  by_cases valid : bit x.mbxValid (8 * (code - 0x7F2) + b / 64) = true
  · rw [if_pos valid, valid, Bool.true_and]
  · rw [if_neg valid, Bool.eq_false_iff.mpr valid, Bool.false_and]

/-- Every operand select gives one value: the codes in their order, and 0 for those that give none. -/
theorem bpOperand_value (e : TileEnv) (x : Tile) (b code : Nat) (upper : Bool) : (bpOperand e x b code upper).1 =
    if code < 0x400 then (if upper then x.nowBit b code else x.thenBit b code)
    else if code < 0x600 then x.bus.getLsbD (code - 0x400)
    else if code < 0x680 then e.din.getLsbD (code - 0x600)
    else if code = 0x680 then e.first
    else if code = 0x7F1 then true
    else if 0x7F2 ≤ code ∧ code ≤ 0x7F9 then x.mbxOperand b code
    else if code = 0x7FA then (x.tapOf (b / 32)).getLsbD (b % 32)
    else if code = 0x7FB then (x.tapOf (b / 32)).getLsbD (32 + b % 32)
    else false := by
  have regions : code < 0x400 ∨ (¬ code < 0x400 ∧ code < 0x600) ∨ (¬ code < 0x400 ∧ ¬ code < 0x600 ∧ code < 0x680) ∨
      code = 0x680 ∨ (0x680 < code ∧ code < 0x7F0) ∨ code = 0x7F0 ∨ code = 0x7F1 ∨ (0x7F2 ≤ code ∧ code ≤ 0x7F9) ∨
      code = 0x7FA ∨ code = 0x7FB ∨ 0x7FB < code := by omega
  rcases regions with bits | bus | din | rfl | ⟨low, high⟩ | rfl | rfl | ⟨low, high⟩ | rfl | rfl | high
  · simp only [bpOperand, bits, if_true]
  · simp only [bpOperand, bus, if_true, if_false, bit]
  · simp only [bpOperand, din, if_true, if_false, bit]
  · rfl
  · have h : ¬ code < 0x400 ∧ ¬ code < 0x600 ∧ ¬ code < 0x680 ∧ code ≠ 0x680 ∧ code ≠ 0x7F1 ∧ ¬ 0x7F2 ≤ code ∧
        code ≠ 0x7FA ∧ code ≠ 0x7FB := by omega
    simp only [bpOperand, h, high, if_true, if_false, false_and]
  · rfl
  · rfl
  · have h : ¬ code < 0x400 ∧ ¬ code < 0x600 ∧ ¬ code < 0x680 ∧ code ≠ 0x680 ∧ code ≠ 0x7F1 := by omega
    rw [bpOperand_mbx e x b upper low high]
    simp only [h, low, high, if_true, if_false, and_self]
  · rfl
  · rfl
  · have h : ¬ code < 0x400 ∧ ¬ code < 0x600 ∧ ¬ code < 0x680 ∧ code ≠ 0x680 ∧ ¬ code < 0x7F0 ∧ code ≠ 0x7F0 ∧
        code ≠ 0x7F1 ∧ ¬ code < 0x7FA ∧ ¬ code ≤ 0x7F9 ∧ code ≠ 0x7FA ∧ code ≠ 0x7FB := by omega
    simp only [bpOperand, h, if_false, and_false]

/-- The output of a BP: the bit of its table that the operands a, b, c and d select (R80, R81). -/
theorem Tile.bpAt_out (e : TileEnv) (x : Tile) (b : Nat) :
    let i := x.bpInstr x.step b
    let value (code : Nat) (upper : Bool) : Bool := (bpOperand e x b code upper).1
    let d := if bits i 3 2 = 2 then i.getLsbD 0 else value (bits i 14 4) true
    (x.bpAt e b).out = i.getLsbD (48 + 8 * b2n d + 4 * b2n (value (bits i 25 15) true) +
      2 * b2n (value (bits i 36 26) false) + b2n (value (bits i 47 37) false)) := by
  intro i value d
  have operand : (if bits i 3 2 = 2 then (bit i 0, none) else bpOperand e x b (bits i 14 4) true).1 = d :=
    apply_ite Prod.fst ..
  rw [← operand]
  simp only [Tile.bpAt, bpExec]
  rfl

/-- WR 1 and 2 write the now-half (R88). -/
theorem Tile.bpAt_now (e : TileEnv) (x : Tile) (b : Nat) : (x.bpAt e b).now =
    (decide (bits (x.bpInstr x.step b) 3 2 = 1) || decide (bits (x.bpInstr x.step b) 3 2 = 2)) := rfl

/-- WR 2 drives the wire that OPD names, with the complement where SP[1] is set (R92). -/
theorem Tile.bpAt_wire (e : TileEnv) (x : Tile) (b wire : Nat) (v : Bool) : (x.bpAt e b).wire = some (wire, v) ↔
    (bits (x.bpInstr x.step b) 3 2 = 2 ∧ bits (x.bpInstr x.step b) 9 4 = wire) ∧
      v = ((x.bpAt e b).out != (x.bpInstr x.step b).getLsbD 1) := by
  have wire_eq : (x.bpAt e b).wire = if bits (x.bpInstr x.step b) 3 2 = 2 then
      some (bits (x.bpInstr x.step b) 9 4, (x.bpAt e b).out != (x.bpInstr x.step b).getLsbD 1) else none := by
    simp only [Tile.bpAt, bpExec, bit]
  rw [wire_eq]
  split
  · next drives => simp [drives, eq_comm]
  · next other => simp [other]

end Sys2Proof.Machine
end

section
/-! ## A step without work in flight (R75, R112) -/

namespace Sys2Proof.Machine

section
variable {t : Nat} {s : State}

/-- A tile with no work in flight passes the flow of results and accesses: only its dirty bits and counters are
written again. -/
theorem Tile.flow_idle (e : TileEnv) {x : Tile} (results : x.results = []) (accesses : x.accesses = []) (n : Nat) :
    (∃ d0 d1 en, ((x.landDue n).pantryStep e n).x = { x with dirty0 := d0, dirty1 := d1, energy := en }) ∧
    ((x.landDue n).pantryStep e n).errs = [] ∧ ((x.landDue n).pantryStep e n).watches = [] := by
  have later : x.results.filter (fun w => decide (n < w.due)) = x.results := by rw [results, List.filter_nil]
  have pending : x.pendingAfter n = x := by rw [Tile.pendingAfter, later]
  have landed : x.landDue n = x := by
    rw [Tile.landDue_eq, pending, results, List.filter_nil, List.foldl_nil]
  have due : x.dueBy n = [] := by rw [Tile.dueBy, accesses, List.filter_nil]
  have kept : x.accesses.filter (fun a => decide (n < a.step + 2)) = x.accesses := by rw [accesses, List.filter_nil]
  obtain ⟨d0, d1, en, done⟩ := Tile.pantryStep_tile e x n
  rw [due, kept, List.filter_nil, List.map_nil, List.append_nil] at done
  rw [landed, Tile.pantryStep_errs, Tile.pantryStep_watches, due]
  exact ⟨⟨d0, d1, en, done⟩, rfl, rfl⟩

/-- Without work in flight the flow of a step meets no error; it writes its tile's dirty bits and counters and the
stall counter. -/
theorem State.flowErrs_idle (results : (s.tile t).results = []) (accesses : (s.tile t).accesses = []) (n : Nat) :
    ∃ d0 d1 en stall, s.flowErrs t n = ((s.setTile t
      { s.tile t with dirty0 := d0, dirty1 := d1, energy := en }).countReg .tilDpStall 0xFFFFFFFF stall t, []) := by
  obtain ⟨⟨d0, d1, en, tile⟩, errs, watches⟩ := Tile.flow_idle (s.env t) results accesses n
  refine ⟨d0, d1, en, (((s.tile t).landDue n).pantryStep (s.env t) n).stall, ?_⟩
  unfold State.flowErrs
  simp only [tile, errs, watches]
  rfl

theorem Tile.ctrlErrs_zero (x : Tile) : x.ctrlErrs 0 = [] := rfl

theorem State.holdOf_zero (s : State) (t : Nat) : s.holdOf t 0 = none := rfl

theorem State.ctrlAct_zero (s : State) (t : Nat) : s.ctrlAct t 0 = s := rfl

theorem State.replayArrivals_none (live : s.prf.replay = []) (n : Nat) : s.replayArrivals t n = s := by
  unfold State.replayArrivals
  rw [live]
  rfl

/-- A step whose control word is NOP runs its units, records their errors and goes to the next step. -/
theorem State.runStep_nop (nop : (s.tile t).ctrlWord (s.tile t).step = 0) (more : (s.tile t).step < 1023) :
    s.runStep t [] = ((s.execUnits t).1.stepErrs t (s.execUnits t).2).advance t := by
  have op : bits (0 : Word) 31 28 = 0 := by decide
  unfold State.runStep
  simp only [nop, op, State.ctrlAct_zero, Tile.ctrlErrs_zero, List.nil_append, List.append_nil, more.ne, if_false,
    OfNat.zero_ne_ofNat]

/-- A tile whose BPs and WUs ran a step: the now-half, the step bus and the spine are those of its BPs. -/
structure UnitsRan (e : TileEnv) (x y : Tile) : Prop where
  now : y.nowHalf = nowAfter x.step x.nowHalf (x.bpResults e)
  bus : y.bus = x.busAfter e
  spine : y.spine = x.spineAfter e
  hold : y.hold = none
  phase : y.phase = x.phase
  thenHalf : y.thenHalf = x.thenHalf
  flags : y.flags = x.flags
  pantry : y.pantry = x.pantry

/-- The BPs and WUs of a step change their own tile only, and report the spine conflicts of its BPs. -/
theorem State.execUnits_runs (s : State) (t : Nat) : ∃ y,
    (s.execUnits t).1 = s.setTile t y ∧ y.step = (s.tile t).step ∧
    UnitsRan (s.env t) (s.tile t) y ∧ ∀ r ∈ (s.tile t).bpConflicts (s.env t), r ∈ (s.execUnits t).2 := by
  obtain ⟨en, tile⟩ := (s.tile t).bpStep_tile (s.env t)
  have stored : (s.execUnits t).1 = s.setTile t { ((s.tile t).bpStep (s.env t)).1 with
      results := (s.tile t).wuStep.1.results, accesses := (s.tile t).wuStep.1.accesses, hold := none
      energy := { ((s.tile t).bpStep (s.env t)).1.energy with
        alu := (s.tile t).wuStep.1.energy.alu, mul := (s.tile t).wuStep.1.energy.mul
        steps := ((s.tile t).bpStep (s.env t)).1.energy.steps + 1 } } := rfl
  rw [tile] at stored
  exact ⟨_, stored, rfl, ⟨rfl, rfl, rfl, rfl, rfl, rfl, rfl, rfl⟩, fun r mem =>
    List.mem_append_left _ (Tile.bpStep_conflicts mem)⟩

/-- A NOP step of a tile with no work in flight: its units run, its BPs with the pins and the first-batch flag of the
device, the errors are recorded, and the tile goes to the next step. -/
theorem State.tileStep_nop (w : s.Canonical) (live : s.prf.replay = [])
    (nop : (s.tile t).ctrlWord (s.tile t).step = 0) (more : (s.tile t).step < 1023)
    (results : (s.tile t).results = []) (accesses : (s.tile t).accesses = []) :
    ∃ e : TileEnv, e.din = s.pins.din ∧ e.first = decide (s.run.batch = s.ldr.firstBatch) ∧
      UnitsRan e (s.tile t) ((s.tileStep t).tile t) ∧ ((s.tileStep t).tile t).step = (s.tile t).step + 1 ∧
      TilesBut t s (s.tileStep t) ∧
      ∀ r ∈ (s.tile t).bpConflicts e, r.code < 2 ^ 16 →
        0 < bits ((s.tileStep t).reg (tilePage t r.pg + 0x18)) 31 16 := by
  obtain ⟨d0, d1, en, stall, flow⟩ := State.flowErrs_idle results accesses (s.tile t).step
  set x : Tile := { s.tile t with dirty0 := d0, dirty1 := d1, energy := en }
  set q := (s.setTile t x).countReg .tilDpStall 0xFFFFFFFF stall t
  have regs : Table.wf regInit q.regs = true := State.wf_setReg (s := s.setTile t x) w.1
  have tiles : q.TilesWf := State.wf_setTile w.2.1
  have each (k : Nat) : q.tile k = if k = t then x else s.tile k := State.tile_setTile w.2.1
  have own : q.tile t = x := (each t).trans (if_pos rfl)
  obtain ⟨y, stored, same, ran, conflicts⟩ := q.execUnits_runs t
  have run : s.tileStep t = ((q.setTile t y).stepErrs t (q.execUnits t).2).advance t := by
    rw [← stored, ← State.runStep_nop (by rw [own]; exact nop) (by rw [own]; exact more)]
    simp only [State.tileStep, State.replayArrivals_none live, nop, State.holdOf_zero, flow]
  have last : ((q.setTile t y).stepErrs t (q.execUnits t).2).TilesWf := by
    rw [State.TilesWf, State.stepErrs_tiles]
    exact State.wf_setTile tiles
  have mine : ((q.setTile t y).stepErrs t (q.execUnits t).2).tile t = y := by
    rw [State.stepErrs_tile, State.tile_setTile tiles, if_pos rfl]
  have now : (s.tileStep t).tile t = { y with step := y.step + 1 } := by
    rw [run, State.advance, State.modTile, State.tile_setTile last, if_pos rfl, mine]
  rw [own] at same ran conflicts
  refine ⟨q.env t, rfl, rfl, ?_, ?_, fun k other => ?_, fun r mem code => ?_⟩
  · rw [now]
    exact ⟨ran.now, ran.bus, ran.spine, ran.hold, ran.phase, ran.thenHalf, ran.flags, ran.pantry⟩
  · rw [now]
    exact congrArg (· + 1) same
  · rw [run, State.advance, State.modTile, State.tile_setTile last, if_neg other, State.stepErrs_tile,
      State.tile_setTile tiles, if_neg other, each, if_neg other]
  · rw [run]
    exact State.stepErrs_count (s := q.setTile t y) regs (conflicts r mem) code

/-! ### What the units leave, bit by bit -/

section
variable {e : TileEnv} {x y : Tile} (canon : x.Canonical)
include canon

theorem Tile.Canonical.bpCode : zeroed x.bpCode := by
  obtain ⟨-, -, -, -, -, -, -, -, -, -, -, -, code, -⟩ := canon
  exact code

theorem Tile.Canonical.nowHalf : Table.wf (fun _ => none) x.nowHalf = true := canon.2.2.1

theorem UnitsRan.bus_bit (ran : UnitsRan e x y) {b : Nat} (hb : b < 512) : y.bus.getLsbD b = (x.bpAt e b).out :=
  ran.bus ▸ Tile.busAfter_bit canon.bpCode hb

theorem UnitsRan.nowBit_own (ran : UnitsRan e x y) {b : Nat} (hb : b < 512) :
    y.nowBit b x.step = if (x.bpAt e b).now then (x.bpAt e b).out else x.nowBit b x.step := by
  unfold Tile.nowBit Tile.thenBit
  rw [ran.now, ran.thenHalf, Tile.nowAfter_own canon.bpCode canon.nowHalf hb]
  by_cases writes : (x.bpAt e b).now = true
  · rw [if_pos writes, if_pos writes]
  · rw [if_neg writes, if_neg writes]

theorem UnitsRan.nowBit_other (ran : UnitsRan e x y) {b n : Nat} (short : x.step < 1024) (hn : n < 1024)
    (other : n ≠ x.step) : y.nowBit b n = x.nowBit b n := by
  unfold Tile.nowBit Tile.thenBit
  rw [ran.now, ran.thenHalf, nowAfter_other canon.nowHalf _ short hn other]

theorem UnitsRan.spine_free (ran : UnitsRan e x y) {wire : Nat} (hw : wire < 64)
    (free : ∀ b < 512, ∀ v, (x.bpAt e b).wire ≠ some (wire, v)) : y.spine.getLsbD wire = false := by
  rw [ran.spine, Tile.spineAfter_bit hw, Tile.wireValue_free canon.bpCode free]

theorem UnitsRan.spine_first (ran : UnitsRan e x y) {wire b : Nat} {v : Bool} (hw : wire < 64) (hb : b < 512)
    (drives : (x.bpAt e b).wire = some (wire, v)) (lowest : ∀ c < b, ∀ u, (x.bpAt e c).wire ≠ some (wire, u)) :
    y.spine.getLsbD wire = v := by
  rw [ran.spine, Tile.spineAfter_bit hw, Tile.wireValue_first canon.bpCode hb drives lowest]

end

end

/-- Settles O13: the step stores what its BPs give. Each BP's output is the table bit of its operands, and each bit of
the bus, the now-half and the spine is that of the BP that writes or drives it. -/
theorem tileStepRunsProcessors : Obligations.TileStepRunsProcessors := by
  intro t s w ht st live nop more results accesses x value i wr d out drives
  have canon : x.Canonical := w.2.2.1 t
  have running : s.executing t = true ∧ x.hold = none := by simpa [State.stepping] using st
  have phase : x.phase = .exec := by
    have parts := running.1
    simp only [State.executing, Bool.and_eq_true, decide_eq_true_eq] at parts
    exact parts.1.1
  obtain ⟨e, din, first, ran, step, others, errors⟩ := State.tileStep_nop w live nop more results accesses
  have values (b code : Nat) (upper : Bool) : (bpOperand e x b code upper).1 = value b code upper := by
    rw [bpOperand_value, din, first]
    rfl
  have outs (b : Nat) : (x.bpAt e b).out = out b := by
    rw [Tile.bpAt_out]
    simp only [values]
    rfl
  have wires {b wire : Nat} {v : Bool} : (x.bpAt e b).wire = some (wire, v) ↔
      drives b wire ∧ v = (out b != (i b).getLsbD 1) := by
    rw [Tile.bpAt_wire, outs]
  refine ⟨s.tileStep t, ?_, step, ran.phase.trans phase, ran.hold, others, ran.thenHalf, ran.flags, ran.pantry,
    fun b hb => ⟨(ran.bus_bit canon hb).trans (outs b), ?_⟩, fun b n _ hn other => ?_, fun wire hw free => ?_,
    fun b wire hb hw here lowest => ?_, ?_⟩
  · refine (onTile_of ht _).trans (whenDue_of ?_ _ _)
    rw [running.1, running.2]
    rfl
  · rw [ran.nowBit_own canon hb, outs, Tile.bpAt_now, ← Bool.decide_or]
    simp only [decide_eq_true_eq]
    rfl
  · exact ran.nowBit_other canon (more.trans (Nat.lt_succ_self 1023)) hn other
  · exact ran.spine_free canon hw fun b hb v driven => free b hb (wires.mp driven).1
  · exact ran.spine_first canon hw hb (wires.mpr ⟨here, rfl⟩) fun c lower u driven =>
      lowest c lower (wires.mp driven).1
  · rintro ⟨b, c, wire, lower, hc, hw, one, two⟩
    obtain ⟨r, mem, page, code⟩ := Tile.bpConflicts_of_two canon.bpCode hw (lower.trans hc) hc lower.ne
      (wires.mpr ⟨one, rfl⟩) (wires.mpr ⟨two, rfl⟩)
    have count := errors r mem code
    rwa [page] at count

end Sys2Proof.Machine
end

section
/-! ## An increment above 15 (R120) -/

namespace Sys2Proof.Machine

/-- A flag set reads back, and every other flag reads as before. -/
theorem Tile.flag_setFlag {x : Tile} (w : zeroed x.flags) {f v : Nat} (hv : v < 16) (g : Nat) :
    (x.setFlag f v).flag g = if g = f then v else x.flag g := by
  have read : Table.get (fun _ => (0 : BitVec 4)) (x.setFlag f v).flags g =
      if g = f then BitVec.ofNat 4 v else Table.get (fun _ => 0) x.flags g := Table.get_set w
  rw [Tile.flag, read]
  split
  · rw [BitVec.toNat_ofNat, Nat.mod_eq_of_lt hv]
  · rfl

/-- An increment leaves every other flag alone. -/
theorem Tile.flag_incFlag_other {x : Tile} (w : zeroed x.flags) {f g : Nat} (other : g ≠ f) :
    (x.incFlag f).1.flag g = x.flag g := by
  have lt := x.flag_lt f
  unfold Tile.incFlag
  split
  · rfl
  · rw [Tile.flag_setFlag w (by omega), if_neg other]

/-- A packet's increment is lost where its flag stands at 15. -/
theorem Tile.take_lost (x : Tile) (p : Packet) : (x.take p).2.2 = decide (x.flag p.flag = 15) := by
  have same : (x.takeData p).1.flag p.flag = x.flag p.flag := by rw [Tile.flag, Tile.takeData_flags, Tile.flag]
  show ((x.takeData p).1.incFlag p.flag).2 = _
  rw [Tile.incFlag, same]
  split
  · next full => exact (decide_eq_true full).symm
  · next below => exact (decide_eq_false below).symm

/-- The data part of a packet does not depend on the flags. -/
theorem Tile.takeData_withFlags (x : Tile) (p : Packet) (m : Table (BitVec 4)) :
    (({ x with flags := m } : Tile).takeData p).1 = { (x.takeData p).1 with flags := m } := by
  cases kind : p.kind with
  | queue =>
    by_cases room : x.qLen p.index < 16
    · have same : ({ x with flags := m } : Tile).qLen p.index < 16 := room
      simp only [Tile.takeData, kind, Tile.enqueue, room, same, if_true]
      rfl
    · have full : ¬ ({ x with flags := m } : Tile).qLen p.index < 16 := room
      simp only [Tile.takeData, kind, Tile.enqueue, room, full, if_false]
  | mailbox => simp only [Tile.takeData, kind, Tile.writeSlot]
  | _ => simp only [Tile.takeData, kind]

/-- An error counted: COUNT of its page rises by one, up to 0xFFFF (R60). -/
theorem State.err_count {s : State} (w : Table.wf regInit s.regs = true) (page info : Nat) {code : Nat}
    (hc : code < 2 ^ 16) : bits ((s.err page code info).reg (page + 0x18)) 31 16 =
      min 0xFFFF (bits (s.reg (page + 0x18)) 31 16 + 1) := by
  by_cases first : bits (s.reg (page + 0x18)) 31 16 = 0
  · rw [(State.err_first w code info first).1, first]
    simp only [bits, BitVec.extractLsb'_toNat, BitVec.toNat_ofNat, Nat.shiftRight_eq_div_pow]
    omega
  · unfold State.err
    simp only [first, if_false]
    rw [State.cause, State.reg_raise (State.wf_setReg w), if_neg (by omega), State.reg_setReg w, if_pos rfl]
    simp only [bits, BitVec.extractLsb'_toNat, BitVec.toNat_ofNat, Nat.shiftRight_eq_div_pow, satAdd]
    omega

section
variable {t : Nat} {p : Packet} {s : State}

/-- What a packet stores beside the flags does not depend on them. -/
theorem State.tileTaken_withFlags (w : s.TilesWf) (m : Table (BitVec 4)) :
    ∃ n, (s.setTile t { s.tile t with flags := m }).tileTaken t p = { s.tileTaken t p with flags := n } := by
  have mine : (s.setTile t { s.tile t with flags := m }).tile t = { s.tile t with flags := m } := by
    rw [State.tile_setTile w, if_pos rfl]
  refine ⟨((s.setTile t { s.tile t with flags := m }).tileTaken t p).flags, ?_⟩
  unfold State.tileTaken
  rw [mine, State.setTile_ldr, Tile.take_tile, Tile.takeData_withFlags, Tile.take_tile (s.tile t)]
  split <;> rfl

/-- A packet applied leaves every flag but its own alone. -/
theorem State.applyPacket_flag_other (w : s.Canonical) {g : Nat} (other : g ≠ p.flag) :
    ((s.applyPacket t p).tile t).flag g = (s.tile t).flag g := by
  have ⟨_, _, _, _, _, _, _, flags, _⟩ := w.2.2.1 t
  have same := (s.tile t).takeData_flags p
  have kept : ((s.tile t).take p).1.flag g = (s.tile t).flag g := by
    refine (Tile.flag_incFlag_other (same ▸ flags) other).trans ?_
    rw [Tile.flag, same, Tile.flag]
  rw [State.applyPacket_tile w.2.1, State.tileTaken_eq]
  exact kept

/-- What a packet records on page 1 of its tile: FLAG_OVERFLOW where its increment is lost, and nothing else. -/
theorem State.applyPacket_errStat (w : Table.wf regInit s.regs = true) : ∃ q : State, ∃ info : Nat,
    Table.wf regInit q.regs = true ∧ q.reg (tilePage t 1 + 0x18) = s.reg (tilePage t 1 + 0x18) ∧
    (s.applyPacket t p).reg (tilePage t 1 + 0x18) =
      if (s.tile t).flag p.flag = 15 then (q.tileErr t 1 0x1011 info).reg (tilePage t 1 + 0x18)
      else q.reg (tilePage t 1 + 0x18) := by
  let x : State := s.setTile t (s.tileTaken t p)
  let q : State := if ((s.tile t).take p).2.1 then (x.tileErr t 3 0x1012 (srcInfo p + p.index * 2 ^ 11)).haltRequest 8
    else x
  have before : Table.wf regInit q.regs = true ∧ q.reg (tilePage t 1 + 0x18) = s.reg (tilePage t 1 + 0x18) := by
    show Table.wf regInit (ite _ _ _ : State).regs = true ∧ (ite _ _ _ : State).reg _ = _
    split
    · rw [State.haltRequest_regs, State.haltRequest_reg, State.tileErr,
        State.err_regsBut (s := x) w _ _ _ _ (tilePage_errRegs (by decide))]
      exact ⟨State.wf_err (s := x) w _ _ _, rfl⟩
    · exact ⟨w, rfl⟩
  have after : s.applyPacket t p = if ((s.tile t).take p).2.2
      then (q.tileErr t 1 0x1011 (srcInfo p + p.flag * 2 ^ 7)).haltRequest 8 else q := rfl
  refine ⟨q, srcInfo p + p.flag * 2 ^ 7, before.1, before.2, ?_⟩
  rw [after, Tile.take_lost]
  by_cases lost : (s.tile t).flag p.flag = 15
  · rw [if_pos (decide_eq_true lost), if_pos lost, State.haltRequest_reg]
  · rw [if_neg (by simp [lost]), if_neg lost]

end

/-- Settles O18: the flag's increment is that of `incFlag`, its loss alone is recorded on page 1, and the data part of
a packet does not depend on the flags. -/
theorem flagIncrementSaturates : Obligations.FlagIncrementSaturates := by
  intro t p s w _ _ x r y z errs
  obtain ⟨q, info, wq, same, stat⟩ := State.applyPacket_errStat (t := t) (p := p) w.1
  obtain ⟨n, data⟩ := State.tileTaken_withFlags (t := t) (p := p) w.2.1 []
  have stored : z = { y with flags := n } := by
    show State.tile (State.applyPacket _ t p) t = { (s.applyPacket t p).tile t with flags := n }
    rw [State.applyPacket_tile (State.wf_setTile w.2.1), State.applyPacket_tile w.2.1, data]
  refine ⟨State.applyPacket_flag w, fun g other => State.applyPacket_flag_other w other, fun below => ?_,
    fun full => ?_, ?_⟩
  · exact stat.trans ((if_neg below.ne).trans same)
  · have lost : errs r = (q.tileErr t 1 0x1011 info).reg (tilePage t 1 + 0x18) := stat.trans (if_pos full)
    have count := State.err_count wq (tilePage t 1) info (show 0x1011 < 2 ^ 16 by decide)
    rw [same] at count
    exact ⟨lost ▸ count, fun none => lost.trans (State.err_first wq 0x1011 info (same.symm ▸ none)).1⟩
  · rw [stored]
    exact ⟨rfl, rfl, rfl, rfl, rfl, rfl⟩

end Sys2Proof.Machine
end

section
/-! ## What a step of a tile leaves of it (R75, R101, R103, R112) -/

namespace Sys2Proof.Machine

/-- Work in flight has moved on: no other part of the tile changes. -/
def Tile.Flowed (x y : Tile) : Prop := y = { x with
  wuReg := y.wuReg, tap := y.tap, results := y.results, accesses := y.accesses, pantry := y.pantry
  dirty0 := y.dirty0, dirty1 := y.dirty1, energy := y.energy }

theorem Tile.Flowed.refl (x : Tile) : x.Flowed x := rfl

theorem Tile.Flowed.trans {x y z : Tile} (a : x.Flowed y) (b : y.Flowed z) : x.Flowed z := by
  rw [Tile.Flowed, b, a]

/-- The tile stands at the same step, with the same control words and flags. -/
theorem Tile.Flowed.stands {x y : Tile} (a : x.Flowed y) :
    y.step = x.step ∧ (∀ n, y.ctrlWord n = x.ctrlWord n) ∧ y.flags = x.flags := by
  rw [a]
  exact ⟨rfl, fun _ => rfl, rfl⟩

/-- A result that lands changes registers and taps. -/
theorem Tile.land_flowed (x : Tile) (w : WuResult) : x.Flowed (x.land w) := by
  have hi (x : Tile) : x.Flowed (x.landHi w) := by
    unfold Tile.landHi
    split <;> rfl
  have tap (x : Tile) : x.Flowed (x.landTap w) := by
    unfold Tile.landTap
    split <;> rfl
  have lo : x.Flowed (x.setWreg w.wu w.dst w.lo) := rfl
  rw [Tile.land_eq]
  exact (lo.trans (hi _)).trans (tap _)

theorem Tile.landDue_flowed (x : Tile) (n : Nat) : x.Flowed (x.landDue n) := by
  have all : ∀ (l : List WuResult) (x : Tile), x.Flowed (l.foldl Tile.land x) := by
    intro l
    induction l with
    | nil => exact Tile.Flowed.refl
    | cons w l ih => exact fun x => (x.land_flowed w).trans (ih _)
  have rest : x.Flowed (x.pendingAfter n) := rfl
  exact rest.trans (all _ _)

theorem Tile.pantryStep_flowed (e : TileEnv) (x : Tile) (n : Nat) : x.Flowed (x.pantryStep e n).x := by
  obtain ⟨d0, d1, en, done⟩ := x.pantryStep_tile e n
  rw [done]
  rfl

theorem TilesBut.trans {t : Nat} {s q r : State} (a : TilesBut t s q) (b : TilesBut t q r) : TilesBut t s r :=
  fun k other => (b k other).trans (a k other)

/-- A change of tile t alone, seen from the tile and from the others. -/
theorem MapsTiles.one {t : Nat} {R : Tile → Tile → Prop} {s r : State} (a : MapsTiles [t] R s r) :
    R (s.tile t) (r.tile t) ∧ TilesBut t s r :=
  ⟨a.on t (List.mem_singleton_self t), fun k other => a.off k (by simpa using other)⟩

/-- Work of tile t: its work in flight moves on, no other tile changes, and what a replay has still to give stays. -/
structure Flows (t : Nat) (s r : State) : Prop where
  tiles : s.TilesWf → MapsTiles [t] Tile.Flowed s r
  replay : r.prf.replay = s.prf.replay

section
variable {t : Nat} {s q r : State}

theorem Flows.refl (t : Nat) (s : State) : Flows t s s :=
  ⟨fun w => ⟨w, fun _ _ => Tile.Flowed.refl _, fun _ _ => rfl⟩, rfl⟩

theorem Flows.trans (a : Flows t s q) (b : Flows t q r) : Flows t s r := by
  refine ⟨fun w => ?_, b.replay.trans a.replay⟩
  have first := a.tiles w
  exact (first.trans (b.tiles first.wf)).mono fun x z ⟨_, one, two⟩ => one.trans two

theorem Flows.foldl {α : Type} {f : State → α → State} (step : ∀ s a, Flows t s (f s a)) :
    ∀ (l : List α) (s : State), Flows t s (l.foldl f s)
  | [], s => Flows.refl t s
  | a :: l, s => (step s a).trans (Flows.foldl step l (f s a))

/-- What leaves the tiles alone and lets the run go on. -/
theorem Flows.of_tiles (tiles : r.tiles = s.tiles) (on : RunsOn s r) : Flows t s r :=
  ⟨fun w => ((Flows.refl t s).tiles w).of_tiles rfl tiles, on.replay⟩

/-- The hit of a comparator lets the run go on. -/
theorem State.acmpHit_runsOn (s : State) (j : Nat) (a : Seen) : RunsOn s (s.acmpHit j a) := by
  have reg (s : State) (addr : Nat) (v : Word) : RunsOn s (s.setReg addr v) :=
    RunsOn.of_only (s.setReg_only addr v) (by simp) (by simp)
  have halt (s : State) (b : Bool) : RunsOn s (if b then s.haltRequest 4 else s) := by
    split
    · exact s.haltRequest_runsOn 4
    · exact RunsOn.refl s
  have cause (s : State) (b : Bool) : RunsOn s (if b then s.cause runPage 3 else s) := by
    split
    · exact RunsOn.of_only (s.raise_only _ _) (by simp) (by simp)
    · exact RunsOn.refl s
  unfold State.acmpHit
  extract_lets c lo counted recorded halted
  have record : RunsOn counted recorded := by
    show RunsOn _ (if _ then _ else _)
    split
    · exact RunsOn.refl _
    · exact ((reg _ _ _).trans ((reg _ _ _).trans (reg _ _ _))).trans ((reg _ _ _).trans (reg _ _ _))
  exact (((reg s _ _).trans record).trans (halt _ _)).trans (cause _ _)

theorem State.watch_flows (s : State) (a : Seen) : Flows t s (s.watch a) := by
  have hit (s : State) (j : Nat) : Flows t s (s.acmpHit j a) :=
    Flows.of_tiles ((s.acmpHit_only j a).2 .tiles (by simp)) (s.acmpHit_runsOn j a)
  unfold State.watch
  split
  · exact Flows.refl t s
  · refine Flows.foldl (fun s j => ?_) _ s
    split
    · exact hit s j
    · exact Flows.refl t s

theorem State.watchAll_flows (s : State) (l : List Watch) : Flows t s (s.watchAll t l) :=
  Flows.foldl (fun s _ => s.watch_flows _) l s

/-- The errors of a step let the run go on. -/
theorem State.stepErrs_runsOn (s : State) (t : Nat) (l : List StepErr) : RunsOn s (s.stepErrs t l) := by
  rcases s.stepErrs_eq t l with h | h
  · rw [h]
    exact RunsOn.refl s
  · rw [h]
    exact (RunsOn.of_only (s.tileErrs_only t _) (by simp) (by simp)).trans (State.haltRequest_runsOn _ 8)

theorem State.stepErrs_flows (s : State) (l : List StepErr) : Flows t s (s.stepErrs t l) :=
  Flows.of_tiles (s.stepErrs_tiles t l) (s.stepErrs_runsOn t l)

/-- The results and accesses due at a step. -/
theorem State.flowErrs_flows (s : State) (t n : Nat) : Flows t s (s.flowErrs t n).1 := by
  let x := ((s.tile t).landDue n).pantryStep (s.env t) n
  have stored : Flows t s ((s.setTile t x.x).countReg .tilDpStall 0xFFFFFFFF x.stall t) :=
    ⟨fun w => (State.setTile_maps w t (((s.tile t).landDue_flowed n).trans
      (Tile.pantryStep_flowed (s.env t) _ n))).of_tiles rfl rfl, rfl⟩
  exact stored.trans (State.watchAll_flows _ _)

theorem State.flow_flows (s : State) (t n : Nat) : Flows t s (s.flow t n) :=
  (s.flowErrs_flows t n).trans (State.stepErrs_flows _ _)

/-- A tile stored: it reads back, and nothing but it changes. -/
theorem State.setTile_frame (w : s.TilesWf) (t : Nat) (x : Tile) :
    (s.setTile t x).tile t = x ∧ TilesBut t s (s.setTile t x) ∧ Only [.tiles] s (s.setTile t x) :=
  ⟨(State.tile_setTile w).trans (if_pos rfl), fun _ other => (State.tile_setTile w).trans (if_neg other),
    s.setTile_only t x⟩

/-! ### The end of a step -/

/-- A step that does not hold once the arrivals of a replay are in: work due takes place and the step runs. -/
theorem State.tileStep_runs (arrived : s.replayArrivals t (s.tile t).step = q)
    (free : q.holdOf t ((q.tile t).ctrlWord (s.tile t).step) = none) : s.tileStep t =
      (q.flowErrs t (s.tile t).step).1.runStep t (q.flowErrs t (s.tile t).step).2 := by
  subst arrived
  simp only [State.tileStep, free]

/-- A step that neither moves a queue entry nor ends the recipe: its control word acts, its units run, its errors are
recorded and the tile goes on. -/
theorem State.runStep_next (errs : List StepErr) (deq : bits ((s.tile t).ctrlWord (s.tile t).step) 31 28 ≠ 5)
    (last : bits ((s.tile t).ctrlWord (s.tile t).step) 31 28 ≠ 15) (more : (s.tile t).step ≠ 1023) :
    ∃ l, s.runStep t errs =
      (((s.ctrlAct t ((s.tile t).ctrlWord (s.tile t).step)).execUnits t).1.stepErrs t l).advance t := by
  unfold State.runStep
  simp only [deq, last, more, if_false]
  exact ⟨_, rfl⟩

/-- After such a step the tile does not hold and stands at its next step, and no other tile has changed since its
control word acted. -/
theorem State.runStep_advances (errs : List StepErr) (deq : bits ((s.tile t).ctrlWord (s.tile t).step) 31 28 ≠ 5)
    (last : bits ((s.tile t).ctrlWord (s.tile t).step) 31 28 ≠ 15) (more : (s.tile t).step ≠ 1023)
    (acted : s.ctrlAct t ((s.tile t).ctrlWord (s.tile t).step) = q) (w : q.TilesWf) :
    ((s.runStep t errs).tile t).hold = none ∧ ((s.runStep t errs).tile t).step = (q.tile t).step + 1 ∧
    ((s.runStep t errs).tile t).flags = (q.tile t).flags ∧ TilesBut t q (s.runStep t errs) := by
  obtain ⟨l, run⟩ := State.runStep_next errs deq last more
  obtain ⟨y, stored, step, ran, -⟩ := q.execUnits_runs t
  rw [acted, stored] at run
  obtain ⟨own, others, -⟩ := State.setTile_frame w t y
  have wf : ((q.setTile t y).stepErrs t l).TilesWf := by
    rw [State.TilesWf, State.stepErrs_tiles]
    exact State.wf_setTile w
  obtain ⟨next, rest, -⟩ := State.setTile_frame wf t { y with step := y.step + 1 }
  have moved : s.runStep t errs = ((q.setTile t y).stepErrs t l).setTile t { y with step := y.step + 1 } := by
    rw [run, State.advance, State.modTile, State.stepErrs_tile, own]
  rw [moved, next]
  exact ⟨ran.hold, congrArg (· + 1) step, ran.flags, fun k other => by
    rw [rest k other, State.stepErrs_tile, others k other]⟩

end

end Sys2Proof.Machine
end

section
/-! ## Flags taken and tiles held (R117, R118, R122) -/

namespace Sys2Proof.Machine

section
variable {t flag count : Nat} {s : State}

/-- A tile that steps does not hold. -/
theorem State.stepping_hold (st : s.stepping t = true) : (s.tile t).hold = none :=
  Option.isNone_iff_eq_none.mp (Bool.and_eq_true_iff.mp st).2

/-- What a control word command gives in a tile that steps. -/
theorem ctrlRow_runs (ht : t < 136) (st : s.stepping t = true) (g : State → State) :
    ctrlRow t s g = .next (g s) := (onTile_of ht _).trans (whenDue_of st _ _)

/-- A tile that does not hold begins to. -/
theorem Tile.holdFor_free {x : Tile} (free : x.hold = none) (k : HoldKind) (f c : Nat) :
    x.holdFor k f c = { x with hold := some ⟨k, f, c, 0⟩ } := by
  unfold Tile.holdFor
  rw [free]

theorem Tile.consume_covered {x : Tile} (covers : count ≤ x.flag flag) :
    x.consume flag count = some (x.setFlag flag (x.flag flag - count)) := if_pos covers

/-- COUNT taken from a flag: the flag loses it, and every other flag stays. -/
theorem Tile.flag_taken {x : Tile} (w : zeroed x.flags) (g : Nat) :
    (x.setFlag flag (x.flag flag - count)).flag g = if g = flag then x.flag flag - count else x.flag g :=
  Tile.flag_setFlag w ((Nat.sub_le _ _).trans_lt (x.flag_lt flag)) g

theorem execWait_runs (ht : t < 136) (hf : flag < 1024) (hc : count < 16) (st : s.stepping t = true) :
    exec (.wait t flag count) s = .next (s.waitOp t flag count .wait) :=
  (guardUnit_of (by simp [hf, hc]) _).trans (ctrlRow_runs ht st _)

theorem execRest_runs (ht : t < 136) (hf : flag < 1024) (hc : count < 16) (st : s.stepping t = true) :
    exec (.rest t flag count) s = .next (s.waitOp t flag count .rest) :=
  (guardUnit_of (by simp [hf, hc]) _).trans (ctrlRow_runs ht st _)

theorem State.waitOp_takes (some : 0 < count) (covers : count ≤ (s.tile t).flag flag) (k : HoldKind) :
    s.waitOp t flag count k = s.setTile t ((s.tile t).setFlag flag ((s.tile t).flag flag - count)) := by
  rw [State.waitOp, if_neg some.ne', Tile.consume_covered covers]

theorem State.waitOp_holds (free : (s.tile t).hold = none) (short : (s.tile t).flag flag < count) (k : HoldKind) :
    s.waitOp t flag count k = s.setTile t { s.tile t with hold := some ⟨k, flag, count, 0⟩ } := by
  have refused : (s.tile t).consume flag count = none := if_neg (Nat.not_le.mpr short)
  rw [State.waitOp, if_neg (Nat.zero_lt_of_lt short).ne', refused, Tile.holdFor_free free]

/-- COUNT 0 is one ILLEGAL_ENCODING, and changes no tile. -/
theorem State.waitOp_zero (w : Table.wf regInit s.regs = true) (k : HoldKind) : TilesSame s (s.waitOp t flag 0 k) ∧
    0 < bits ((s.waitOp t flag 0 k).reg (tilePage t 4 + 0x18)) 31 16 := by
  rw [State.waitOp, if_pos rfl]
  exact ⟨State.stepErrs_tile s t _, State.stepErrs_count (e := (s.tile t).ctrlIllegal) w
    (List.mem_singleton_self _) (by decide : 0x1024 < 2 ^ 16)⟩

/-! ### WAIT_RELEASE -/

/-- The fields of a WAIT or REST word. -/
theorem bits_waitWord {op : Nat} (ho : op < 16) (hf : flag < 1024) (hc : count < 16) {w : Word}
    (word : w = BitVec.ofNat 32 (op * 2 ^ 28 + flag * 2 ^ 18 + count * 2 ^ 14)) :
    bits w 31 28 = op ∧ bits w 27 18 = flag ∧ bits w 17 14 = count := by
  have value : w.toNat = op * 2 ^ 28 + flag * 2 ^ 18 + count * 2 ^ 14 := by
    rw [word, BitVec.toNat_ofNat]
    omega
  simp only [bits, BitVec.extractLsb'_toNat, Nat.shiftRight_eq_div_pow, value]
  refine ⟨?_, ?_, ?_⟩ <;> omega

/-- A WAIT or REST whose flag covers COUNT does not hold, and takes it. -/
theorem State.waitWord_acts {w : Word} (op : bits w 31 28 = 1 ∨ bits w 31 28 = 8) (hf : bits w 27 18 = flag)
    (hc : bits w 17 14 = count) (covers : count ≤ (s.tile t).flag flag) : s.holdOf t w = none ∧
      s.ctrlAct t w = s.setTile t ((s.tile t).setFlag flag ((s.tile t).flag flag - count)) := by
  have free : ¬ (s.tile t).flag flag < count := Nat.not_lt.mpr covers
  rcases op with op | op
  · simp only [State.holdOf, State.ctrlAct, op, hf, hc, free, if_false, State.modTile, Tile.consume_covered covers,
      Option.getD_some, and_self]
  · simp only [State.holdOf, State.ctrlAct, op, hf, hc, free, if_false, State.modTile, Tile.consume_covered covers,
      Option.getD_some, and_self]

theorem execWaitRelease_due {h : Hold} (ht : t < 136) (on : s.executing t = true) (held : (s.tile t).hold = some h)
    (kind : h.kind = .wait ∨ h.kind = .rest) (covers : h.count ≤ (s.tile t).flag h.flag) :
    exec (.waitRelease t) s = .next (s.tileStep t) := by
  refine (onTile_of ht _).trans (whenDue_of ?_ _ _)
  rcases kind with kind | kind <;> simp [on, held, kind, covers]

/-- The step that a WAIT or REST held runs: its flag loses COUNT and the tile goes to its next step. -/
theorem State.tileStep_released (w : s.Canonical) (live : s.prf.replay = []) {word : Word}
    (here : (s.tile t).ctrlWord (s.tile t).step = word) (op : bits word 31 28 = 1 ∨ bits word 31 28 = 8)
    (hf : bits word 27 18 = flag) (hc : bits word 17 14 = count) (covers : count ≤ (s.tile t).flag flag)
    (more : (s.tile t).step < 1023) :
    ((s.tileStep t).tile t).hold = none ∧ ((s.tileStep t).tile t).step = (s.tile t).step + 1 ∧
    ((s.tileStep t).tile t).flag flag = (s.tile t).flag flag - count ∧ TilesBut t s (s.tileStep t) := by
  have ⟨_, _, _, _, _, _, _, flags, _⟩ := w.2.2.1 t
  have run := State.tileStep_runs (State.replayArrivals_none live (s.tile t).step)
    (here.symm ▸ (State.waitWord_acts op hf hc covers).1)
  have moved := (s.flowErrs_flows t (s.tile t).step).tiles w.2.1
  generalize s.flowErrs t (s.tile t).step = f at moved run
  obtain ⟨q, errs⟩ := f
  obtain ⟨flowed, before⟩ := moved.one
  obtain ⟨step, words, same⟩ := flowed.stands
  have flag' (g : Nat) : (q.tile t).flag g = (s.tile t).flag g := by rw [Tile.flag, same, Tile.flag]
  have fetched : (q.tile t).ctrlWord (q.tile t).step = word := by rw [step, words, here]
  have opcode : bits ((q.tile t).ctrlWord (q.tile t).step) 31 28 = 1 ∨
      bits ((q.tile t).ctrlWord (q.tile t).step) 31 28 = 8 := fetched.symm ▸ op
  have acted := (State.waitWord_acts (s := q) op hf hc (flag' flag ▸ covers)).2
  obtain ⟨own, others, -⟩ := State.setTile_frame moved.wf t
    ((q.tile t).setFlag flag ((q.tile t).flag flag - count))
  obtain ⟨hold, next, taken, rest⟩ := State.runStep_advances (s := q) (t := t) errs (by omega) (by omega)
    (step.symm ▸ more.ne) (fetched.symm ▸ acted) (State.wf_setTile moved.wf)
  rw [own] at next taken
  rw [run]
  refine ⟨hold, next.trans (congrArg (· + 1) step), ?_, (before.trans others).trans rest⟩
  rw [Tile.flag, taken, ← Tile.flag, Tile.flag_taken (same.symm ▸ flags), if_pos rfl, flag']

end

/-- Settles O14: a WAIT or REST is `waitOp`, with one case for each of its three ends; a release runs the step, in which
only the control word touches the flags. -/
theorem flagsHoldAndRelease : Obligations.FlagsHoldAndRelease := by
  intro t flag count s w ht hf hc x taken held
  have ⟨_, _, _, _, _, _, _, flags, _⟩ := w.2.2.1 t
  have does (p : HoldKind → State → Prop) (st : s.stepping t = true) (all : ∀ k, p k (s.waitOp t flag count k)) :
      Does (.wait t flag count) s (p .wait) ∧ Does (.rest t flag count) s (p .rest) :=
    ⟨⟨_, execWait_runs ht hf hc st, all .wait⟩, ⟨_, execRest_runs ht hf hc st, all .rest⟩⟩
  refine ⟨fun st some covers => does (fun _ => taken) st fun k => ?_, fun st short => does held st fun k => ?_,
    fun st none => does (fun _ r => TilesSame s r ∧ 0 < bits (r.reg (tilePage t 4 + 0x18)) 31 16) st fun k => ?_,
    fun h op on hold hflag hcount kind some covers more live word => ?_⟩
  · obtain ⟨own, others, only⟩ := State.setTile_frame w.2.1 t (x.setFlag flag (x.flag flag - count))
    show taken _
    simp only [taken]
    rw [State.waitOp_takes some covers, own]
    exact ⟨(Tile.flag_taken flags flag).trans (if_pos rfl),
      fun g other => (Tile.flag_taken flags g).trans (if_neg other), State.stepping_hold st, rfl, rfl, others, only⟩
  · obtain ⟨own, others, only⟩ := State.setTile_frame w.2.1 t { x with hold := some ⟨k, flag, count, 0⟩ }
    show held k _
    simp only [held]
    rw [State.waitOp_holds (State.stepping_hold st) short, own]
    exact ⟨rfl, rfl, rfl, others, only⟩
  · subst none
    exact State.waitOp_zero w.1 k
  · have small : op < 16 ∧ (op = 1 ∨ op = 8) ∧ (h.kind = .wait ∨ h.kind = .rest) := by
      rcases kind with ⟨kind, rfl⟩ | ⟨kind, rfl⟩ <;> simp [kind]
    obtain ⟨ho, op1, kinds⟩ := small
    obtain ⟨opcode, fld, cnt⟩ := bits_waitWord ho hf hc word
    exact ⟨_, execWaitRelease_due ht on hold kinds (by rw [hflag, hcount]; exact covers),
      State.tileStep_released w live rfl (opcode.symm ▸ op1) fld cnt covers more⟩

end Sys2Proof.Machine
end

section
/-! ## DEQ, SVC, MARK and END (R127 to R131, R153) -/

namespace Sys2Proof.Machine

/-- A step that leaves the tiles alone leaves every tile alone. -/
theorem TilesSame.of_only {l : List Part} {s r : State} (h : Only l s r) (tiles : .tiles ∉ l) : TilesSame s r :=
  State.tile_congr (h.2 .tiles tiles)

/-- A slot written reads back, and is valid. -/
theorem Tile.writeSlot_reads {x : Tile} (w : zeroed x.mbx) {m : Nat} (hm : m < 64) (d : DWord) :
    (x.writeSlot m d).slot m = d ∧ bit (x.writeSlot m d).mbxValid m = true := by
  refine ⟨(Table.get_set w).trans (if_pos rfl),
    (BitVec.getLsbD_or ..).trans (Bool.or_eq_true_iff.mpr (.inr ?_))⟩
  rw [BitVec.getLsbD_ofNat, decide_eq_true hm, Bool.true_and, Nat.testBit_two_pow_self]

theorem Tile.qPos_advanceHead {x : Tile} (w : Table.wf (fun _ => 0) x.qHead = true) (q : Nat) :
    (x.advanceHead q).qPos q = (x.qPos q + 1) % 16 := (Table.get_set w).trans (if_pos rfl)

/-- The tile with the head entry of queue q removed. -/
def Tile.headTaken (x : Tile) (q : Nat) : Tile :=
  { x.advanceHead q with qCount := Table.set (fun _ => 0) x.qCount q (x.qLen q - 1) }

theorem Tile.dequeue_some {x : Tile} {q : Nat} (some : 0 < x.qLen q) :
    x.dequeue q = .some (Table.get (fun _ => 0) x.qData (q * 16 + x.qPos q), x.headTaken q) := if_neg some.ne'

theorem Tile.dequeue_none {x : Tile} {q : Nat} (empty : x.qLen q = 0) : x.dequeue q = none := if_pos empty

/-- An interface with a place free. -/
theorem Tile.placesFull_of_lt {x : Tile} (room : x.retry.length < 32) : x.placesFull = false :=
  decide_eq_false (Nat.not_le.mpr room)

section
variable {t : Nat} {s : State}

theorem State.orHold_free (room : (s.tile t).retry.length < 32) (g : State → State) : s.orHold t g = g s := by
  rw [State.orHold, Tile.placesFull_of_lt room]
  rfl

/-- The spine is read without errors. -/
theorem State.withSource_spine (s : State) (t wu reg : Nat) (g : State → State) :
    s.withSource t 0 wu reg g = g s := rfl

theorem execDeq_runs {q slot : Nat} (ht : t < 136) (hq : q < 64) (hs : slot < 64) (st : s.stepping t = true) :
    exec (.deq t q slot) s = .next (s.deqOp t q slot) :=
  (guardUnit_of (by simp [hq, hs]) _).trans (ctrlRow_runs ht st _)

/-- DEQ of a queue that holds an entry. -/
theorem State.deqOp_some (w : s.TilesWf) {q slot : Nat} (some : 0 < (s.tile t).qLen q) :
    (s.deqOp t q slot).tile t = ((s.tile t).headTaken q).writeSlot slot
      (Table.get (fun _ => 0) (s.tile t).qData (q * 16 + (s.tile t).qPos q)) ∧
    TilesBut t s (s.deqOp t q slot) ∧ Only [.tiles] s (s.deqOp t q slot) := by
  simp only [State.deqOp, Tile.dequeue_some some]
  exact State.setTile_frame w t _

/-- DEQ of an empty queue: 0 goes into the slot, and QUEUE_UNDERRUN is recorded on page 3. -/
theorem State.deqOp_none (w : s.TilesWf) (wr : Table.wf regInit s.regs = true) {q slot : Nat}
    (empty : (s.tile t).qLen q = 0) :
    (s.deqOp t q slot).tile t = ((s.tile t).advanceHead q).writeSlot slot 0 ∧ TilesBut t s (s.deqOp t q slot) ∧
    0 < bits ((s.deqOp t q slot).reg (tilePage t 3 + 0x18)) 31 16 := by
  simp only [State.deqOp, Tile.dequeue_none empty]
  obtain ⟨own, others, -⟩ := State.setTile_frame w t (((s.tile t).advanceHead q).writeSlot slot 0)
  have regs : Table.wf regInit (s.setTile t (((s.tile t).advanceHead q).writeSlot slot 0)).regs = true := wr
  generalize s.setTile t (((s.tile t).advanceHead q).writeSlot slot 0) = r at own others regs
  generalize (s.tile t).step * 2 ^ 22 + q * 2 ^ 16 + slot * 2 ^ 10 = info
  have same : TilesSame r ((r.tileErr t 3 0x1013 info).haltRequest 8) := TilesSame.of_only
    (((r.err_only _ _ _).mono (m := [.regs, .run, .prf, .con, .host]) (by simp)).trans
      ((State.haltRequest_only _ 8).mono (by simp))) (by simp)
  rw [same t, State.haltRequest_reg]
  exact ⟨own, others.trans fun k _ => same k, State.err_count_pos regs _ _ (by decide)⟩

/-- SVC with the spine as its data, which the dispatcher accepts. -/
theorem execSvc_accepted {tmpl token : Nat} (ht : t < 136) (htm : tmpl < 256) (htk : token < 4)
    (st : s.stepping t = true) (room : (s.tile t).retry.length < 32) (accepts : s.svcAccepts t tmpl token = true) :
    exec (.svc t tmpl 0 0 0 token) s = .next (s.svcOp t tmpl 0 0 0 token) := by
  refine (guardUnit_of (by simp [htm, htk]) _).trans ((ctrlRow_runs ht st _).trans ?_)
  rw [State.orHold_free room, if_pos accepts, State.withSource_spine]

/-- MARK of a tile without probes, or while ACQ_CTRL.MARKS is 0, is nothing (R129, R419). -/
theorem State.markOp_off (off : bit (s.rd .acqCtrl) 27 = false ∨ (s.tile t).probes = 0) (v : Half) :
    s.markOp t v = s := by
  have silent : (!bit (s.rd .acqCtrl) 27 || decide ((s.tile t).probes = 0)) = true := by
    rcases off with off | off <;> simp [off]
  rw [State.markOp, if_pos silent]

/-- The first mark of its step, with room for it. -/
theorem State.markOp_kept (on : bit (s.rd .acqCtrl) 27 = true) (probes : (s.tile t).probes ≠ 0)
    (batch : ((s.tile t).marks.filter fun m => m.batch = s.run.batch).length < 64)
    (history : (s.tile t).marks.length < 2048)
    (fresh : ∀ m ∈ (s.tile t).marks, m.batch = s.run.batch → m.step ≠ (s.tile t).step) (v : Half) :
    s.markOp t v = s.setTile t { s.tile t with
      marks := (s.tile t).marks ++ [⟨s.run.batch, (s.tile t).step, v⟩] } := by
  have all : ((s.tile t).marks.filter fun m => !(m.batch = s.run.batch && m.step = (s.tile t).step)) =
      (s.tile t).marks := by
    refine List.filter_eq_self.mpr fun m mem => ?_
    by_cases same : m.batch = s.run.batch
    · simp [fresh m mem same]
    · simp [same]
  simp only [State.markOp, all, on, probes, batch, history, Bool.not_true, Bool.false_or, decide_false,
    Bool.false_eq_true, if_false, and_self, if_true]

/-! ### END (R76, R101, R131) -/

/-- The work in flight of a tile completes and the tile rests. -/
theorem State.drain_rests (w : s.TilesWf) (live : s.prf.replay = []) :
    ((s.drain t).tile t).phase = .resting ∧ ((s.drain t).tile t).step = 1024 ∧ ((s.drain t).tile t).hold = none ∧
    TilesBut t s (s.drain t) := by
  let n := (s.tile t).lastWork - (s.tile t).step
  let q := (List.range' 1 n).foldl (fun q k => q.flow t ((s.tile t).step + k)) s
  have done : Flows t s q := Flows.foldl (fun q _ => q.flow_flows t _) _ s
  have moved := done.tiles w
  let x : Tile := { q.tile t with phase := .resting, hold := none, step := 1024
                                  energy := { (q.tile t).energy with steps := (q.tile t).energy.steps + n } }
  have rests : s.drain t = q.setTile t x :=
    State.replayArrivals_none (s := q.setTile t x) (done.replay.trans live) 1024
  obtain ⟨own, others, -⟩ := State.setTile_frame moved.wf t x
  rw [rests, own]
  exact ⟨rfl, rfl, rfl, moved.one.2.trans others⟩

/-- The units of an END's step run, its errors are recorded, and the tile rests. -/
theorem State.execUnits_drain (w : s.TilesWf) (live : s.prf.replay = []) (l : List StepErr) :
    ((((s.execUnits t).1.stepErrs t l).drain t).tile t).phase = .resting ∧
    ((((s.execUnits t).1.stepErrs t l).drain t).tile t).step = 1024 ∧
    ((((s.execUnits t).1.stepErrs t l).drain t).tile t).hold = none ∧
    TilesBut t s (((s.execUnits t).1.stepErrs t l).drain t) := by
  obtain ⟨y, units, -⟩ := s.execUnits_runs t
  rw [units]
  have stored : TilesBut t s (s.setTile t y) := (State.setTile_frame w t y).2.1
  have recorded : Flows t (s.setTile t y) ((s.setTile t y).stepErrs t l) := State.stepErrs_flows _ _
  have tiles := recorded.tiles (State.wf_setTile w)
  obtain ⟨phase, step, hold, rest⟩ := State.drain_rests (t := t) tiles.wf (recorded.replay.trans live)
  exact ⟨phase, step, hold, (stored.trans tiles.one.2).trans rest⟩

theorem execEndStep_runs (ht : t < 136) (st : s.stepping t = true) : exec (.endStep t) s =
    .next ((((s.flowErrs t (s.tile t).step).1.execUnits t).1.stepErrs t ((s.flowErrs t (s.tile t).step).2 ++
      ((s.flowErrs t (s.tile t).step).1.execUnits t).2)).drain t) := by
  show execEndStep t s = _
  rw [execEndStep, ctrlRow_runs ht st]

/-- The step of an END: work due takes place, the units run, and the tile rests. -/
theorem execEndStep_rests (w : s.TilesWf) (ht : t < 136) (st : s.stepping t = true) (live : s.prf.replay = []) :
    Does (.endStep t) s (fun r => (r.tile t).phase = .resting ∧ (r.tile t).step = 1024 ∧ (r.tile t).hold = none ∧
      TilesBut t s r) := by
  have flowed := s.flowErrs_flows t (s.tile t).step
  have moved := flowed.tiles w
  obtain ⟨phase, step, hold, rest⟩ := State.execUnits_drain (t := t) moved.wf (flowed.replay.trans live)
    ((s.flowErrs t (s.tile t).step).2 ++ ((s.flowErrs t (s.tile t).step).1.execUnits t).2)
  exact ⟨_, execEndStep_runs ht st, phase, step, hold, moved.one.2.trans rest⟩

theorem execMark_runs (ht : t < 136) (st : s.stepping t = true) (v : Half) :
    exec (.mark t v) s = .next (s.markOp t v) :=
  ctrlRow_runs ht st fun s => s.markOp t v

end

/-- Settles O16: each control word through what its action stores; END flows, runs the units and drains. -/
theorem controlWordsAct : Obligations.ControlWordsAct := by
  intro t q slot tmpl token v s w ht hq hs htm htk st x
  have ⟨_, _, _, _, _, _, _, _, mbx, _, qHead, qCount, _⟩ := w.2.2.1 t
  refine ⟨⟨s, ctrlRow_runs ht st id, rfl⟩, fun some => ?_, fun empty => ?_, fun room accepts => ?_,
    fun on probes batch history fresh => ?_, fun off => ?_, execEndStep_rests w.2.1 ht st⟩
  · obtain ⟨own, others, only⟩ := State.deqOp_some (slot := slot) w.2.1 some
    obtain ⟨data, valid⟩ := Tile.writeSlot_reads (x := x.headTaken q) mbx hs
      (Table.get (fun _ => 0) x.qData (q * 16 + x.qPos q))
    refine ⟨_, execDeq_runs ht hq hs st, ?_⟩
    beta_reduce
    rw [own]
    exact ⟨data, valid, (Table.get_set qCount).trans (if_pos rfl), Tile.qPos_advanceHead qHead q, others, only⟩
  · obtain ⟨own, others, count⟩ := State.deqOp_none (slot := slot) w.2.1 w.1 empty
    obtain ⟨data, valid⟩ := Tile.writeSlot_reads (x := x.advanceHead q) mbx hs 0
    refine ⟨_, execDeq_runs ht hq hs st, ?_⟩
    beta_reduce
    rw [own]
    exact ⟨data, valid, Tile.qPos_advanceHead qHead q, count, others⟩
  · obtain ⟨-, others, only⟩ := State.setTile_frame w.2.1 t x.countPkt
    exact ⟨_, execSvc_accepted ht htm htk st room accepts, rfl, rfl, others,
      (only.mono (by simp)).trans ((Only.svc _ _).mono (by simp))⟩
  · obtain ⟨own, others, only⟩ := State.setTile_frame w.2.1 t
      { x with marks := x.marks ++ [⟨s.run.batch, x.step, v⟩] }
    refine ⟨_, (execMark_runs ht st v).trans (congrArg _ (State.markOp_kept on probes batch history fresh v)), ?_⟩
    beta_reduce
    rw [own]
    exact ⟨rfl, rfl, others, only⟩
  · exact ⟨_, execMark_runs ht st v, State.markOp_off off v⟩

end Sys2Proof.Machine
end

section
/-! ## SIGNAL, SEND and ENQ (R116, R123, R137, R138, R142, R181, R349) -/

namespace Sys2Proof.Machine

/-- SEND, or ENQ where enq holds: the two commands differ in the KIND that fits. -/
def sendCmd (t entry src wu reg : Nat) : Bool → Instr
  | false => .send t entry src wu reg
  | true => .enq t entry src wu reg

/-- The KIND of a destination entry fits SEND, or ENQ where enq holds (R116). -/
def kindFits (e : DWord) : Bool → Prop
  | false => destKind e = 1 ∨ destKind e = 2
  | true => destKind e = 3

/-- The packet that SEND and ENQ make of entry `entry`. -/
def State.sendPacket (s : State) (t entry src wu reg : Nat) : Packet :=
  let e := (s.tile t).destEntry entry
  s.mkPacket t (destDevice e) (destVtile e) (destFlag e) (destIndex e) entry (kindOf (destKind e))
    (if destKind e = 2 then 0 else ((s.tile t).source src wu reg).1)

/-- A packet of tile t on the exchange of its device. -/
def State.sentHere (s : State) (t : Nat) (p : Packet) : State :=
  { s.modTile t Tile.countPkt with net := { s.net with loc := s.net.loc ++ [p] } }

/-- The only place of tile t taken by a packet. -/
def State.placeTaken (s : State) (t : Nat) (p : Packet) : State :=
  s.setTile t { s.tile t with retry := [⟨p, .held⟩] }

/-- A packet as the network takes it, by its route. -/
def Packet.onRoute (p : Packet) (count : Nat) (half : BitVec 12) (hops : BitVec 36) : Packet :=
  { p with count := count, half := half, hop := hops, next := 1, rcount := 0, ret := 0 }

/-- A tile's only packet waits for its answer, and has been counted. -/
def Tile.firstSent (x : Tile) (p : Packet) (alone : Bool) : Tile :=
  { x with retry := [⟨p, .awaiting alone⟩] }.countPkt

/-- The data that SRC selects: the spine, or two registers of a word unit (R113). -/
theorem Tile.source_data (x : Tile) (src wu reg : Nat) : (x.source src wu reg).1 =
    if src = 0 then x.spine else x.wreg wu ((reg + 1) % 256) ++ x.wreg wu reg := by
  unfold Tile.source
  split <;> rfl

section
variable {t entry src wu reg : Nat} {s : State}

/-! ### Packets issued -/

/-- A packet on the exchange of its device: its tile has counted it, and nothing else of the tile changes. -/
theorem State.sentHere_spec (w : s.TilesWf) (p : Packet) : TilesBut t s (s.sentHere t p) ∧
    ((s.sentHere t p).tile t).flags = (s.tile t).flags ∧ ((s.sentHere t p).tile t).step = (s.tile t).step ∧
    ((s.sentHere t p).tile t).retry = (s.tile t).retry ∧ Only [.tiles, .net] s (s.sentHere t p) := by
  obtain ⟨mine, others, only⟩ := State.setTile_frame w t (s.tile t).countPkt
  have counted : (s.sentHere t p).tile t = (s.tile t).countPkt := mine
  rw [counted]
  exact ⟨others, rfl, rfl, rfl, (only.mono (by simp)).trans ((Only.net (s.modTile t Tile.countPkt) _).mono (by simp))⟩

theorem State.issuePacket_here {p : Packet} (own : p.dstDev = s.devId) : s.issuePacket t p = s.sentHere t p :=
  if_pos own

/-- A packet to another device takes a place of an interface that is empty. -/
theorem State.issuePacket_away (live : s.prf.replay = []) (empty : (s.tile t).retry = []) {p : Packet}
    (away : p.dstDev ≠ s.devId) : s.issuePacket t p = State.pump t 33 (s.placeTaken t p) := by
  simp only [State.issuePacket, away, live, List.not_mem_nil, if_false, State.modTile, empty, List.nil_append,
    State.placeTaken]

/-- The only packet of an interface is sent: nothing stands before it. -/
theorem nextSend_only (known : Nat → Nat) (p : Packet) :
    ∃ alone, nextSend known [⟨p, .held⟩] 0 [⟨p, .held⟩] = some (0, alone) := by
  by_cases early : p.kind ≠ .queue ∧ p.tag.toNat ≤ known p.entry + 1
  · exact ⟨false, by simp [nextSend, early]⟩
  · exact ⟨true, by simp [nextSend, early]⟩

theorem State.pump_only (w : s.TilesWf) (n : Nat) (p : Packet) : ∃ alone, State.pump t (n + 1) (s.placeTaken t p) =
    State.pump t n ((s.placeTaken t p).sendPlace t 0 alone) := by
  have one : (s.placeTaken t p).tile t = { s.tile t with retry := [⟨p, .held⟩] } :=
    (State.setTile_frame w t _).1
  obtain ⟨alone, next⟩ := nextSend_only (((s.placeTaken t p).tile t).knownBatch (s.placeTaken t p).ldr.imageFirst) p
  refine ⟨alone, ?_⟩
  rw [State.pump]
  simp only [one] at next ⊢
  rw [next]

/-- A packet with a route leaves the interface by it. -/
theorem State.issuePacket_routed (w : s.TilesWf) (live : s.prf.replay = []) (empty : (s.tile t).retry = [])
    {p : Packet} (away : p.dstDev ≠ s.devId) {count : Nat} {half : BitVec 12} {hops : BitVec 36}
    (route : s.route p.dstDev = some (count, half, hops)) : ∃ alone,
      (s.issuePacket t p).tile t = (s.tile t).firstSent p alone ∧ TilesBut t s (s.issuePacket t p) ∧
      (s.issuePacket t p).net =
        { s.net with quad := s.net.quad ++ [⟨none, p.onRoute count half hops⟩] } ∧
      Only [.tiles, .net] s (s.issuePacket t p) := by
  obtain ⟨own, others, only⟩ := State.setTile_frame w t { s.tile t with retry := [⟨p, .held⟩] }
  obtain ⟨alone, pumped⟩ := State.pump_only (t := t) w 32 p
  have onWay : (s.placeTaken t p).route p.dstDev = some (count, half, hops) := route
  have wf : (s.placeTaken t p).TilesWf := State.wf_setTile w
  obtain ⟨sent, rest, more⟩ := State.setTile_frame wf t ((s.tile t).firstSent p alone)
  let r : State := (s.placeTaken t p).setTile t ((s.tile t).firstSent p alone)
  let q : State := { r with net := { s.net with quad := s.net.quad ++ [⟨none, p.onRoute count half hops⟩] } }
  have one : (s.placeTaken t p).tile t = { s.tile t with retry := [⟨p, .held⟩] } := own
  have placed : (s.placeTaken t p).sendPlace t 0 alone = q := by
    simp only [State.sendPlace, one, List.getElem?_cons_zero, onWay, List.set_cons_zero, if_true]
    rfl
  have waits : (q.tile t).retry = [⟨p, .awaiting alone⟩] := congrArg Tile.retry sent
  have done : s.issuePacket t p = q := by
    rw [State.issuePacket_away live empty away, pumped, placed, State.pump_awaiting 32 waits]
  rw [done]
  exact ⟨alone, sent, others.trans rest, rfl,
    ((only.trans more).mono (by simp)).trans ((Only.net r _).mono (by simp))⟩

/-! ### DEST_INVALID (R142) -/

/-- A page of tile t keeps a COUNT above 0 through the errors of a step. -/
theorem State.stepErrs_keeps_count {pg : Nat} (w : Table.wf regInit s.regs = true) (l : List StepErr)
    (h : 0 < bits (s.reg (tilePage t pg + 0x18)) 31 16) :
    0 < bits ((s.stepErrs t l).reg (tilePage t pg + 0x18)) 31 16 := by
  rcases s.stepErrs_eq t l with same | recorded
  · rwa [same]
  · rw [recorded, State.haltRequest_reg]
    exact State.tileErrs_count w (.inl h)

/-- DEST_INVALID of a step, with the errors of its data read: nothing is sent, and no tile changes. -/
theorem State.destInvalid_recorded (w : Table.wf regInit s.regs = true) (step place reason : Nat) (l : List StepErr) :
    ((s.destInvalid t step place reason).stepErrs t l).net = s.net ∧
    TilesSame s ((s.destInvalid t step place reason).stepErrs t l) ∧
    0 < bits (((s.destInvalid t step place reason).stepErrs t l).reg (tilePage t 1 + 0x18)) 31 16 := by
  obtain ⟨only, count⟩ := State.destInvalid_spec (t := t) w step place reason
  have all := only.trans (State.stepErrs_only _ t l)
  refine ⟨all.2 .net (by simp), TilesSame.of_only all (by simp), State.stepErrs_keeps_count ?_ l count⟩
  rw [State.destInvalid, State.haltRequest_regs]
  exact State.wf_err w _ _ _

/-- A packet whose device has no route is removed, and leaves the tile as it was. -/
theorem State.issuePacket_unrouted (w : s.TilesWf) (live : s.prf.replay = []) (empty : (s.tile t).retry = [])
    {p : Packet} (away : p.dstDev ≠ s.devId) (route : s.route p.dstDev = none) :
    ∃ q : State, q.net = s.net ∧ TilesSame s q ∧ q.regs = s.regs ∧
      s.issuePacket t p = q.destInvalid t p.step (p.entry * 2 ^ 14) 1 := by
  obtain ⟨own, others, -⟩ := State.setTile_frame w t { s.tile t with retry := [⟨p, .held⟩] }
  obtain ⟨alone, pumped⟩ := State.pump_only (t := t) w 32 p
  have wf : (s.placeTaken t p).TilesWf := State.wf_setTile w
  let x : Tile := { (s.placeTaken t p).tile t with retry := [] }
  let q : State := (s.placeTaken t p).setTile t x
  obtain ⟨freed, rest, -⟩ := State.setTile_frame wf t x
  have back : x = s.tile t := by
    show { (s.setTile t _).tile t with retry := [] } = s.tile t
    rw [own, ← empty]
  have same : TilesSame s q := fun k => by
    by_cases mine : k = t
    · subst mine
      exact freed.trans back
    · exact (others.trans rest) k mine
  have one : ((s.placeTaken t p).tile t).retry = [⟨p, .held⟩] := congrArg Tile.retry own
  have placed : (s.placeTaken t p).sendPlace t 0 alone = q.destInvalid t p.step (p.entry * 2 ^ 14) 1 := by
    have nowhere : (s.placeTaken t p).route p.dstDev = none := route
    simp only [State.sendPlace, one, List.getElem?_cons_zero, nowhere, List.eraseIdx_cons_zero]
    rfl
  have gone : ((q.destInvalid t p.step (p.entry * 2 ^ 14) 1).tile t).retry = [] := by
    have only : Only [.regs, .run, .prf, .con, .host] q (q.destInvalid t p.step (p.entry * 2 ^ 14) 1) :=
      ((q.err_only _ _ _).mono (by simp)).trans ((State.haltRequest_only _ 8).mono (by simp))
    rw [TilesSame.of_only only (by simp) t, same t, empty]
  refine ⟨q, rfl, same, rfl, ?_⟩
  rw [State.issuePacket_away live empty away, pumped, placed, State.pump_empty 32 gone]

/-! ### SIGNAL -/

theorem execSignal_runs {vt flag : Nat} (ht : t < 136) (hv : vt < 128) (hf : flag < 1024) (st : s.stepping t = true) :
    exec (.signal t vt flag) s = .next (s.signalOp t vt flag) :=
  (guardUnit_of (by simp [hv, hf]) _).trans (ctrlRow_runs ht st _)

theorem State.signalOp_served {vt flag : Nat} (served : (s.ptile vt).isSome = true) :
    s.signalOp t vt flag = s.sentHere t (s.mkPacket t s.devId vt flag 0 256 .flag 0) := by
  obtain ⟨k, serves⟩ := Option.isSome_iff_exists.mp served
  simp only [State.signalOp, serves]
  exact State.issuePacket_here rfl

theorem State.signalOp_unserved {vt flag : Nat} (none : s.ptile vt = none) :
    s.signalOp t vt flag = s.destInvalid t (s.tile t).step (vt * 2 ^ 15) 3 := by
  simp only [State.signalOp, none]

/-! ### SEND and ENQ -/

section
variable {enq : Bool}

theorem sendCmd_runs (ht : t < 136) (he : entry < 256) (hs : src < 2) (hw : wu < 16) (hr : reg < 256)
    (st : s.stepping t = true) : exec (sendCmd t entry src wu reg enq) s =
      .next (s.orHold t fun s => s.withSource t src wu reg fun s => s.sendOp t entry src wu reg enq) := by
  have unit : (decide (entry < 256) && decide (src < 2) && decide (wu < 16) && decide (reg < 256)) = true := by
    simp [he, hs, hw, hr]
  cases enq with
  | false => exact (guardUnit_of unit _).trans (ctrlRow_runs ht st _)
  | true => exact (guardUnit_of unit _).trans (ctrlRow_runs ht st _)

/-- With every place taken the tile holds. -/
theorem State.orHold_full (free : (s.tile t).hold = none) (full : 32 ≤ (s.tile t).retry.length)
    (g : State → State) : s.orHold t g = s.setTile t { s.tile t with hold := some ⟨.retry, 0, 0, 0⟩ } := by
  rw [State.orHold, Tile.placesFull, if_pos (decide_eq_true full), State.modTile, Tile.holdFor_free free]

theorem State.sendOp_fits (fits : kindFits ((s.tile t).destEntry entry) enq)
    (there : destDevice ((s.tile t).destEntry entry) ≠ s.devId ∨
      (s.ptile (destVtile ((s.tile t).destEntry entry))).isSome = true) :
    s.sendOp t entry src wu reg enq = s.issuePacket t (s.sendPacket t entry src wu reg) := by
  cases enq with
  | false => exact if_pos ⟨fits, there⟩
  | true => exact if_pos ⟨fits, there⟩

theorem State.sendOp_unfit (unfit : ¬ (kindFits ((s.tile t).destEntry entry) enq ∧
      (destDevice ((s.tile t).destEntry entry) ≠ s.devId ∨
        (s.ptile (destVtile ((s.tile t).destEntry entry))).isSome = true))) :
    s.sendOp t entry src wu reg enq = s.destInvalid t (s.tile t).step (entry * 2 ^ 14) 0 := by
  cases enq with
  | false => exact if_neg unfit
  | true => exact if_neg unfit

/-- The packet of an entry, by its DEVICE and KIND. -/
theorem State.sendPacket_eq {dev : Byte} {kind : Nat} (device : destDevice ((s.tile t).destEntry entry) = dev)
    (k : destKind ((s.tile t).destEntry entry) = kind) : s.sendPacket t entry src wu reg =
      s.mkPacket t dev (destVtile ((s.tile t).destEntry entry)) (destFlag ((s.tile t).destEntry entry))
        (destIndex ((s.tile t).destEntry entry)) entry (kindOf kind) (if kind = 2 then 0 else
          if src = 0 then (s.tile t).spine else (s.tile t).wreg wu ((reg + 1) % 256) ++ (s.tile t).wreg wu reg) := by
  rw [State.sendPacket, device, k, Tile.source_data]

section
variable (ht : t < 136) (he : entry < 256) (hs : src < 2) (hw : wu < 16) (hr : reg < 256) (st : s.stepping t = true)
include ht he hs hw hr st

/-- With a place free the command acts, and the errors of its data read are recorded. -/
theorem sendCmd_acts (room : (s.tile t).retry.length < 32) : exec (sendCmd t entry src wu reg enq) s =
    .next ((s.sendOp t entry src wu reg enq).stepErrs t ((s.tile t).source src wu reg).2) := by
  rw [sendCmd_runs ht he hs hw hr st, State.orHold_free room]
  rfl

/-- With every place taken the tile holds, and sends nothing. -/
theorem sendCmd_full (w : s.TilesWf) (full : 32 ≤ (s.tile t).retry.length) :
    Does (sendCmd t entry src wu reg enq) s (fun r => (r.tile t).hold = some ⟨.retry, 0, 0, 0⟩ ∧ r.net = s.net ∧
      TilesBut t s r ∧ Only [.tiles] s r) := by
  have next := sendCmd_runs (enq := enq) ht he hs hw hr st
  rw [State.orHold_full (State.stepping_hold st) full] at next
  obtain ⟨own, others, only⟩ := State.setTile_frame w t { s.tile t with hold := some ⟨.retry, 0, 0, 0⟩ }
  exact ⟨_, next, congrArg Tile.hold own, rfl, others, only⟩

/-- A packet to this device's own ID joins the exchange of the device. -/
theorem sendCmd_here (w : s.TilesWf) (room : (s.tile t).retry.length < 32)
    (fits : kindFits ((s.tile t).destEntry entry) enq) (own : destDevice ((s.tile t).destEntry entry) = s.devId)
    (served : (s.ptile (destVtile ((s.tile t).destEntry entry))).isSome = true) :
    Does (sendCmd t entry src wu reg enq) s (fun r =>
      r.net.loc = s.net.loc ++ [s.sendPacket t entry src wu reg] ∧ TilesBut t s r ∧
      (r.tile t).flags = (s.tile t).flags ∧ (r.tile t).step = (s.tile t).step ∧
      (r.tile t).retry = (s.tile t).retry ∧ r.mem = s.mem) := by
  have next := sendCmd_acts (enq := enq) ht he hs hw hr st room
  rw [State.sendOp_fits fits (.inr served), State.issuePacket_here own] at next
  obtain ⟨others, flags, step, retry, only⟩ := State.sentHere_spec (t := t) w (s.sendPacket t entry src wu reg)
  have errs := State.stepErrs_only (s.sentHere t (s.sendPacket t entry src wu reg)) t ((s.tile t).source src wu reg).2
  have same := TilesSame.of_only errs (by simp)
  refine ⟨_, next, congrArg Network.loc (errs.2 .net (by simp)), others.trans fun k _ => same k, ?_, ?_, ?_,
    (errs.2 .mem (by simp)).trans (only.2 .mem (by simp))⟩
  · rw [same t, flags]
  · rw [same t, step]
  · rw [same t, retry]

/-- An entry whose KIND does not fit, or an own virtual tile that nothing serves. -/
theorem sendCmd_unfit (w : Table.wf regInit s.regs = true) (room : (s.tile t).retry.length < 32)
    (unfit : ¬ (kindFits ((s.tile t).destEntry entry) enq ∧ (destDevice ((s.tile t).destEntry entry) ≠ s.devId ∨
      (s.ptile (destVtile ((s.tile t).destEntry entry))).isSome = true))) :
    Does (sendCmd t entry src wu reg enq) s (fun r => r.net = s.net ∧ TilesSame s r ∧
      0 < bits (r.reg (tilePage t 1 + 0x18)) 31 16) := by
  have next := sendCmd_acts (enq := enq) ht he hs hw hr st room
  rw [State.sendOp_unfit unfit] at next
  exact ⟨_, next, State.destInvalid_recorded w _ _ _ _⟩

section
variable (w : s.Canonical) (live : s.prf.replay = []) (empty : (s.tile t).retry = [])
  (fits : kindFits ((s.tile t).destEntry entry) enq) (away : destDevice ((s.tile t).destEntry entry) ≠ s.devId)
include w live empty fits away

/-- A packet to another device takes a place and leaves by its route. -/
theorem sendCmd_routed {count : Nat} {half : BitVec 12} {hops : BitVec 36}
    (route : s.route (destDevice ((s.tile t).destEntry entry)) = some (count, half, hops)) :
    Does (sendCmd t entry src wu reg enq) s (fun r =>
      (∃ alone, (r.tile t).retry = [⟨s.sendPacket t entry src wu reg, .awaiting alone⟩]) ∧
      r.net = { s.net with quad := s.net.quad ++
        [⟨none, (s.sendPacket t entry src wu reg).onRoute count half hops⟩] } ∧
      TilesBut t s r ∧ (r.tile t).flags = (s.tile t).flags ∧ (r.tile t).step = (s.tile t).step ∧
      (src = 0 → Only [.tiles, .net] s r)) := by
  have next := sendCmd_acts (enq := enq) ht he hs hw hr st (by simp [empty])
  rw [State.sendOp_fits fits (.inl away)] at next
  obtain ⟨alone, mine, others, net, only⟩ := State.issuePacket_routed (p := s.sendPacket t entry src wu reg) w.2.1 live
    empty away route
  have errs := State.stepErrs_only (s.issuePacket t (s.sendPacket t entry src wu reg)) t
    ((s.tile t).source src wu reg).2
  have same := TilesSame.of_only errs (by simp)
  refine ⟨_, next, ⟨alone, ?_⟩, (errs.2 .net (by simp)).trans net, others.trans fun k _ => same k, ?_, ?_,
    fun spine => ?_⟩
  · rw [same t, mine]
    rfl
  · rw [same t, mine]
    rfl
  · rw [same t, mine]
    rfl
  · rw [spine] at only ⊢
    exact only

/-- A packet whose DEVICE has no route is not sent. -/
theorem sendCmd_unrouted (route : s.route (destDevice ((s.tile t).destEntry entry)) = none) :
    Does (sendCmd t entry src wu reg enq) s (fun r => r.net = s.net ∧ TilesSame s r ∧
      0 < bits (r.reg (tilePage t 1 + 0x18)) 31 16) := by
  have next := sendCmd_acts (enq := enq) ht he hs hw hr st (by simp [empty])
  obtain ⟨q, net, tiles, regs, gone⟩ := State.issuePacket_unrouted (p := s.sendPacket t entry src wu reg) w.2.1 live
    empty away route
  rw [State.sendOp_fits fits (.inl away), gone] at next
  obtain ⟨sent, same, count⟩ := State.destInvalid_recorded (s := q) (t := t) (regs ▸ w.1)
    (s.sendPacket t entry src wu reg).step ((s.sendPacket t entry src wu reg).entry * 2 ^ 14) 1
    ((s.tile t).source src wu reg).2
  exact ⟨_, next, sent.trans net, fun k => (same k).trans (tiles k), count⟩

end

end

end

end

/-- Settles O15: SEND and ENQ are `sendCmd`, with one lemma for each of its ends; the packet is that of the entry's
DEVICE and KIND. -/
theorem controlWordsSendPackets : Obligations.ControlWordsSendPackets := by
  intro t vt flag entry src wu reg count half hops s w ht hv hf he hs hw hr st x e data own sent invalid remote
    leaves full
  have here {kind : Nat} (enq : Bool) (k : destKind e = kind) (fits : kindFits e enq) (room : x.retry.length < 32)
      (o : own) : Does (sendCmd t entry src wu reg enq) s (sent (s.mkPacket t s.devId (destVtile e) (destFlag e)
        (destIndex e) entry (kindOf kind) (if kind = 2 then 0 else data))) := by
    have done := sendCmd_here ht he hs hw hr st w.2.1 room fits o.1 o.2
    rwa [State.sendPacket_eq o.1 k] at done
  have away {kind : Nat} (enq : Bool) (k : destKind e = kind) (fits : kindFits e enq) (far : remote)
      (route : s.route (destDevice e) = some (count, half, hops)) :
      Does (sendCmd t entry src wu reg enq) s (leaves (s.mkPacket t (destDevice e) (destVtile e) (destFlag e)
        (destIndex e) entry (kindOf kind) (if kind = 2 then 0 else data))) := by
    obtain ⟨other, empty, live⟩ := far
    have done := sendCmd_routed ht he hs hw hr st w live empty fits other route
    rwa [State.sendPacket_eq rfl k] at done
  have unfit (enq : Bool) (room : x.retry.length < 32) (bad : ¬ (kindFits e enq ∧ (destDevice e ≠ s.devId ∨
      (s.ptile (destVtile e)).isSome = true))) : Does (sendCmd t entry src wu reg enq) s invalid :=
    sendCmd_unfit ht he hs hw hr st w.1 room bad
  have unrouted (enq : Bool) (far : remote) (fits : kindFits e enq) (route : s.route (destDevice e) = none) :
      Does (sendCmd t entry src wu reg enq) s invalid := by
    obtain ⟨other, empty, live⟩ := far
    exact sendCmd_unrouted ht he hs hw hr st w live empty fits other route
  refine ⟨fun served => ?_, fun room o k => here false k (.inl k) room o, fun room o k => here false k (.inr k) room o,
    fun room o k => here true k k room o, fun room k => unfit true room fun bad => k bad.1,
    fun taken => ⟨sendCmd_full (enq := false) ht he hs hw hr st w.2.1 taken,
      sendCmd_full (enq := true) ht he hs hw hr st w.2.1 taken⟩,
    fun room k => unfit false room fun bad => ?_, fun room device none => ?_, fun none => ?_,
    fun far route => ⟨fun k => away false k (.inl k) far route, fun k => away false k (.inr k) far route,
      fun k => away true k k far route⟩,
    fun far route => ⟨fun k => unrouted false far k route, fun k => unrouted true far k route⟩⟩
  · obtain ⟨others, flags, step, retry, only⟩ := State.sentHere_spec (t := t) w.2.1
      (s.mkPacket t s.devId vt flag 0 256 .flag 0)
    exact ⟨_, (execSignal_runs ht hv hf st).trans (congrArg _ (State.signalOp_served served)),
      ⟨rfl, others, flags, step, retry, only.2 .mem (by simp)⟩, only⟩
  · have kinds : destKind e = 1 ∨ destKind e = 2 := bad.1
    omega
  · have lost (enq : Bool) : ¬ (kindFits e enq ∧ (destDevice e ≠ s.devId ∨
        (s.ptile (destVtile e)).isSome = true)) := by simp [device, none]
    exact ⟨unfit false room (lost false), unfit true room (lost true)⟩
  · exact ⟨_, (execSignal_runs ht hv hf st).trans (congrArg _ (State.signalOp_unserved none)),
      State.destInvalid_recorded w.1 _ _ _ []⟩

end Sys2Proof.Machine
end

section
/-! ## The device stopped at once (R143, R328, R453) -/

namespace Sys2Proof.Machine

/-- Errors and causes recorded: no page loses the COUNT of an error that it holds, and GLB_ALERT stays. -/
structure Reports (s r : State) : Prop where
  wf : Table.wf regInit s.regs = true → Table.wf regInit r.regs = true
  count : Table.wf regInit s.regs = true → ∀ p, p % 0x1000 = 0 → 0 < bits (s.reg (p + 0x18)) 31 16 →
    0 < bits (r.reg (p + 0x18)) 31 16
  alert : Table.wf regInit s.regs = true → r.rd .glbAlert = s.rd .glbAlert

section
variable {s q r : State}

theorem Reports.of_regs (regs : r.regs = s.regs) : Reports s r :=
  ⟨fun w => regs ▸ w, fun _ p _ h => by rwa [State.reg_congr regs], fun _ => State.reg_congr regs _⟩

theorem Reports.of_only {l : List Part} (h : Only l s r) (regs : .regs ∉ l) : Reports s r :=
  Reports.of_regs (h.2 .regs regs)

theorem Reports.trans (a : Reports s q) (b : Reports q r) : Reports s r :=
  ⟨fun w => b.wf (a.wf w), fun w p hp h => b.count (a.wf w) p hp (a.count w p hp h),
    fun w => (b.alert (a.wf w)).trans (a.alert w)⟩

theorem Reports.foldl {α : Type} {f : State → α → State} (step : ∀ s a, Reports s (f s a)) :
    ∀ (l : List α) (s : State), Reports s (l.foldl f s)
  | [], _ => Reports.of_regs rfl
  | a :: l, s => (step s a).trans (Reports.foldl step l (f s a))

theorem Reports.raise {page : Nat} (aligned : page % 0x1000 = 0) (s : State) (m : Word) :
    Reports s (s.raise page m) := by
  refine ⟨fun w => State.wf_raise w page m, fun w p hp h => ?_, fun w => ?_⟩
  · rwa [State.reg_raise w, if_neg (by omega)]
  · refine (State.reg_raise w page _ m).trans (if_neg ?_)
    simp only [Reg.addr, Reg.row]
    omega

theorem Reports.err {page : Nat} (aligned : page % 0x1000 = 0) (s : State) {code : Nat} (hc : code < 2 ^ 16)
    (info : Nat) : Reports s (s.err page code info) := by
  refine ⟨fun w => State.wf_err w page code info, fun w p hp h => ?_, fun w => ?_⟩
  · by_cases same : p = page
    · subst same
      exact State.err_count_pos w p info hc
    · rwa [State.err_regsBut w page code info _ (by
        simp only [errRegs, List.mem_cons, List.not_mem_nil, or_false]
        omega)]
  · refine State.err_regsBut w page code info _ ?_
    simp only [errRegs, Reg.addr, Reg.row, List.mem_cons, List.not_mem_nil, or_false]
    omega

/-- The rows that a soft repair takes from the queue: what memory holds stays. -/
structure Repaired (s r : State) : Prop where
  only : Only [.free, .mem, .regs, .con, .host] s r
  ddr : r.mem.ddr = s.mem.ddr
  larder : r.mem.larder = s.mem.larder
  reports : Reports s r

theorem Repaired.trans (a : Repaired s q) (b : Repaired q r) : Repaired s r :=
  ⟨a.only.trans b.only, b.ddr.trans a.ddr, b.larder.trans a.larder, a.reports.trans b.reports⟩

theorem Repaired.foldl {α : Type} {f : State → α → State} (step : ∀ s a, Repaired s (f s a)) :
    ∀ (l : List α) (s : State), Repaired s (l.foldl f s)
  | [], s => ⟨Only.refl _ s, rfl, rfl, Reports.of_regs rfl⟩
  | a :: l, s => (step s a).trans (Repaired.foldl step l (f s a))

/-- Whether a row finds a spare one or is PPR_EXHAUSTED, memory holds what it held. -/
theorem State.softRepair_repaired (s : State) : Repaired s s.softRepair := by
  refine Repaired.foldl (fun s q => ?_) _ s
  have queue (s : State) (x : Memories) (ddr : x.ddr = s.mem.ddr) (larder : x.larder = s.mem.larder) :
      Repaired s { s with mem := x } := ⟨(Only.mem s x).mono (by simp), ddr, larder, Reports.of_regs rfl⟩
  have number : Repaired s s.freeNat.2 := ⟨(Only.free s _).mono (by simp), rfl, rfl, Reports.of_regs rfl⟩
  have drawn := number.trans (queue s.freeNat.2 { s.freeNat.2.mem with
    pprQueue := s.freeNat.2.mem.pprQueue.erase q } rfl rfl)
  dsimp only
  split
  · exact drawn.trans (queue _ _ rfl rfl)
  · have only := State.err_only ({ s.freeNat.2 with mem := { s.freeNat.2.mem with
      pprQueue := s.freeNat.2.mem.pprQueue.erase q } } : State) (chanPage q.1) 0x3005
      (q.2.1 * 2 ^ 28 + q.2.2 % 2 ^ 28)
    have mem := only.2 .mem (by simp)
    exact drawn.trans ⟨only.mono (by simp), congrArg Memories.ddr mem, congrArg Memories.larder mem,
      Reports.err (chan_aligned q.1) _ (by decide) _⟩

theorem State.setRun_run (s : State) (x : RunState) : (s.setRun x).run = { s.run with state := x } := by
  unfold State.setRun
  split
  · next same => rw [← same]
  · exact (State.event_only _ _ _).2 .run (by simp)

/-- The device as an immediate stop leaves it. -/
structure Stopped (causes : BitVec 13) (s r : State) : Prop where
  state : r.run.state = .halted
  resumable : r.run.resumable = false
  inBatch : r.run.inBatch = false
  causes : r.run.causes = s.run.causes ||| causes
  tiles : s.TilesWf → MapsTiles s.mapped (fun x y => y = x.stop) s r
  ddr : r.mem.ddr = s.mem.ddr
  larder : r.mem.larder = s.mem.larder
  reports : Reports s r

/-- The actions that every halt takes. -/
structure HaltTaken (s r : State) : Prop where
  causes : r.run.causes = s.run.causes
  tiles : r.tiles = s.tiles
  ddr : r.mem.ddr = s.mem.ddr
  larder : r.mem.larder = s.mem.larder
  reports : Reports s r

theorem State.haltTaken_spec (s : State) : HaltTaken s s.haltTaken := by
  have repaired := s.softRepair_repaired
  unfold State.haltTaken
  dsimp only
  generalize s.softRepair = q at repaired
  have run : q.run = s.run := repaired.only.2 .run (by simp)
  have causes : q.run.causes = s.run.causes := by rw [run]
  exact ⟨causes, repaired.only.2 .tiles (by simp), repaired.ddr,
    repaired.larder, repaired.reports.trans (Reports.of_regs rfl)⟩

theorem State.stopAll_stopped (s : State) (causes : BitVec 13) : Stopped causes s (s.stopAll causes) := by
  have tiles : Only [.tiles] s s.stopTiles := s.mapMapped_only Tile.stop
  have run : s.stopTiles.run = s.run := tiles.2 .run (by simp)
  have mem : s.stopTiles.mem = s.mem := tiles.2 .mem (by simp)
  have halt := s.stopTiles.haltTaken_spec
  unfold State.stopAll
  dsimp only
  generalize s.stopTiles.haltTaken = q at halt
  generalize stopped : ({ q with
    run := { q.run with causes := q.run.causes ||| causes, resumable := false, inBatch := false, stepPending := false }
    svc := { q.svc with flushDue := !q.enc.integrityHalt } } : State) = u
  have after : Only [.run, .con, .regs, .host] u ((u.setRun .halted).cause runPage 1) :=
    ((u.setRun_only .halted).mono (by simp)).trans ((State.raise_only _ _ _).mono (by simp))
  have control : ((u.setRun .halted).cause runPage 1).run = { u.run with state := .halted } :=
    ((State.raise_only _ _ _).2 .run (by simp)).trans (u.setRun_run .halted)
  have memory : ((u.setRun .halted).cause runPage 1).mem = u.mem := after.2 .mem (by simp)
  have stored : ((u.setRun .halted).cause runPage 1).tiles = u.tiles := after.2 .tiles (by simp)
  have reports : Reports u ((u.setRun .halted).cause runPage 1) :=
    (Reports.of_only (u.setRun_only .halted) (by simp)).trans (Reports.raise (by decide) _ _)
  have noted : Reports s q := (Reports.of_only tiles (by simp)).trans halt.reports
  have kept : Reports q u := stopped ▸ Reports.of_regs rfl
  subst stopped
  exact ⟨by rw [control], by rw [control], by rw [control], by rw [control, halt.causes, run],
    fun w => (State.mapMapped_maps w Tile.stop).of_tiles rfl (stored.trans halt.tiles),
    by rw [memory, halt.ddr, mem], by rw [memory, halt.larder, mem],
    (noted.trans kept).trans reports⟩

/-- A device that runs is stopped at once. -/
theorem State.immediateStop_stopped (on : s.isHalted = false) (c : Nat) :
    Stopped (causeBit c) s (s.immediateStop c) := by
  rw [State.immediateStop, if_neg (by simp [on])]
  exact s.stopAll_stopped _

/-! ### The limits of holds (R121, R122, R142) -/

section
variable {t : Nat} {h : Hold}

/-- A tile that executes serves a virtual tile of a device that is not halted. -/
theorem State.executing_runs (on : s.executing t = true) :
    (s.tile t).vtile.isSome = true ∧ s.isHalted = false := by
  simp only [State.executing, Bool.and_eq_true, Bool.not_eq_true'] at on
  exact ⟨on.1.2, on.2⟩

/-- WAIT_TIMEOUT recorded on page 1 of its tile, with ALERT_N. -/
theorem State.timeout_recorded (w : Table.wf regInit s.regs = true) (t info : Nat) :
    Table.wf regInit ((s.tileErr t 1 0x1010 info).alert 0 true).regs = true ∧
    Only [.regs, .con, .host] s ((s.tileErr t 1 0x1010 info).alert 0 true) ∧
    bit (((s.tileErr t 1 0x1010 info).alert 0 true).rd .glbAlert) 0 = true ∧
    0 < bits (((s.tileErr t 1 0x1010 info).alert 0 true).reg (tilePage t 1 + 0x18)) 31 16 := by
  have regs : Table.wf regInit (s.tileErr t 1 0x1010 info).regs = true := State.wf_err w _ _ _
  have apart : tilePage t 1 + 0x18 ∉ [Reg.addr .glbAlert] := by
    simp only [Reg.addr, Reg.row, tilePage, List.mem_singleton]
    omega
  refine ⟨State.wf_setReg regs, (s.err_only _ _ _).trans ((State.alert_only _ _ _).mono (by simp)),
    State.bit_alert regs (by decide), ?_⟩
  rw [State.alert, State.setFld, State.wr, State.setReg_regsBut regs _ _ _ apart]
  exact State.err_count_pos w _ _ (by decide)

/-- A hold that has passed its limit: WAIT_TIMEOUT and ALERT_N, and the device stopped at once. -/
theorem State.waitTimeout_stops (w : s.Canonical) (ht : t < 136) (on : s.executing t = true) (reason : Nat) :
    (s.waitTimeout t reason h).run.state = .halted ∧ (s.waitTimeout t reason h).run.resumable = false ∧
    bit (s.waitTimeout t reason h).run.causes 10 = true ∧ ((s.waitTimeout t reason h).tile t).phase = .fault ∧
    (s.waitTimeout t reason h).run.inBatch = false ∧ bit ((s.waitTimeout t reason h).rd .glbAlert) 0 = true ∧
    0 < bits ((s.waitTimeout t reason h).reg (tilePage t 1 + 0x18)) 31 16 ∧
    (s.waitTimeout t reason h).mem.ddr = s.mem.ddr ∧ (s.waitTimeout t reason h).mem.larder = s.mem.larder := by
  obtain ⟨serves, running⟩ := State.executing_runs on
  unfold State.waitTimeout
  extract_lets x fields
  obtain ⟨regs, only, raised, count⟩ := State.timeout_recorded w.1 t (x.step * 2 ^ 22 + fields + reason)
  generalize (s.tileErr t 1 0x1010 (x.step * 2 ^ 22 + fields + reason)).alert 0 true = q at regs only raised count
  have mem : q.mem = s.mem := only.2 .mem (by simp)
  have tiles : q.tiles = s.tiles := only.2 .tiles (by simp)
  have wf : q.TilesWf := by
    rw [State.TilesWf, tiles]
    exact w.2.1
  have mapped : t ∈ q.mapped := State.mem_mapped.mpr ⟨ht, (State.tile_congr tiles t).symm ▸ serves⟩
  have stopped := State.immediateStop_stopped
    ((RunsOn.of_only only (by simp) (by simp)).halted.trans running) 10
  refine ⟨stopped.state, stopped.resumable, ?_, ?_, stopped.inBatch, ?_,
    stopped.reports.count regs _ (tile_aligned t 1) count, by rw [stopped.ddr, mem], by rw [stopped.larder, mem]⟩
  · rw [stopped.causes, bit, BitVec.getLsbD_or]
    exact Bool.or_eq_true_iff.mpr (.inr (by decide))
  · rw [(stopped.tiles wf).on t mapped]
    rfl
  · rw [stopped.reports.alert regs]
    exact raised

theorem execWaitTimeout_due (ht : t < 136) (on : s.executing t = true) (held : (s.tile t).hold = some h)
    (kind : h.kind = .wait) (limit : (s.rd .tilWaitLimit t).toNat ≠ 0) (passed : (s.rd .tilWaitLimit t).toNat < h.ns) :
    exec (.waitTimeout t) s = .next (s.waitTimeout t 0 h) := by
  refine (onTile_of ht _).trans ?_
  simp only [held, kind]
  exact whenDue_of (by simp [on, limit, passed]) _ _

theorem execRestTimeout_due (ht : t < 136) (on : s.executing t = true) (held : (s.tile t).hold = some h)
    (kind : h.kind = .rest) (limit : (s.rd .tilRestLimit t).toNat ≠ 0)
    (passed : (s.rd .tilRestLimit t).toNat * 1000 < h.ns) :
    exec (.restTimeout t) s = .next (s.waitTimeout t 1 h) := by
  refine (onTile_of ht _).trans ?_
  simp only [held]
  exact whenDue_of (by simp [on, kind, limit, passed]) _ _

end

end

end Sys2Proof.Machine
end

section
/-! ## Packets issued by a step (R112, R123, R137) -/

namespace Sys2Proof.Machine

/-- Packets have been issued: only the places of the interface and the activity counters change. -/
def Tile.Issued (x y : Tile) : Prop := y = { x with retry := y.retry, energy := y.energy }

theorem Tile.Issued.trans {x y z : Tile} (a : x.Issued y) (b : y.Issued z) : x.Issued z := by
  rw [Tile.Issued, b, a]

section
variable {t : Nat} {s r : State}

theorem MapsTiles.issued_trans {q : State} (a : MapsTiles [t] Tile.Issued s q) (b : MapsTiles [t] Tile.Issued q r) :
    MapsTiles [t] Tile.Issued s r := (a.trans b).mono fun _ _ ⟨_, one, two⟩ => one.trans two

theorem MapsTiles.issued_of_tiles (w : s.TilesWf) (tiles : r.tiles = s.tiles) : MapsTiles [t] Tile.Issued s r :=
  MapsTiles.of_tiles (s := s) ⟨w, fun _ _ => rfl, fun _ _ => rfl⟩ rfl tiles

theorem State.setTile_issued (w : s.TilesWf) {x : Tile} (h : (s.tile t).Issued x)
    (tiles : r.tiles = (s.setTile t x).tiles) : MapsTiles [t] Tile.Issued s r :=
  (State.setTile_maps w t h).of_tiles rfl tiles

theorem State.destInvalid_tiles (s : State) (t step place reason : Nat) :
    (s.destInvalid t step place reason).tiles = s.tiles :=
  ((State.haltRequest_only _ 8).2 .tiles (by simp)).trans ((State.err_only _ _ _ _).2 .tiles (by simp))

theorem State.sendPlace_maps (w : s.TilesWf) (i : Nat) (alone : Bool) :
    MapsTiles [t] Tile.Issued s (s.sendPlace t i alone) := by
  unfold State.sendPlace
  dsimp only
  split
  · exact MapsTiles.issued_of_tiles w rfl
  · split
    · exact State.setTile_issued w (x := { s.tile t with retry := (s.tile t).retry.eraseIdx i }) rfl
        (State.destInvalid_tiles _ _ _ _ _)
    · refine State.setTile_issued w ?_ rfl
      split <;> rfl

theorem State.pump_maps (n : Nat) : ∀ {s : State}, s.TilesWf → MapsTiles [t] Tile.Issued s (State.pump t n s) := by
  induction n with
  | zero => exact fun w => MapsTiles.issued_of_tiles w rfl
  | succ n ih =>
    intro s w
    unfold State.pump
    dsimp only
    split
    · exact MapsTiles.issued_of_tiles w rfl
    · have sent := State.sendPlace_maps (t := t) w
      exact (sent _ _).issued_trans (ih (sent _ _).wf)

theorem State.issuePacket_maps (w : s.TilesWf) (p : Packet) : MapsTiles [t] Tile.Issued s (s.issuePacket t p) := by
  unfold State.issuePacket
  split
  · exact State.setTile_issued w (x := (s.tile t).countPkt) rfl rfl
  · split
    · exact MapsTiles.issued_of_tiles w rfl
    · have placed : MapsTiles [t] Tile.Issued s (s.modTile t fun x => { x with retry := x.retry ++ [⟨p, .held⟩] }) :=
        State.setTile_maps w t rfl
      exact placed.issued_trans (State.pump_maps 33 placed.wf)

theorem State.sendOp_maps (w : s.TilesWf) (entry src wu reg : Nat) (enq : Bool) :
    MapsTiles [t] Tile.Issued s (s.sendOp t entry src wu reg enq) := by
  unfold State.sendOp
  extract_lets x d e kindFits fit
  split
  · exact State.issuePacket_maps w _
  · exact MapsTiles.issued_of_tiles w (State.destInvalid_tiles _ _ _ _ _)

/-- The control word is SEND, ENQ, or an SVC whose token the dispatcher accepts. -/
def State.Sends (s : State) (t : Nat) (w : Word) : Prop :=
  bits w 31 28 = 3 ∨ bits w 31 28 = 4 ∨ (bits w 31 28 = 6 ∧ s.svcAccepts t (bits w 27 20) (bits w 6 5) = true)

theorem State.Sends.op {w : Word} (h : s.Sends t w) : bits w 31 28 = 3 ∨ bits w 31 28 = 4 ∨ bits w 31 28 = 6 :=
  h.imp id (Or.imp id And.left)

/-- With a place free such a word does not hold. -/
theorem State.Sends.holdOf {w : Word} (h : s.Sends t w) (room : (s.tile t).retry.length < 32) :
    s.holdOf t w = none := by
  have free := Tile.placesFull_of_lt room
  rcases h with op | op | ⟨op, accepts⟩
  · simp only [State.holdOf, op, free, Bool.false_eq_true, if_false]
  · simp only [State.holdOf, op, free, Bool.false_eq_true, if_false]
  · simp only [State.holdOf, op, free, accepts, Bool.false_eq_true, if_false, if_true]

theorem State.ctrlAct_issues (w : s.TilesWf) {word : Word}
    (op : bits word 31 28 = 3 ∨ bits word 31 28 = 4 ∨ bits word 31 28 = 6) :
    MapsTiles [t] Tile.Issued s (s.ctrlAct t word) := by
  rcases op with op | op | op
  · simp only [State.ctrlAct, op]
    exact State.sendOp_maps w _ _ _ _ _
  · simp only [State.ctrlAct, op]
    exact State.sendOp_maps w _ _ _ _ _
  · simp only [State.ctrlAct, op]
    exact State.setTile_issued w (x := (s.tile t).countPkt) rfl rfl

end

end Sys2Proof.Machine
end

section
/-! ## A place that becomes free (R138, R487) -/

namespace Sys2Proof.Machine

/-- Packets have been applied to the tile: it stands at its step, with its program and its interface as they were. -/
structure Tile.Received (x y : Tile) : Prop where
  step : y.step = x.step
  ctrl : y.ctrl = x.ctrl
  tmpl : y.tmpl = x.tmpl
  xbatch : y.xbatch = x.xbatch
  retry : y.retry = x.retry

theorem Tile.Received.trans {x y z : Tile} (a : x.Received y) (b : y.Received z) : x.Received z :=
  ⟨b.step.trans a.step, b.ctrl.trans a.ctrl, b.tmpl.trans a.tmpl, b.xbatch.trans a.xbatch, b.retry.trans a.retry⟩

theorem Tile.takeData_received (x : Tile) (p : Packet) : x.Received (x.takeData p).1 := by
  unfold Tile.takeData
  split
  · exact ⟨rfl, rfl, rfl, rfl, rfl⟩
  · split
    · next y put =>
      unfold Tile.enqueue at put
      split at put
      · exact Option.some.inj put ▸ ⟨rfl, rfl, rfl, rfl, rfl⟩
      · cases put
    · exact ⟨rfl, rfl, rfl, rfl, rfl⟩
  · exact ⟨rfl, rfl, rfl, rfl, rfl⟩

/-- Packets applied to tile t: no other tile changes, nor what the dispatcher holds, nor whether it is enabled. -/
structure Arrived (t : Nat) (s r : State) : Prop where
  tiles : s.TilesWf → MapsTiles [t] Tile.Received s r
  calm : Calm s r
  svc : r.svc = s.svc

section
variable {t : Nat} {s q r : State}

theorem Arrived.of_tiles (tiles : r.tiles = s.tiles) (calm : Calm s r) (svc : r.svc = s.svc) : Arrived t s r :=
  ⟨fun w => MapsTiles.of_tiles (s := s) ⟨w, fun _ _ => ⟨rfl, rfl, rfl, rfl, rfl⟩, fun _ _ => rfl⟩ rfl tiles, calm, svc⟩

theorem Arrived.trans (a : Arrived t s q) (b : Arrived t q r) : Arrived t s r := by
  refine ⟨fun w => ?_, a.calm.trans b.calm, b.svc.trans a.svc⟩
  have first := a.tiles w
  exact (first.trans (b.tiles first.wf)).mono fun _ _ ⟨_, one, two⟩ => one.trans two

theorem State.applyPacket_arrived (s : State) (t : Nat) (p : Packet) : Arrived t s (s.applyPacket t p) := by
  have err (s : State) (b : Bool) (pg code info : Nat) :
      Calm s (if b then (s.tileErr t pg code info).haltRequest 8 else s) := by
    split
    · exact (Calm.err (tile_aligned t pg) s code info).trans (Calm.haltRequest _ 8)
    · exact Calm.refl s
  have calm : Calm s (s.applyPacket t p) := ((Calm.setTile s t _).trans (err _ _ _ _ _)).trans (err _ _ _ _ _)
  refine ⟨fun w => ?_, calm, (s.applyPacket_only t p).2 .svc (by simp)⟩
  have data := (s.tile t).takeData_received p
  refine (State.setTile_maps w t (x := s.tileTaken t p) ?_).of_tiles rfl (s.applyPacket_tiles t p)
  rw [State.tileTaken_eq]
  exact ⟨data.step, data.ctrl, data.tmpl, data.xbatch, data.retry⟩

theorem State.replayArrivals_arrived (s : State) (t n : Nat) : Arrived t s (s.replayArrivals t n) := by
  have all {f : State → LogRec → State} (step : ∀ s a, Arrived t s (f s a)) (l : List LogRec) :
      ∀ s : State, Arrived t s (l.foldl f s) := by
    induction l with
    | nil => exact fun s => Arrived.of_tiles rfl (Calm.refl s) rfl
    | cons a l ih => exact fun s => (step s a).trans (ih _)
  unfold State.replayArrivals
  refine all (fun s rec => ?_) _ s
  split
  · next k p =>
    have taken : Arrived t s { s with prf := { s.prf with replay := s.prf.replay.erase (.arrive k p) } } :=
      Arrived.of_tiles rfl (Calm.prf s _) rfl
    exact taken.trans (State.applyPacket_arrived _ t p)
  · exact Arrived.of_tiles rfl (Calm.refl s) rfl

/-- The packets of a replay change nothing that lets a SEND, ENQ or SVC act. -/
theorem Arrived.sends (a : Arrived t s r) (w : s.Canonical) {word : Word} (h : s.Sends t word) : r.Sends t word := by
  have tile := (a.tiles w.2.1).one.1
  obtain ⟨-, keeps⟩ := a.calm.regs w.1
  have en : r.pageEn svcPage = s.pageEn svcPage := (keeps svcPage (by decide)).1 0 (by decide)
  refine h.imp id (Or.imp id fun ⟨op, accepts⟩ => ⟨op, ?_⟩)
  rw [← accepts]
  simp only [State.svcAccepts, a.svc, en, Tile.template, tile.tmpl, tile.xbatch]

theorem execRetryBufferFree_due {h : Hold} (ht : t < 136) (on : s.executing t = true)
    (held : (s.tile t).hold = some h) (kind : h.kind = .retry) (room : (s.tile t).retry.length < 32) :
    exec (.retryBufferFree t) s = .next (s.tileStep t) := by
  refine (onTile_of ht _).trans (whenDue_of ?_ _ _)
  simp [on, held, kind, Tile.placesFull_of_lt room]

/-- The step of a tile that held for a place runs: it goes to its next step. -/
theorem State.tileStep_sends (w : s.Canonical) (room : (s.tile t).retry.length < 32) (more : (s.tile t).step < 1023)
    (sends : s.Sends t ((s.tile t).ctrlWord (s.tile t).step)) :
    ((s.tileStep t).tile t).hold = none ∧ ((s.tileStep t).tile t).step = (s.tile t).step + 1 ∧
    TilesBut t s (s.tileStep t) := by
  have arrived := s.replayArrivals_arrived t (s.tile t).step
  have ready := arrived.sends w sends
  have came := arrived.tiles w.2.1
  generalize arrivals : s.replayArrivals t (s.tile t).step = q at ready came
  obtain ⟨received, first⟩ := came.one
  have fetched : (q.tile t).ctrlWord (s.tile t).step = (s.tile t).ctrlWord (s.tile t).step := by
    rw [Tile.ctrlWord, received.ctrl, Tile.ctrlWord]
  have run := State.tileStep_runs arrivals (fetched.symm ▸ ready.holdOf (received.retry.symm ▸ room))
  have moved := (q.flowErrs_flows t (s.tile t).step).tiles came.wf
  generalize q.flowErrs t (s.tile t).step = f at moved run
  obtain ⟨f, errs⟩ := f
  obtain ⟨flowed, second⟩ := moved.one
  obtain ⟨stands, words, -⟩ := flowed.stands
  have step : (f.tile t).step = (s.tile t).step := stands.trans received.step
  have word : (f.tile t).ctrlWord (f.tile t).step = (s.tile t).ctrlWord (s.tile t).step := by
    rw [step, words, fetched]
  have op := (word.symm ▸ sends : s.Sends t ((f.tile t).ctrlWord (f.tile t).step)).op
  have issued := State.ctrlAct_issues (t := t) moved.wf op
  obtain ⟨acted, third⟩ := issued.one
  obtain ⟨hold, next, -, rest⟩ := State.runStep_advances (s := f) (t := t) errs (by omega) (by omega)
    (step.symm ▸ more.ne) rfl issued.wf
  rw [run]
  refine ⟨hold, next.trans ?_, ((first.trans second).trans third).trans rest⟩
  rw [acted, ← step]

end

/-- Settles O17: a hold past its limit is `waitTimeout`, which stops the device at once; with a place free the step of
a tile that held for one runs. -/
theorem holdLimitsStopTheDevice : Obligations.HoldLimitsStopTheDevice := by
  intro t h s w ht on held x stopped
  exact ⟨fun kind limit passed => ⟨_, execWaitTimeout_due ht on held kind limit passed,
      State.waitTimeout_stops w ht on 0⟩,
    fun kind limit passed => ⟨_, execRestTimeout_due ht on held kind limit passed, State.waitTimeout_stops w ht on 1⟩,
    fun kind room more sends => ⟨_, execRetryBufferFree_due ht on held kind room,
      State.tileStep_sends w room more sends⟩⟩

end Sys2Proof.Machine
end

section
/-! ## A token of no tile's TYPE while the internal class has a free entry (R222, R240) -/

namespace Sys2Proof.Machine

/-- A fill of the model cache, for line 1, which has no entry of the store yet. -/
def waitingFill : SvcItem := blankItem .mcache 0x20 0 64

/-- A token 0 of virtual tile 2 whose template has TYPE 0 and CKIND 0. -/
def typelessToken : Token := ⟨0x55, 0, 2, 0, 3, 0, true⟩

/-- An empty store, as a reset of the dispatcher can leave it, with the cache's fill waiting for an entry and the token
on its way. -/
def fillWaiting : State :=
  { State.reset with svc := { Service.reset with tokens := [typelessToken], waitItems := [waitingFill] } }

theorem fillWaiting_canonical : fillWaiting.Canonical := State.canonical_of_check (by decide +kernel)

/-- The entry that the refused token leaves lets the waiting fill into the store. -/
theorem fillWaiting_store : ∃ t, exec (.svcTokenArrival 0) fillWaiting = .next t ∧
    t.svc.store.map SvcItem.source = [.mcache] :=
  ⟨_, rfl, by decide +kernel⟩

/-- Refutes O35: a token of a TYPE that no tile may issue opens an entry that is freed at once, and an item that waits
for an entry of the internal class takes its turn (R222); so the store holds an item that it did not hold before, which
the third clause denies. Nothing that a canonical state is keeps items from waiting while that class has room. -/
theorem not_tokensAndItems : ¬ Obligations.TokensAndItems := by
  unfold Obligations.TokensAndItems
  intro h
  obtain ⟨-, -, badType, -⟩ := h.1 0 0 typelessToken waitingFill waitingFill fillWaiting fillWaiting_canonical
  obtain ⟨r, hr, -, held, -⟩ :=
    badType ⟨rfl, nofun⟩ rfl (by decide) (by decide) (by decide) (by decide)
  obtain ⟨t, ht, store⟩ := fillWaiting_store
  obtain rfl : t = r := by rw [ht] at hr; exact Host.Outcome.next.inj hr
  obtain ⟨j, hj, -⟩ := List.mem_map.mp (store ▸ List.mem_singleton_self SvcSource.mcache)
  exact List.not_mem_nil (held j hj)

end Sys2Proof.Machine
end

section
/-! ## What the acquisition engine leaves alone on its way to IDLE (R423, R426, R438, R439) -/

namespace Sys2Proof.Machine

theorem State.dropItems_only (s : State) (p : SvcItem → Bool) : Only [.svc] s (s.dropItems p) :=
  Only.foldl (fun s (i : SvcItem) => s.dropItem_only i.id) _ s

theorem State.dropRunning_only (s : State) (p : SvcItem → Bool) : Only [.svc] s (s.dropRunning p) :=
  (s.dropItems_only p).trans (Only.svc _ _)

/-- The parts that the engine changes when it closes its stream. -/
def streamParts : List Part := [.regs, .mem, .acq, .svc, .con, .host]

/-- A larder bank wakes: what the larder and DDR hold stays. -/
theorem State.touchLarder_spec (s : State) (b : Nat) : Only [.regs, .mem] s (s.touchLarder b) ∧
    (s.touchLarder b).mem.larder = s.mem.larder ∧ (s.touchLarder b).mem.ddr = s.mem.ddr :=
  State.touchLarder_foldl [b] s

theorem State.acqBytes_only (s : State) (a : Nat) (d : List Byte) : Only streamParts s (s.acqBytes a d) := by
  unfold State.acqBytes
  split
  · exact Only.refl _ s
  · exact ((s.touchLarder_spec _).1.mono (by simp [streamParts])).trans ((Only.mem _ _).mono (by simp [streamParts]))

theorem Only.stream_acq (s : State) (x : Acq) : Only streamParts s { s with acq := x } :=
  (Only.acq s x).mono (by simp [streamParts])

theorem State.padBlock_only (s : State) : Only streamParts s s.padBlock := by
  unfold State.padBlock
  split
  · exact Only.refl _ s
  · exact (s.acqBytes_only _ _).trans (Only.stream_acq _ _)

theorem State.acqWrite_only {s t : State} {r : List Byte} (h : s.acqWrite r = some t) : Only streamParts s t := by
  have padded : Only streamParts s
      (if 0 < s.acq.wrUnits ∧ 256 < s.acq.wrUnits + r.length / 16 then s.padBlock else s) := by
    split
    · exact s.padBlock_only
    · exact Only.refl _ s
  unfold State.acqWrite at h
  dsimp only at h
  generalize (if 0 < s.acq.wrUnits ∧ 256 < s.acq.wrUnits + r.length / 16 then s.padBlock else s) = u at padded h
  split at h
  · rw [← Option.some.inj h]
    have written := padded.trans (u.acqBytes_only (u.acq.blockAddr u.acq.wrBlock + 16 * u.acq.wrUnits) r)
    generalize u.acqBytes _ _ = v at written
    have counted := written.trans (Only.stream_acq v { v.acq with wrUnits := v.acq.wrUnits + r.length / 16 })
    split
    · exact counted.trans (Only.stream_acq _ _)
    · exact counted
  · cases h

theorem State.noteRecord_only (s : State) (kind seg block : Nat) :
    Only streamParts s (s.noteRecord kind seg block) := by
  unfold State.noteRecord
  split
  · exact Only.stream_acq s _
  · dsimp only
    split
    · exact (Only.stream_acq s _).trans (State.padBlock_only _)
    · exact Only.stream_acq s _
  · exact Only.refl _ s

theorem State.flushQueue_only (n : Nat) (s : State) : Only streamParts s (State.flushQueue n s) := by
  induction n generalizing s with
  | zero => exact Only.refl _ s
  | succ n ih =>
    unfold State.flushQueue
    split
    · exact Only.refl _ s
    · dsimp only
      split
      · exact s.padBlock_only
      · next written =>
        exact (((State.acqWrite_only written).trans (Only.stream_acq _ _)).trans (State.noteRecord_only _ _ _ _)).trans
          (ih _)

theorem State.flushOut_only (s : State) : Only streamParts s s.flushOut := by
  have flushed := State.flushQueue_only s.acq.out.length s
  unfold State.flushOut
  dsimp only
  generalize State.flushQueue _ s = t at flushed
  split
  · split
    · next written => exact (flushed.trans (State.acqWrite_only written)).trans (Only.stream_acq _ _)
    · exact flushed.trans t.padBlock_only
  · exact flushed

theorem State.putRecord_only (s : State) (kind seg : Nat) (r : List Byte) :
    Only streamParts s (s.putRecord kind seg r) :=
  (Only.stream_acq s _).trans (State.flushOut_only _)

theorem State.putAll_only {l : List (List Byte)} {s t : State} (h : s.putAll l = some t) : Only streamParts s t := by
  induction l generalizing s with
  | nil => rw [← Option.some.inj h]; exact Only.refl _ s
  | cons r l ih =>
    unfold State.putAll at h
    split at h
    · next written => exact (State.acqWrite_only written).trans (ih h)
    · cases h

theorem State.dropBatches_only (s : State) (l : List DWord) : Only streamParts s (s.dropBatches l) := by
  unfold State.dropBatches
  dsimp only
  refine Only.trans (Only.trans ?_ ((State.countReg_only _ .acqDropped _ _ 0 0).mono (by simp [streamParts])))
    (Only.stream_acq _ _)
  split
  · exact (s.err_only _ _ _).mono (by simp [streamParts])
  · exact Only.refl _ s

theorem State.putBatch_only (s : State) (batches : List DWord) (recs : List (List Byte)) :
    Only streamParts s (s.putBatch batches recs) := by
  have flushed := s.flushOut_only
  unfold State.putBatch
  dsimp only
  generalize s.flushOut = t at flushed
  split
  · exact Only.refl _ s
  · split
    · exact flushed.trans (Only.foldl (fun s r => s.putRecord_only 0 0 r) _ t)
    · split
      · split
        · next written => exact flushed.trans (State.putAll_only written)
        · exact flushed.trans (t.padBlock_only.trans (State.dropBatches_only _ _))
      · exact flushed.trans (t.dropBatches_only _)

theorem State.flushGroup_only (s : State) : Only streamParts s s.flushGroup := by
  unfold State.flushGroup
  split
  · exact Only.refl _ s
  · dsimp only
    split
    · exact Only.refl _ s
    · exact (s.putBatch_only _ _).trans (Only.stream_acq _ _)

theorem State.closeGap_only (s : State) : Only streamParts s s.closeGap := by
  unfold State.closeGap
  split
  · exact Only.refl _ s
  · exact Only.stream_acq s _

theorem State.closeSegment_only (s : State) (truncated : Bool) : Only streamParts s (s.closeSegment truncated) := by
  have grouped : Only streamParts s s.flushGroup.closeGap := s.flushGroup_only.trans (State.closeGap_only _)
  unfold State.closeSegment
  dsimp only
  generalize s.flushGroup.closeGap = t at grouped
  split
  · exact grouped
  · exact ((((grouped.trans (Only.foldl (fun s r => s.putRecord_only 0 _ r) _ t)).trans
      (State.putRecord_only _ _ _ _)).trans (Only.stream_acq _ _)).trans (Only.stream_acq _ _)).trans
      ((State.raise_only _ _ _).mono (by simp [streamParts]))

theorem State.acqIdle_only (s : State) : Only streamParts s s.acqIdle :=
  (((s.dropRunning_only _).mono (by simp [streamParts])).trans (Only.stream_acq _ _)).trans
    ((State.raise_only _ _ _).mono (by simp [streamParts]))

theorem State.acqDrain_only (s : State) : Only streamParts s s.acqDrain := by
  have begun := Only.stream_acq s { s.acq with state := .drain, sampled := [] }
  unfold State.acqDrain State.drainAcq
  generalize ({ s with acq := { s.acq with state := .drain, sampled := [] } } : State) = t at begun
  have padded := begun.trans (t.flushOut_only.trans (State.padBlock_only _))
  dsimp only
  generalize t.flushOut.padBlock = u at padded
  split
  · exact begun
  · split
    · exact padded.trans u.acqIdle_only
    · unfold State.spillNext
      split
      · exact padded.trans ((u.issueInternal_only _).mono (by simp [streamParts]))
      · exact padded

/-- A STOP of the engine changes its stream, the store and registers. -/
theorem State.acqStop_only (s : State) (halted : Bool) : Only streamParts s (s.acqStop halted) := by
  have ended {t : State} (h : Only streamParts s t) :
      Only streamParts s (if halted && t.acq.state ≠ .idle then t.acqIdle else t) := by
    split
    · exact h.trans t.acqIdle_only
    · exact h
  unfold State.acqStop
  split
  · exact Only.refl _ s
  · exact s.acqIdle_only
  · exact ended ((s.closeSegment_only true).trans (State.acqDrain_only _))
  · exact ended s.acqDrain_only

end Sys2Proof.Machine
end

section
/-! ## Pantry banks taken by the loader, and what a load discards (R191, R221, R283) -/

namespace Sys2Proof.Machine

theorem State.startHandover_only (s : State) (h : Handover) : Only [.regs, .mem] s (s.startHandover h) := by
  have owned (w : Word) : Only [.regs] s (s.setOwn h.larder h.ptile h.bank w) := by
    unfold State.setOwn
    split <;> exact s.setReg_only _ _
  exact ((owned _).mono (by simp)).trans ((Only.mem _ _).mono (by simp))

/-- The end of a pantry bank's handover, CLEAR included. -/
theorem State.endHandover_only (s : State) {h : Handover} (pantry : h.larder = false) :
    Only [.regs, .mem, .tiles, .host] s (s.endHandover h) := by
  unfold State.endHandover State.drainBank
  simp -zeta only [pantry, Bool.false_and, Bool.false_eq_true, if_false]
  extract_lets _ cleared _ _ _ owned _ released _ given
  have hCleared : Only [.regs, .mem, .tiles, .host] s cleared := by
    unfold cleared
    split
    · exact (s.setTile_only h.ptile _).mono (by simp)
    · exact Only.refl _ s
  have hOwned : Only [.regs, .mem, .tiles, .host] s owned := hCleared.trans ((cleared.setReg_only _ _).mono (by simp))
  have hGiven : Only [.regs, .mem, .tiles, .host] s given :=
    ((hOwned.trans ((Only.mem owned _).mono (by simp))).trans ((released.setReg_only _ _).mono (by simp))).trans
      ((State.raise_only _ _ _).mono (by simp))
  split
  · exact (hGiven.trans ((Only.mem _ _).mono (by simp))).trans ((State.startHandover_only _ _).mono (by simp))
  · exact hGiven

theorem State.giveBank_only (s : State) {h : Handover} (pantry : h.larder = false) :
    Only [.regs, .mem, .tiles, .host] s (s.giveBank h) := by
  have ended : Only [.regs, .mem, .tiles, .host] s (
      match s.mem.handovers.find? fun q => q.of h.larder h.ptile h.bank with
      | some q => s.endHandover q
      | none => s) := by
    split
    · next found =>
      exact s.endHandover_only (Handover.of_pantry.mp (pantry ▸ List.find?_some found)).1
    · exact Only.refl _ s
  exact (ended.trans ((State.startHandover_only _ _).mono (by simp))).trans (State.endHandover_only _ pantry)

theorem State.takePantry_only (s : State) (t : Nat) : Only [.regs, .mem, .tiles, .host] s (s.takePantry t) :=
  Only.foldl (fun s _ => s.giveBank_only rfl) _ s

theorem State.dropTileItems_only (s : State) : Only [.svc] s s.dropTileItems :=
  (s.dropItems_only _).trans (Only.svc _ _)

theorem State.clearSinceLoad_only (s : State) : Only [.regs] s s.clearSinceLoad :=
  Only.foldl (fun s _ => (s.setReg_only _ _).trans (State.setReg_only _ _ _)) _ s

theorem State.unmap_only (s : State) : Only [.tiles] s s.unmap := s.mapTiles_only _

theorem State.vdioAlert_only (s : State) : Only [.regs] s s.vdioAlert := s.setReg_only _ _

end Sys2Proof.Machine
end

section
/-! ## Requests of a load to the encryption engine (R196, R199, R201, R310, R328) -/

namespace Sys2Proof.Machine

/-- A step of a load that reads or writes storage: of the loader it changes SHADOW_OK alone, the pins, the network and
the proof that is held stay, and the registers stay canonical. -/
structure LoadStep (s r : State) : Prop where
  ldr : r.ldr = { s.ldr with shadowOk := r.ldr.shadowOk }
  pins : r.pins = s.pins
  net : r.net = s.net
  cur : r.prf.cur = s.prf.cur
  wf : Table.wf regInit s.regs = true → Table.wf regInit r.regs = true

section
variable {s t r : State}

theorem LoadStep.refl (s : State) : LoadStep s s := ⟨rfl, rfl, rfl, rfl, id⟩

theorem LoadStep.trans (a : LoadStep s t) (b : LoadStep t r) : LoadStep s r :=
  ⟨by rw [b.ldr, a.ldr], b.pins.trans a.pins, b.net.trans a.net, b.cur.trans a.cur, b.wf ∘ a.wf⟩

theorem LoadStep.foldl {α : Type} {f : State → α → State} (step : ∀ s a, LoadStep s (f s a)) :
    ∀ (l : List α) (s : State), LoadStep s (l.foldl f s)
  | [], s => LoadStep.refl s
  | a :: l, s => (step s a).trans (LoadStep.foldl step l (f s a))

/-- A change of other parts that keeps the registers canonical. -/
theorem LoadStep.of_only {l : List Part} (h : Only l s r) (wf : Table.wf regInit s.regs = true →
    Table.wf regInit r.regs = true) (ldr : .ldr ∉ l) (pins : .pins ∉ l) (net : .net ∉ l) (prf : .prf ∉ l) :
    LoadStep s r := by
  have same : r.ldr = s.ldr := h.2 .ldr ldr
  exact ⟨by rw [same], h.2 .pins pins, h.2 .net net, congrArg Proofs.cur (h.2 .prf prf), wf⟩

theorem LoadStep.of_records (h : Records [] s r) : LoadStep s r :=
  LoadStep.of_only h.only (fun w => (h.regs w).1) (by simp) (by simp) (by simp) (by simp)

theorem LoadStep.setReg (s : State) (a : Nat) (v : Word) : LoadStep s (s.setReg a v) :=
  LoadStep.of_records (Records.setReg List.not_mem_nil s v)

theorem LoadStep.err (s : State) (page code info : Nat) : LoadStep s (s.err page code info) :=
  LoadStep.of_records (Records.err (by simp) s code info)

theorem LoadStep.cause (s : State) (page i : Nat) : LoadStep s (s.cause page i) :=
  LoadStep.of_records (Records.cause List.not_mem_nil s i)

theorem LoadStep.tiles (h : Only [.tiles] s r) : LoadStep s r :=
  LoadStep.of_only h (fun w => (h.2 .regs (by simp) : r.regs = s.regs) ▸ w) (by simp) (by simp) (by simp) (by simp)

theorem LoadStep.mem (s : State) (x : Memories) : LoadStep s { s with mem := x } := ⟨rfl, rfl, rfl, rfl, id⟩

theorem LoadStep.svc (s : State) (x : Service) : LoadStep s { s with svc := x } := ⟨rfl, rfl, rfl, rfl, id⟩

/-- What the step says of the states that come of it by a change of the proofs beside the one held. -/
theorem LoadStep.prf (s : State) {x : Proofs} (cur : x.cur = s.prf.cur) : LoadStep s { s with prf := x } :=
  ⟨rfl, rfl, rfl, cur, id⟩

/-! ### An integrity failure (R143, R328) -/

theorem LoadStep.haltTaken (s : State) : LoadStep s s.haltTaken := by
  have repaired := s.softRepair_repaired
  have first : LoadStep s s.softRepair :=
    LoadStep.of_only repaired.only repaired.reports.wf (by simp) (by simp) (by simp) (by simp)
  unfold State.haltTaken
  dsimp only
  generalize s.softRepair = q at first
  exact first.trans ⟨rfl, rfl, rfl, rfl, id⟩

theorem LoadStep.setRun (s : State) (x : RunState) : LoadStep s (s.setRun x) :=
  LoadStep.of_only (s.setRun_only x) (fun w => ((s.setRun_only x).2 .regs (by simp) : _ = s.regs) ▸ w)
    (by simp) (by simp) (by simp) (by simp)

theorem LoadStep.stopAll (s : State) (causes : BitVec 13) : LoadStep s (s.stopAll causes) := by
  have halt := (LoadStep.tiles (s.mapTiles_only _)).trans (LoadStep.haltTaken s.stopTiles)
  unfold State.stopAll
  dsimp only
  generalize s.stopTiles.haltTaken = t at halt
  refine ((halt.trans ?_).trans (LoadStep.setRun _ .halted)).trans (LoadStep.cause _ _ 1)
  exact ⟨rfl, rfl, rfl, rfl, id⟩

theorem LoadStep.immediateStop (s : State) (c : Nat) : LoadStep s (s.immediateStop c) := by
  unfold State.immediateStop
  split
  · exact LoadStep.refl s
  · exact LoadStep.stopAll s _

theorem LoadStep.integrityFail (s : State) (a cls slot queue : Nat) (rmw : Bool) :
    LoadStep s (s.integrityFail a cls slot queue rmw) := by
  have noted (v : DWord) (w : Word) : LoadStep s (if bit (s.rd .encFailInfo) 31 then s
      else (s.wr64 .encFailLo .encFailHi v).wr .encFailInfo w) := by
    split
    · exact LoadStep.refl s
    · exact ((LoadStep.setReg _ _ _).trans (LoadStep.setReg _ _ _)).trans (LoadStep.setReg _ _ _)
  unfold State.integrityFail
  dsimp only
  refine LoadStep.trans ?_ ((LoadStep.tiles (State.mapTiles_only _ _)).trans (LoadStep.immediateStop _ 11))
  refine LoadStep.trans ?_ (LoadStep.setReg _ _ _)
  refine LoadStep.trans ?_ ((LoadStep.err _ _ _ _).trans (LoadStep.cause _ _ 1))
  refine LoadStep.trans ?_ (LoadStep.setReg _ _ _)
  exact (noted _ _).trans ⟨rfl, rfl, rfl, rfl, id⟩

/-! ### Lines (R310, R314, R324) -/

theorem LoadStep.meetChannel (s : State) (a : Nat) : LoadStep s (s.meetChannel a) := by
  unfold State.meetChannel
  split
  · exact LoadStep.mem s _
  · exact LoadStep.refl s

theorem LoadStep.ddrUe (s : State) (a : Nat) : LoadStep s (s.ddrUe a) :=
  (LoadStep.setReg _ _ _).trans (LoadStep.err _ _ _ _)

theorem LoadStep.touchTag (s : State) (a : Nat) (b : Prop) [Decidable b] :
    LoadStep s (if b then s.touchTag a else s) := by
  split
  · exact LoadStep.mem s _
  · exact LoadStep.refl s

theorem LoadStep.writeTag (s : State) (a : Nat) : LoadStep s (s.writeTag a) := by
  unfold State.writeTag
  split
  · exact (LoadStep.mem s _).trans (LoadStep.mem _ _)
  · exact LoadStep.refl s

/-- A line read, where the DRAM meets no error. -/
theorem LoadStep.lineRead (s : State) (q : Requester) (slot a : Nat) (read write : Bool) :
    LoadStep s (s.lineRead q slot a read write .clean).2 := by
  unfold State.lineRead
  split
  · exact LoadStep.refl s
  · split
    · exact LoadStep.err s _ _ _
    · extract_lets met used cleaned tagged
      have meet : LoadStep s met := LoadStep.meetChannel s a
      have seen : LoadStep s tagged := meet.trans (LoadStep.touchTag cleaned a (cleaned.checked a = true))
      split
      · exact meet.trans (LoadStep.ddrUe met a)
      · split
        · exact seen.trans (LoadStep.integrityFail tagged _ _ _ _ _)
        · exact seen

/-- A part of a line written, where the DRAM meets no error. -/
theorem LoadStep.linePut (s : State) (q : Requester) (slot a : Nat) (d : List Byte) :
    LoadStep s (s.linePut q slot a d .clean).2 := by
  unfold State.linePut
  split
  · exact LoadStep.refl s
  · split
    · exact LoadStep.err s _ _ _
    · extract_lets met used base whole blocks rmw cleaned tagged plain stored
      have meet : LoadStep s met := LoadStep.meetChannel s a
      have clean : cleaned = met := ite_self met
      have all : LoadStep s tagged := (clean ▸ meet : LoadStep s cleaned).trans (LoadStep.touchTag cleaned a _)
      split
      · exact meet.trans (LoadStep.ddrUe met a)
      · split
        · exact all.trans (LoadStep.integrityFail _ _ _ _ _ _)
        · have store : LoadStep s stored := all.trans (LoadStep.mem _ _)
          split
          · exact store.trans (LoadStep.writeTag _ _)
          · exact store

/-! ### The proof area and the shadow (R199, R201, R477) -/

theorem LoadStep.ddrReadParts (q : Requester) (slot : Nat) (l : List (Nat × Nat)) :
    ∀ (s : State) (acc : List Byte), LoadStep s (s.ddrReadParts q slot .clean l acc).2 := by
  induction l with
  | nil => exact fun s _ => LoadStep.refl s
  | cons e l ih =>
    obtain ⟨a, k⟩ := e
    intro s acc
    have read := LoadStep.lineRead s q slot a true false
    unfold State.ddrReadParts
    split
    · next h =>
      rw [h] at read
      exact read.trans (ih _ _)
    · next h =>
      rw [h] at read
      exact read.trans (ih _ _)

/-- Writes of requester PROOF, whose lines have no undo entry (R481). -/
theorem LoadStep.ddrWriteParts (slot : Nat) (l : List (Nat × Nat)) : ∀ (s : State) (d : List Byte),
    LoadStep s (s.ddrWriteParts reqProof slot .clean d l).2 := by
  induction l with
  | nil => exact fun s _ => LoadStep.refl s
  | cons e l ih =>
    obtain ⟨a, k⟩ := e
    intro s d
    have line : LoadStep s ((s.snoop a).lineWrite reqProof slot a (d.take k) .clean).2 :=
      (LoadStep.svc s _).trans (LoadStep.linePut _ _ _ _ _)
    unfold State.ddrWriteParts
    split
    · next h =>
      rw [h] at line
      exact line.trans (ih _ _)
    · next h =>
      rw [h] at line
      exact line.trans (ih _ _)

theorem LoadStep.getFrames (l : List (Nat × Nat × Nat)) (t a : Nat) :
    ∀ s : State, LoadStep s (s.getFrames t a .clean l).2 := by
  induction l with
  | nil => exact fun s => LoadStep.refl s
  | cons e l ih =>
    obtain ⟨str, o, off⟩ := e
    intro s
    have read : LoadStep s (s.prfRead (a + off) 4096 .clean).2 := LoadStep.ddrReadParts _ _ _ s []
    unfold State.getFrames
    split
    · next h =>
      rw [h] at read
      exact (read.trans (LoadStep.tiles (State.setTile_only _ t _))).trans (ih _)
    · next h =>
      rw [h] at read
      exact read

/-- The sleeping tiles woken from the proof that is held. -/
theorem LoadStep.wakeMapped (s : State) : LoadStep s s.wakeMapped := by
  have woken (s : State) (t : Nat) : LoadStep s (
      let x := s.tile t
      if x.power = .sleep then
        let s := s.setTile t { x with power := .on }
        match s.prf.cur, x.vtile with
        | some p, some v => (s.getFrames t (s.prfSlotAddr p.slot v) .clean slotFrames).2
        | _, _ => s
      else s) := by
    have on : LoadStep s (s.setTile t { s.tile t with power := .on }) := LoadStep.tiles (s.setTile_only t _)
    dsimp only
    split
    · split
      · exact on.trans (LoadStep.getFrames _ _ _ _)
      · exact on
    · exact LoadStep.refl s
  unfold State.wakeMapped
  split
  · exact LoadStep.refl s
  · exact (LoadStep.foldl (fun s t => woken s t) _ s).trans (LoadStep.prf _ rfl)

theorem LoadStep.putShadow (s : State) (off : Nat) (d : List Byte) : LoadStep s (s.putShadow off d) := by
  have wrote : LoadStep s (s.prfWrite (s.ldr.shadowAddr.toNat + off) d).2 := LoadStep.ddrWriteParts _ _ s d
  unfold State.putShadow
  split
  · split
    · next h =>
      rw [h] at wrote
      exact wrote
    · next h =>
      rw [h] at wrote
      exact wrote.trans ⟨rfl, rfl, rfl, rfl, id⟩
  · exact LoadStep.refl s

theorem LoadStep.zeroShadow (s : State) (v : Nat) : LoadStep s (s.zeroShadow v) :=
  LoadStep.foldl (fun s _ => LoadStep.putShadow s _ _) _ s

/-- Pantry banks taken by the loader. -/
theorem LoadStep.takePantry (s : State) (t : Nat) : LoadStep s (s.takePantry t) :=
  LoadStep.of_only (s.takePantry_only t)
    (fun w => ((Calm.foldl (fun _ hb s => Calm.giveBank rfl (List.mem_range.mp hb) s) s).regs w).1)
    (by simp) (by simp) (by simp) (by simp)

end

end Sys2Proof.Machine
end

section
/-! ## The loader in another state (R188, R203, R514) -/

namespace Sys2Proof.Machine

section
variable {s r : State}

/-- The registers that a change of the loader's state may store: READY, and the causes of READY and of the loader. -/
def ldrToRegs : List Nat := [Reg.addr .glbBootStat, rstPage + 0xC, ldrPage + 0xC]

theorem RegsBut.of_records {l : List Nat} (w : Table.wf regInit s.regs = true)
    (h : ∀ a, a ∉ l → Records [a] s r) : RegsBut l s r :=
  fun a ha => ((h a ha).regs w).2 a (List.mem_singleton.mpr rfl)

theorem State.checkReady_regsBut (w : Table.wf regInit s.regs = true) :
    RegsBut [Reg.addr .glbBootStat, rstPage + 0xC] s s.checkReady := by
  have shown : RegsBut [Reg.addr .glbBootStat, rstPage + 0xC] s s.readyShown := RegsBut.of_records w fun a ha => by
    simp only [List.mem_cons, List.not_mem_nil, or_false, not_or] at ha
    have store (t : State) (hi lo v : Nat) : Records [a] t (t.setFld .glbBootStat hi lo v) :=
      Records.setReg (by simpa using Ne.symm ha.1) t _
    exact ((((store s _ _ _).trans (store _ _ _ _)).trans (store _ _ _ _)).trans (Records.event _ _ _)).trans
      (Records.cause (by simpa using Ne.symm ha.2) _ 1)
  unfold State.checkReady
  split
  · exact shown
  · exact RegsBut.refl _ s

theorem State.autoloadEnd_regsBut (w : Table.wf regInit s.regs = true) (n : LdrState) :
    RegsBut [Reg.addr .glbBootStat, rstPage + 0xC] s (s.autoloadEnd n) := by
  unfold State.autoloadEnd
  split
  · have stored : RegsBut [Reg.addr .glbBootStat] s
        (({ s with sup := { s.sup with autoload := false } } : State).setFld .glbBootStat 28 28 1) :=
      State.setReg_regsBut (s := { s with sup := { s.sup with autoload := false } }) w _ _
    exact (stored.mono (by simp)).trans (State.checkReady_regsBut (State.wf_setReg w))
  · exact RegsBut.refl _ s

/-- The state in which the cause of the loader's new state comes. -/
def State.ldrMoved (s : State) (n : LdrState) : State :=
  ((s.setLdr { s.ldr with state := n }).event 0x4C [decText n.code]).autoloadEnd n

theorem State.ldrTo_eq {n : LdrState} (other : s.ldr.state ≠ n) : s.ldrTo n = (s.ldrMoved n).ldrCause n :=
  if_neg other

theorem State.ldrMoved_regsBut (w : Table.wf regInit s.regs = true) (n : LdrState) :
    RegsBut [Reg.addr .glbBootStat, rstPage + 0xC] s (s.ldrMoved n) := by
  have told := State.event_regs (s.setLdr { s.ldr with state := n }) 0x4C [decText n.code]
  exact (RegsBut.of_eq (s := s) told).trans (State.autoloadEnd_regsBut (told ▸ w) n)

theorem State.wf_ldrMoved (w : Table.wf regInit s.regs = true) (n : LdrState) :
    Table.wf regInit (s.ldrMoved n).regs = true := by
  have told := State.event_regs (s.setLdr { s.ldr with state := n }) 0x4C [decText n.code]
  unfold State.ldrMoved State.autoloadEnd
  split
  · exact ((Calm.checkReady _).regs (State.wf_setReg (told ▸ w))).1
  · exact told ▸ w

theorem State.cause_regsBut (w : Table.wf regInit s.regs = true) (page i : Nat) :
    RegsBut [page + 0xC] s (s.cause page i) := fun a ha => by
  rw [State.cause, State.reg_raise w, if_neg (by simpa using ha)]

theorem State.wf_ldrTo (w : Table.wf regInit s.regs = true) (n : LdrState) :
    Table.wf regInit (s.ldrTo n).regs = true := ((Calm.ldrTo s n).regs w).1

/-- Of the loader a change of its state changes nothing else. -/
theorem State.ldrTo_ldr (s : State) (n : LdrState) : (s.ldrTo n).ldr = { s.ldr with state := n } := by
  have ended (t : State) : (t.autoloadEnd n).ldr = t.ldr := by
    unfold State.autoloadEnd
    split
    · exact (State.checkReady_only _).2 .ldr (by simp)
    · rfl
  have caused (t : State) : (t.ldrCause n).ldr = t.ldr := by
    unfold State.ldrCause
    split
    · exact (t.raise_only _ _).2 .ldr (by simp)
    · exact (t.raise_only _ _).2 .ldr (by simp)
    · rfl
  unfold State.ldrTo
  split
  · next same => rw [← same]
  · rw [caused, ended]
    exact (State.event_only _ _ _).2 .ldr (by simp)

theorem State.ldrTo_regsBut (w : Table.wf regInit s.regs = true) (n : LdrState) :
    RegsBut ldrToRegs s (s.ldrTo n) := by
  by_cases same : s.ldr.state = n
  · rw [State.ldrTo, if_pos same]
    exact RegsBut.refl _ s
  · have moved : RegsBut ldrToRegs s (s.ldrMoved n) := (State.ldrMoved_regsBut w n).mono (by simp [ldrToRegs])
    have w1 := State.wf_ldrMoved w n
    rw [State.ldrTo_eq same]
    unfold State.ldrCause
    split
    · exact moved.trans ((State.cause_regsBut w1 _ _).mono (by simp [ldrToRegs]))
    · exact moved.trans ((State.cause_regsBut w1 _ _).mono (by simp [ldrToRegs]))
    · exact moved

/-- SERVICE raises LOADED (R203, R206). -/
theorem State.ldrTo_service_cause (w : Table.wf regInit s.regs = true) (other : s.ldr.state ≠ .service) :
    bit ((s.ldrTo .service).reg (ldrPage + 0xC)) 1 = true := by
  rw [State.ldrTo_eq other]
  exact State.bit_cause (State.wf_ldrMoved w _) ldrPage (by decide)

/-- FAILED raises the cause of a failure (R203, R206). -/
theorem State.ldrTo_failed_cause (w : Table.wf regInit s.regs = true) (other : s.ldr.state ≠ .failed) :
    bit ((s.ldrTo .failed).reg (ldrPage + 0xC)) 2 = true := by
  rw [State.ldrTo_eq other]
  exact State.bit_cause (State.wf_ldrMoved w _) ldrPage (by decide)

/-- A state that ends no load is told on the console alone. -/
theorem State.ldrTo_quiet {n : LdrState} (service : n ≠ .service) (failed : n ≠ .failed) :
    Only [.ldr, .con] s (s.ldrTo n) := by
  have moved : Only [.ldr, .con] s (s.ldrMoved n) := by
    have told := State.event_only (s.setLdr { s.ldr with state := n }) 0x4C [decText n.code]
    unfold State.ldrMoved State.autoloadEnd
    simp only [service, failed, decide_false, Bool.or_false, Bool.and_false, Bool.false_eq_true, if_false]
    exact ((Only.ldr s _).mono (by simp)).trans (told.mono (by simp))
  by_cases same : s.ldr.state = n
  · rw [State.ldrTo, if_pos same]
    exact Only.refl _ s
  · rw [State.ldrTo_eq same]
    unfold State.ldrCause
    split
    · exact absurd rfl service
    · exact absurd rfl failed
    · exact moved

/-- Once the autoload has ended, a change of state leaves the supply alone. -/
theorem State.ldrTo_only (s : State) (n : LdrState) (load : s.sup.autoload = false) :
    Only [.ldr, .regs, .con, .host] s (s.ldrTo n) := by
  have told := State.event_only (s.setLdr { s.ldr with state := n }) 0x4C [decText n.code]
  have still : ((s.setLdr { s.ldr with state := n }).event 0x4C [decText n.code]).sup.autoload = false :=
    (congrArg Supply.autoload (told.2 .sup (by simp))).trans load
  have moved : Only [.ldr, .regs, .con, .host] s (s.ldrMoved n) := by
    unfold State.ldrMoved State.autoloadEnd
    rw [still, Bool.false_and, if_neg Bool.false_ne_true]
    exact ((Only.ldr s _).mono (by simp)).trans (told.mono (by simp))
  by_cases same : s.ldr.state = n
  · rw [State.ldrTo, if_pos same]
    exact Only.refl _ s
  · rw [State.ldrTo_eq same]
    unfold State.ldrCause
    split
    · exact moved.trans ((State.raise_only _ _ _).mono (by simp))
    · exact moved.trans ((State.raise_only _ _ _).mono (by simp))
    · exact moved

/-! ## A load that fails (R202, R203, R209) -/

/-- A failure in this state leaves the image in service as it is (R203). -/
def Loader.keepsImage (l : Loader) : Bool :=
  match l.state with
  | .header => true
  | .stage => true
  | .check => l.partialLoad
  | _ => false

/-- The loader after a failed load (R203). -/
def Loader.afterFail (l : Loader) : Loader :=
  if l.keepsImage then { l with state := .failed, cfgerr := true, buf := [], kept := l.inService }
  else { l with
    state := .failed, cfgerr := true, buf := [], kept := false, inService := false, image := none, done := false
    setReset := true }

/-- The failure recorded: CFGERR_N asserted, and the bytes of an incomplete header or frame taken. -/
def State.failNoted (s : State) (code info : Nat) : State :=
  (s.err ldrPage code info).setLdr { (s.err ldrPage code info).ldr with cfgerr := true, buf := [] }

/-- The failure recorded and told, before the image is kept or lost. -/
def State.failTold (s : State) (code info : Nat) : State := (s.failNoted code info).ldrTo .failed

theorem State.failNoted_ldr (s : State) (code info : Nat) :
    (s.failNoted code info).ldr = { s.ldr with cfgerr := true, buf := [] } := by
  have same : (s.err ldrPage code info).ldr = s.ldr := (s.err_only _ _ _).2 .ldr (by simp)
  rw [← same]
  rfl

theorem State.wf_failNoted (w : Table.wf regInit s.regs = true) (code info : Nat) :
    Table.wf regInit (s.failNoted code info).regs = true := State.wf_err w ldrPage code info

theorem State.failTold_only (s : State) (code info : Nat) :
    Only [.ldr, .regs, .con, .host, .sup, .flash] s (s.failTold code info) :=
  (((s.err_only ldrPage code info).mono (by simp)).trans ((Only.ldr _ _).mono (by simp))).trans
    (State.ldrTo_spec _ .failed).1

theorem State.failTold_ldr (s : State) (code info : Nat) :
    (s.failTold code info).ldr = { s.ldr with state := .failed, cfgerr := true, buf := [] } := by
  rw [State.failTold, State.ldrTo_ldr, State.failNoted_ldr]

theorem State.ldrFail_eq (s : State) (code info : Nat) : s.ldrFail code info =
    if s.ldr.keepsImage then (s.failTold code info).setLdr s.ldr.afterFail
    else ((s.failTold code info).unmap.setLdr s.ldr.afterFail).vdioAlert := by
  have told := s.failTold_ldr code info
  have unmapped : (s.failTold code info).unmap.ldr = _ := ((State.unmap_only _).2 .ldr (by simp)).trans told
  have unfolded : s.ldrFail code info =
      if s.ldr.keepsImage then
        (s.failTold code info).setLdr { (s.failTold code info).ldr with kept := (s.failTold code info).ldr.inService }
      else ((s.failTold code info).unmap.setLdr { (s.failTold code info).ldr with
        kept := false, inService := false, image := none, done := false, setReset := true }).vdioAlert := rfl
  rw [unfolded, told, Loader.afterFail]
  split <;> rfl

theorem State.ldrFail_ldr (s : State) (code info : Nat) : (s.ldrFail code info).ldr = s.ldr.afterFail := by
  rw [State.ldrFail_eq]
  split <;> rfl

theorem State.vdioAlert_regsBut (s : State) (w : Table.wf regInit s.regs = true) :
    RegsBut [Reg.addr .glbAlert] s s.vdioAlert := State.setReg_regsBut w _ _

/-- The registers of the loader's page that tell a failure. -/
structure FailShown (r : State) : Prop where
  count : 0 < bits (r.reg (ldrPage + 0x18)) 31 16
  cause : bit (r.reg (ldrPage + 0xC)) 2 = true

theorem FailShown.of_reg (h : FailShown s) (same : ∀ a, a ≠ Reg.addr .glbAlert → r.reg a = s.reg a) : FailShown r :=
  ⟨by rw [same _ (by decide)]; exact h.count, by rw [same _ (by decide)]; exact h.cause⟩

theorem State.failTold_shown (w : Table.wf regInit s.regs = true) (other : s.ldr.state ≠ .failed) {code : Nat}
    (hc : code < 2 ^ 16) (info : Nat) : FailShown (s.failTold code info) := by
  have w1 := State.wf_failNoted w code info
  have count : 0 < bits ((s.failNoted code info).reg (ldrPage + 0x18)) 31 16 := State.err_count_pos w _ _ hc
  have noted := s.failNoted_ldr code info
  unfold State.failTold
  generalize s.failNoted code info = t at w1 count noted
  refine ⟨?_, State.ldrTo_failed_cause w1 (noted ▸ other)⟩
  rw [State.ldrTo_regsBut w1 .failed _ (by decide)]
  exact count

/-- The image lost: the loader's record and GLB_ALERT do not show the failure. -/
theorem FailShown.lost (h : FailShown s) (w : Table.wf regInit s.regs = true) (l : Loader) :
    FailShown (s.setLdr l).vdioAlert :=
  h.of_reg fun a ha => State.vdioAlert_regsBut (s.setLdr l) w a (by simpa using ha)

theorem State.ldrFail_shown (w : Table.wf regInit s.regs = true) (other : s.ldr.state ≠ .failed) {code : Nat}
    (hc : code < 2 ^ 16) (info : Nat) : FailShown (s.ldrFail code info) := by
  have told := State.failTold_shown w other hc info
  have w1 : Table.wf regInit (s.failTold code info).regs = true := State.wf_ldrTo (State.wf_failNoted w code info) _
  rw [State.ldrFail_eq]
  split
  · exact told.of_reg fun _ _ => rfl
  · have regs : (s.failTold code info).unmap.regs = (s.failTold code info).regs :=
      (State.unmap_only _).2 .regs (by simp)
    exact (told.of_reg fun a _ => State.reg_congr regs a).lost (by rw [regs]; exact w1) _

/-- A failure that keeps the image leaves every tile alone. -/
theorem State.ldrFail_keeps (keeps : s.ldr.keepsImage = true) (code info : Nat) :
    Only [.ldr, .regs, .con, .host, .sup, .flash] s (s.ldrFail code info) := by
  rw [State.ldrFail_eq, if_pos keeps]
  exact (s.failTold_only code info).trans ((Only.ldr _ _).mono (by simp))

/-- A failed load leaves the memories alone. -/
theorem State.ldrFail_mem (s : State) (code info : Nat) : (s.ldrFail code info).mem = s.mem :=
  (s.ldrFail_spec code info).1.2 .mem (by simp)

/-- A failure with the bytes that it drops counted: as without them, LDR_DROPPED aside (R189, R209). -/
theorem State.dropBytes_only (s : State) (n : Nat) : Only [.regs] s (s.dropBytes n) := s.setReg_only _ _

theorem State.ldrReject_ldr (s : State) (code info : Nat) : (s.ldrReject code info).ldr = s.ldr.afterFail :=
  State.ldrFail_ldr _ _ _

theorem State.ldrReject_shown (w : Table.wf regInit s.regs = true) (other : s.ldr.state ≠ .failed) {code : Nat}
    (hc : code < 2 ^ 16) (info : Nat) : FailShown (s.ldrReject code info) :=
  State.ldrFail_shown (State.wf_setReg w) other hc info

theorem State.ldrReject_mem (s : State) (code info : Nat) : (s.ldrReject code info).mem = s.mem :=
  State.ldrFail_mem _ _ _

theorem State.ldrReject_keeps (keeps : s.ldr.keepsImage = true) (code info : Nat) :
    Only [.ldr, .regs, .con, .host, .sup, .flash] s (s.ldrReject code info) :=
  ((s.dropBytes_only _).mono (by simp)).trans (State.ldrFail_keeps (s := s.dropBytes s.ldr.buf.length) keeps _ _)

end

end Sys2Proof.Machine
end

section
/-! ## Bytes offered to the loader (R185, R187, R189) -/

namespace Sys2Proof.Machine

section
variable {s : State} {b : List Byte}

/-- The loader's record at the first bytes of a load. -/
def Loader.begun (l : Loader) (b : List Byte) : Loader :=
  { l with state := .header, buf := b, gapNs := 0, crc := 0xFFFFFFFF, partialLoad := l.lastPartial }

theorem State.beginLoad_spec (s : State) (some : b ≠ []) :
    (s.beginLoad b).ldr = s.ldr.begun b ∧ Only [.ldr, .con] s (s.beginLoad b) := by
  have full : b.isEmpty = false := by simpa using some
  rw [State.beginLoad, full, if_neg Bool.false_ne_true]
  refine ⟨State.ldrTo_ldr _ _, ?_⟩
  exact ((Only.ldr s _).mono (by simp)).trans (State.ldrTo_quiet (by simp) (by simp))

variable {src : Nat}

/-- Bytes of the selected source in EMPTY or SERVICE begin a load. -/
theorem State.offer_begins (sel : s.ldrSrc = src) (en : s.pageEn ldrPage = true)
    (rest : s.ldr.state = .empty ∨ s.ldr.state = .service) : s.offer src b = s.beginLoad b := by
  rcases rest with h | h <;> simp [State.offer, sel, en, h]

/-- Bytes of the selected source in HEADER, STAGE or WRITE join those received. -/
theorem State.offer_goesOn (sel : s.ldrSrc = src) (en : s.pageEn ldrPage = true)
    (load : s.ldr.state = .header ∨ s.ldr.state = .stage ∨ s.ldr.state = .write) :
    s.offer src b = s.setLdr { s.ldr with buf := s.ldr.buf ++ b, gapNs := 0 } := by
  rcases load with h | h | h <;> simp [State.offer, sel, en, h]

/-- Bytes in CHECK, COMMIT or FAILED are dropped and counted. -/
theorem State.offer_dropped (sel : s.ldrSrc = src) (en : s.pageEn ldrPage = true)
    (late : s.ldr.state = .check ∨ s.ldr.state = .commit ∨ s.ldr.state = .failed) :
    s.offer src b = s.dropBytes b.length := by
  rcases late with h | h | h <;> simp [State.offer, sel, en, h]

theorem execLdrDataWrite_open (reach : s.reachable = true) (srst : s.srst ldrPage = false) {size : Nat}
    (hs : size = 4 ∨ size = 8) (data : DWord) :
    exec (.ldrDataWrite size data) s = .next (s.offer 1 (leBytes size data.toNat)) := by
  show execLdrDataWrite size data s = _
  rw [execLdrDataWrite, onWrite_open reach srst, whenDue_of (by simpa using hs)]

/-- Bytes written to LDR_DATA, by the state of the loader (R185, R189, R209). -/
theorem ldrDataWrite_does (w : Table.wf regInit s.regs = true) (reach : s.reachable = true)
    (srst : s.srst ldrPage = false) (en : s.pageEn ldrPage = true) (sel : s.ldrSrc = 1) {size : Nat}
    (hs : size = 4 ∨ size = 8) (data : DWord) :
    (s.ldr.state = .empty ∨ s.ldr.state = .service → Does (.ldrDataWrite size data) s (fun r =>
      r.ldr.state = .header ∧ r.ldr.buf = leBytes size data.toNat ∧ r.ldr.inService = s.ldr.inService ∧
      Only [.ldr, .con] s r)) ∧
    (s.ldr.state = .header ∨ s.ldr.state = .stage ∨ s.ldr.state = .write → Does (.ldrDataWrite size data) s (fun r =>
      r.ldr = { s.ldr with buf := s.ldr.buf ++ leBytes size data.toNat, gapNs := 0 } ∧ Only [.ldr] s r)) ∧
    (s.ldr.state = .check ∨ s.ldr.state = .commit ∨ s.ldr.state = .failed → Does (.ldrDataWrite size data) s (fun r =>
      (r.rd .ldrDropped).toNat = min 0xFFFFFFFF ((s.rd .ldrDropped).toNat + size) ∧ Only [.regs] s r ∧
      RegsBut [Reg.addr .ldrDropped] s r)) := by
  have written := execLdrDataWrite_open reach srst hs data
  have some : leBytes size data.toNat ≠ [] := fun none => by
    have := congrArg List.length none
    rw [leBytes_length, List.length_nil] at this
    omega
  refine ⟨fun rest => ⟨_, written, ?_⟩, fun load => ⟨_, written, ?_⟩, fun late => ⟨_, written, ?_⟩⟩
  · obtain ⟨ldr, only⟩ := s.beginLoad_spec some
    rw [State.offer_begins sel en rest, ldr]
    exact ⟨rfl, rfl, rfl, only⟩
  · rw [State.offer_goesOn sel en load]
    exact ⟨rfl, Only.ldr s _⟩
  · rw [State.offer_dropped sel en late, leBytes_length]
    exact ⟨State.rd_countReg w _ _ _ _, s.dropBytes_only _, State.countReg_regsBut w _ _ _ _ _⟩

/-- The mask of LDR_CTRL keeps SRC. -/
theorem bits_srcMask (v : Word) : bits (v &&& 0x3) 1 0 = bits v 1 0 := by
  refine Nat.eq_of_testBit_eq fun i => ?_
  rw [testBit_bits, testBit_bits]
  by_cases low : i < 2
  · interval_cases i <;> simp [bit]
  · simp [show ¬ i < 1 + 1 - 0 by omega]

/-- SRC 2 written in EMPTY or SERVICE: the bytes of one image come from the boot flash (R187). -/
theorem ldrSpiRead_does (w : Table.wf regInit s.regs = true) (reach : s.reachable = true)
    (srst : s.srst ldrPage = false) (en : s.pageEn ldrPage = true) {val : Word} (flash : bits val 1 0 = 2)
    (rest : s.ldr.state = .empty ∨ s.ldr.state = .service) (some : b ≠ []) :
    Does (.ldrSpiRead val b) s (fun r => r.ldr.state = .header ∧ r.fld .ldrCtrl 1 0 = 2 ∧
      r.ldr.buf = b.take (80 + 4112 * field b 0x14 4) ∧ Only [.ldr, .con, .regs] s r ∧
      RegsBut [Reg.addr .ldrCtrl] s r) := by
  let u := s.wr .ldrCtrl (val &&& 0x3)
  let q := (u.spiStart 64).spiStart (imageLength b)
  have written : s.writeLdrCtrl val = u.spiStart 64 := by
    have idle : s.loading = false := by rcases rest with h | h <;> simp [State.loading, h]
    simp [State.writeLdrCtrl, idle, flash, rest, u]
  have run : exec (.ldrSpiRead val b) s = .next (q.offer 2 (imageBytes b)) := by
    show execLdrSpiRead val b s = _
    rw [execLdrSpiRead, onWrite_open reach srst, whenDue_of (by simpa using flash)]
    simp [written, rest, q]
  have src : q.ldrSrc = 2 := by
    show bits (u.rd .ldrCtrl) 1 0 = 2
    rw [State.rd_wr w, bits_srcMask, flash]
  have on : q.pageEn ldrPage = true := by
    show bit (u.reg (ldrPage + 4)) 0 = true
    rw [State.reg_wr w, if_neg (by decide)]
    exact en
  obtain ⟨ldr, only⟩ := q.beginLoad_spec (b := imageBytes b) (by
    rw [imageBytes, imageLength, Ne, List.take_eq_nil_iff]
    rintro (none | none)
    · omega
    · exact some none)
  refine ⟨_, run, ?_⟩
  rw [State.offer_begins src on rest]
  have regs : (q.beginLoad (imageBytes b)).regs = u.regs := only.2 .regs (by simp)
  have stored : Only [.ldr, .con, .regs] s q :=
    ((s.setReg_only _ _).mono (by simp)).trans (((Only.ldr u _).mono (by simp)).trans ((Only.ldr _ _).mono (by simp)))
  refine ⟨by rw [ldr]; rfl, ?_, by rw [ldr]; rfl, stored.trans (only.mono (by simp)), ?_⟩
  · exact (congrArg (bits · 1 0) (State.reg_congr regs _)).trans src
  · exact (State.setReg_regsBut w _ _).trans (RegsBut.of_eq (s := u) regs)

end

end Sys2Proof.Machine
end

section
/-! ## The header of an image (R190, R191, R195) -/

namespace Sys2Proof.Machine

/-- A check that fails does so with a code of 16 bits. -/
def CodeFits {β : Type} (o : Option (Nat × β)) : Prop := ∀ e ∈ o, e.1 < 2 ^ 16

section
variable {β γ : Type} {o q : Option (Nat × β)}

theorem CodeFits.none : CodeFits (none : Option (Nat × β)) := fun _ h => by cases h

theorem CodeFits.some {k : Nat} (hk : k < 2 ^ 16) (x : β) : CodeFits (some (k, x)) := fun _ h => by
  cases h
  exact hk

theorem CodeFits.ite {c : Prop} [Decidable c] (ho : CodeFits o) (hq : CodeFits q) : CodeFits (if c then o else q) := by
  split
  · exact ho
  · exact hq

theorem CodeFits.map {k : Nat} (hk : k < 2 ^ 16) (o : Option γ) (f : γ → β) :
    CodeFits (o.map fun d => (k, f d)) := by
  cases o with
  | none => exact CodeFits.none
  | some d => exact CodeFits.some hk _

end

/-- The codes of R190. -/
theorem State.headerCheck_code (s : State) (b : List Byte) : CodeFits (s.headerCheck b) := by
  have code {k : Nat} (x : Nat) (hk : k < 2 ^ 16 := by decide) : CodeFits (some (k, x)) := CodeFits.some hk x
  unfold State.headerCheck
  dsimp only
  refine .ite (code _) ?_
  split
  · exact code _
  · refine .ite (code _) (.ite (code _) (.ite (code _) (.ite (code _) ?_)))
    split
    · exact code _
    · refine .ite (code _) (.ite (code _) (.ite (code _) (.ite (code _) (.ite (code _) (.ite (code _)
        (.ite (code _) (.ite ?_ .none)))))))
      exact CodeFits.map (by decide) _ fun d => d

end Sys2Proof.Machine
end

section
/-! ## Headers accepted and refused (R190, R191, R195) -/

namespace Sys2Proof.Machine

section
variable {s : State}

/-- A field within the first bytes of a list. -/
theorem field_take (b : List Byte) {o n k : Nat} (h : o + n ≤ k) : field (b.take k) o n = field b o n := by
  rw [field, field, List.drop_take, List.take_take, Nat.min_eq_left (by omega)]

/-- The 64 bytes of the header taken from the buffer. -/
def State.headerTaken (s : State) : State :=
  s.setLdr { s.ldr with
    buf := s.ldr.buf.drop 64
    crc := BitVec.ofNat 32 (crcUpdate crc32Poly s.ldr.crc.toNat (s.ldr.buf.take 64)) }

theorem State.takeHeader_refused {code info : Nat} (h : s.headerCheck (s.ldr.buf.take 64) = some (code, info)) :
    s.takeHeader = s.headerTaken.ldrReject code (ldInfo info) := by
  have same : s.headerTaken.headerCheck (s.ldr.buf.take 64) = some (code, info) := h
  show (match s.headerTaken.headerCheck (s.ldr.buf.take 64) with
    | some (code, info) => s.headerTaken.ldrReject code (ldInfo info)
    | none => _) = _
  rw [same]

theorem State.takeHeader_passed (h : s.headerCheck (s.ldr.buf.take 64) = none) :
    s.takeHeader = if (readHeader (s.ldr.buf.take 64)).partialImg then
        (((s.headerTaken.acqStop true).wakeMapped).latch (readHeader (s.ldr.buf.take 64))).ldrTo .stage
      else s.headerTaken.acceptFull (readHeader (s.ldr.buf.take 64)) := by
  have same : s.headerTaken.headerCheck (s.ldr.buf.take 64) = none := h
  show (match s.headerTaken.headerCheck (s.ldr.buf.take 64) with
    | some (code, info) => s.headerTaken.ldrReject code (ldInfo info)
    | none => if (readHeader (s.ldr.buf.take 64)).partialImg then
        (((s.headerTaken.acqStop true).wakeMapped).latch (readHeader (s.ldr.buf.take 64))).ldrTo .stage
      else s.headerTaken.acceptFull (readHeader (s.ldr.buf.take 64))) = _
  rw [same]

/-- A full image accepted (R191, R195). -/
structure FullAccepted (h : Header) (l : Loader) (r : State) : Prop where
  state : r.ldr.state = .write
  hdr : r.ldr.hdr = some h
  buf : r.ldr.buf = l.buf
  frames : r.ldr.frames = 0
  inService : r.ldr.inService = false
  setReset : r.ldr.setReset = true
  run : r.run.state = .idle
  drive : r.pins.dioDrive = 0
  cur : r.prf.cur = none
  loc : r.net.loc = []

theorem LoadStep.wrRoute (s : State) (d : Nat) : LoadStep s ((s.wr .nocRtLo 0 d).wr .nocRtHi 0 d) :=
  (LoadStep.setReg s _ _).trans (LoadStep.setReg _ _ _)

theorem LoadStep.modTile (s : State) (t : Nat) (f : Tile → Tile) : LoadStep s (s.modTile t f) :=
  LoadStep.tiles (s.setTile_only t _)

theorem State.acceptFull_spec (s : State) (h : Header) : FullAccepted h s.ldr (s.acceptFull h) := by
  have stopped : (s.acqStop true).ldr = s.ldr := (s.acqStop_only true).2 .ldr (by simp [streamParts])
  unfold State.acceptFull
  extract_lets latched _ reset quiet _ _ gone items blank _ emptied taken mapped routed shadowed
  have hReset : reset.ldr.hdr = some h ∧ reset.ldr.buf = s.ldr.buf ∧ reset.ldr.frames = 0 ∧
      reset.ldr.inService = false ∧ reset.ldr.setReset = true :=
    ⟨rfl, (congrArg Loader.buf stopped :), rfl, rfl, rfl⟩
  have hQuiet : Only [.regs] reset.driversOff quiet :=
    (State.alert_only _ 0 false).trans (State.vdioAlert_only _)
  have hItems : Only [.svc, .tiles, .regs] gone blank :=
    (((gone.dropTileItems_only.mono (by simp)).trans ((State.unmap_only _).mono (by simp))).trans
      ((State.clearSinceLoad_only _).mono (by simp))).trans ((items.mapTiles_only _).mono (by simp))
  have hTaken : LoadStep emptied taken := LoadStep.foldl
    (fun s v => (LoadStep.takePantry s (s.latched v)).trans (LoadStep.modTile _ _ _)) _ emptied
  have hMapped : LoadStep taken mapped := LoadStep.foldl (fun s v => LoadStep.modTile s _ _) _ taken
  have hRouted : LoadStep mapped routed := LoadStep.foldl LoadStep.wrRoute _ mapped
  have hShadowed : LoadStep routed shadowed := by
    unfold shadowed
    split
    · exact LoadStep.foldl LoadStep.zeroShadow _ routed
    · exact LoadStep.refl routed
  have steps : LoadStep emptied shadowed := ((hTaken.trans hMapped).trans hRouted).trans hShadowed
  have ldr : blank.ldr = reset.ldr :=
    (hItems.2 .ldr (by simp) : _ = gone.ldr).trans (hQuiet.2 .ldr (by simp))
  have pins : blank.pins = reset.driversOff.pins :=
    (hItems.2 .pins (by simp) : _ = gone.pins).trans (hQuiet.2 .pins (by simp))
  have prf : blank.prf = gone.prf := hItems.2 .prf (by simp)
  have idle := shadowed.setRun_only .idle
  have write := State.ldrTo_quiet (s := shadowed.setRun .idle) (n := .write) (by simp) (by simp)
  have final : ((shadowed.setRun .idle).ldrTo .write).ldr = { shadowed.ldr with state := .write } := by
    rw [State.ldrTo_ldr, (idle.2 .ldr (by simp) : (shadowed.setRun .idle).ldr = shadowed.ldr)]
  obtain ⟨hdr, buf, frames, service, held⟩ := hReset
  have kept : shadowed.ldr = { reset.ldr with shadowOk := shadowed.ldr.shadowOk } := by
    rw [← ldr]
    exact steps.ldr
  refine ⟨by rw [final], by rw [final, kept]; exact hdr, by rw [final, kept]; exact buf,
    by rw [final, kept]; exact frames,
    by rw [final, kept]; exact service, by rw [final, kept]; exact held, ?_, ?_, ?_, ?_⟩
  · rw [write.2 .run (by simp), State.setRun_run]
  · rw [write.2 .pins (by simp), idle.2 .pins (by simp), steps.pins]
    exact congrArg Pins.dioDrive pins
  · rw [write.2 .prf (by simp), idle.2 .prf (by simp), steps.cur]
    exact congrArg Proofs.cur prf
  · rw [write.2 .net (by simp), idle.2 .net (by simp), steps.net]

/-- A partial image accepted (R191). -/
theorem State.acceptPartial_ldr (s : State) (h : Header) :
    let r := (((s.acqStop true).wakeMapped).latch h).ldrTo .stage
    r.ldr.state = .stage ∧ r.ldr.hdr = some h ∧ r.ldr.buf = s.ldr.buf ∧ r.ldr.frames = 0 ∧
      r.ldr.inService = s.ldr.inService := by
  intro r
  have stopped : (s.acqStop true).ldr = s.ldr := (s.acqStop_only true).2 .ldr (by simp [streamParts])
  have woken := (LoadStep.wakeMapped (s.acqStop true)).ldr
  rw [stopped] at woken
  have ldr : r.ldr = { ((s.acqStop true).wakeMapped.latch h).ldr with state := .stage } := State.ldrTo_ldr _ _
  rw [ldr]
  exact ⟨rfl, rfl, (congrArg Loader.buf woken :), rfl, (congrArg Loader.inService woken :)⟩

theorem execLdrHeader_tested (tested : s.tileTested = true) : exec .ldrHeader s = .next s :=
  whenDue_not (by rw [tested, Bool.not_true, Bool.and_false]) s _

/-- A header at its 64th byte, by the checks of R190. -/
theorem ldrHeader_does (w : Table.wf regInit s.regs = true) (load : s.ldr.state = .header)
    (whole : 64 ≤ s.ldr.buf.length) (free : s.tileTested = false) :
    (∀ code info : Nat, s.headerCheck (s.ldr.buf.take 64) = some (code, info) →
      Does .ldrHeader s (fun r => r.ldr.state = .failed ∧ r.ldr.cfgerr = true ∧ r.ldr.buf = [] ∧
        r.ldr.inService = s.ldr.inService ∧ r.ldr.kept = s.ldr.inService ∧
        0 < bits (r.reg (ldrPage + 0x18)) 31 16 ∧ TilesSame s r ∧ r.mem = s.mem ∧ r.run = s.run)) ∧
    (s.headerCheck (s.ldr.buf.take 64) = none → field s.ldr.buf 0x0B 1 = 0 →
      Does .ldrHeader s (fun r => r.ldr.state = .write ∧ r.ldr.hdr = some (readHeader (s.ldr.buf.take 64)) ∧
        r.ldr.buf = s.ldr.buf.drop 64 ∧ r.ldr.frames = 0 ∧ r.ldr.inService = false ∧ r.ldr.setReset = true ∧
        r.run.state = .idle ∧ r.pins.dioDrive = 0 ∧ r.prf.cur = none ∧ r.net.loc = [])) ∧
    (s.headerCheck (s.ldr.buf.take 64) = none → field s.ldr.buf 0x0B 1 = 1 →
      Does .ldrHeader s (fun r => r.ldr.state = .stage ∧ r.ldr.hdr = some (readHeader (s.ldr.buf.take 64)) ∧
        r.ldr.buf = s.ldr.buf.drop 64 ∧ r.ldr.frames = 0 ∧ r.ldr.inService = s.ldr.inService)) := by
  have due : exec .ldrHeader s = .next s.takeHeader := whenDue_of (by simp [load, whole, free]) s _
  have type (k : Nat) (h : field s.ldr.buf 0x0B 1 = k) :
      (readHeader (s.ldr.buf.take 64)).partialImg = decide (k = 1) := by
    show decide (field (s.ldr.buf.take 64) 0x0B 1 = 1) = _
    rw [field_take _ (by decide), h]
  refine ⟨fun code info bad => ⟨_, due, ?_⟩, fun good full => ⟨_, due, ?_⟩, fun good part => ⟨_, due, ?_⟩⟩
  · have keeps : s.headerTaken.ldr.keepsImage = true := by
      show (match s.ldr.state with | .header => _ | .stage => _ | .check => _ | _ => _) = true
      rw [load]
    have shown := State.ldrReject_shown (s := s.headerTaken) w (by show s.ldr.state ≠ _; rw [load]; decide)
      (s.headerCheck_code _ _ bad) (ldInfo info)
    have only := State.ldrReject_keeps keeps code (ldInfo info)
    rw [State.takeHeader_refused bad]
    beta_reduce
    rw [State.ldrReject_ldr, Loader.afterFail, if_pos keeps]
    exact ⟨rfl, rfl, rfl, rfl, rfl, shown.count, State.tile_congr (only.2 .tiles (by simp)), only.2 .mem (by simp),
      only.2 .run (by simp)⟩
  · rw [State.takeHeader_passed good, type 0 full, decide_eq_false (by decide), if_neg Bool.false_ne_true]
    obtain ⟨state, hdr, buf, frames, service, held, run, drive, cur, loc⟩ := s.headerTaken.acceptFull_spec
      (readHeader (s.ldr.buf.take 64))
    exact ⟨state, hdr, buf, frames, service, held, run, drive, cur, loc⟩
  · rw [State.takeHeader_passed good, type 1 part, decide_eq_true rfl, if_pos rfl]
    exact s.headerTaken.acceptPartial_ldr _

end

end Sys2Proof.Machine
end

section
/-! ## Words of a payload in a table (R167, R168) -/

namespace Sys2Proof.Machine

/-- Words stored from a key on, one after the other. -/
theorem Table.get_foldl_words {w : Nat} (base k : Nat) : ∀ (vs : List Nat) (i : Nat) {m : Table (BitVec w)},
    Table.wf (fun _ => 0) m = true →
      Table.get (fun _ => 0) (((vs.zipIdx i).map fun p => (p.2, p.1)).foldl
        (fun m p => Table.set (fun _ => 0) m (base + p.1) (BitVec.ofNat w p.2)) m) k =
        if base + i ≤ k ∧ k < base + i + vs.length then BitVec.ofNat w (vs.getD (k - (base + i)) 0)
        else Table.get (fun _ => 0) m k
  | [], i, m, _ => by rw [if_neg (by simp only [List.length_nil]; omega)]; rfl
  | v :: vs, i, m, wf => by
    rw [List.zipIdx_cons, List.map_cons, List.foldl_cons,
      Table.get_foldl_words base k vs (i + 1) (Table.wf_set wf), Table.get_set wf, List.length_cons]
    by_cases later : base + (i + 1) ≤ k ∧ k < base + (i + 1) + vs.length
    · have next : k - (base + i) = k - (base + (i + 1)) + 1 := by omega
      rw [if_pos later, if_pos (by omega), next, List.getD_cons_succ]
    · rw [if_neg later]
      by_cases here : k = base + i
      · rw [if_pos here, if_pos (by omega), here, Nat.sub_self, List.getD_cons_zero]
      · rw [if_neg here, if_neg (by omega)]

/-- Piece j of bytes that are cut. -/
theorem cut_getElem? {n : Nat} (pos : 0 < n) : ∀ {fuel j : Nat} {l : List Byte}, j < fuel → n * j < l.length →
    (cut n fuel l)[j]? = some ((l.drop (n * j)).take n)
  | fuel + 1, j, l, hj, hl => by
    have full : l.isEmpty = false := by
      rw [List.isEmpty_eq_false_iff, Ne, ← List.length_eq_zero_iff]
      omega
    rw [cut, full, if_neg Bool.false_ne_true]
    cases j with
    | zero => rfl
    | succ j =>
      have shift : n * (j + 1) = n + n * j := by rw [Nat.mul_add, Nat.mul_one, Nat.add_comm]
      rw [List.getElem?_cons_succ, cut_getElem? pos (by omega) (by rw [List.length_drop]; omega), List.drop_drop, shift]

/-- A word of a payload stands at its place in a table. -/
theorem get_putTable {w : Nat} {m : Table (BitVec w)} (wf : Table.wf (fun _ => 0) m = true) (base : Nat) {n i : Nat}
    {l : List Byte} (pos : 0 < n) (inside : n * i < l.length) :
    Table.get (fun _ => 0) (putTable m base n l) (base + i) = BitVec.ofNat w (field l (n * i) n) := by
  have fuel : i < l.length := (Nat.le_mul_of_pos_left i pos).trans_lt inside
  have piece : ((cut n l.length l).map leNat)[i]? = some (field l (n * i) n) := by
    rw [List.getElem?_map, cut_getElem? pos fuel inside]
    rfl
  have place := (List.getElem?_eq_some_iff.mp piece).1
  rw [putTable, numbers, Table.get_foldl_words base (base + i) _ 0 wf, if_pos (by omega), Nat.add_zero,
    Nat.add_sub_cancel_left, List.getD_eq_getElem?_getD, piece]
  rfl

end Sys2Proof.Machine
end

section
/-! ## A frame checked, patched and placed (R193, R200) -/

namespace Sys2Proof.Machine

section
variable {s : State} {f : RawFrame} {p : List Byte}

/-- The codes that a frame header can fail with. -/
theorem State.frameHead_code (s : State) (f : RawFrame) : CodeFits (s.frameHead f) :=
  .ite (.some (by decide) _) (.ite (.some (by decide) _) (.ite (.some (by decide) _) .none))

/-- The payload of a whole frame. -/
theorem readFrame_payload (b : List Byte) : (readFrame (b.take 4112)).payload = (b.drop 16).take 4096 := by
  show ((b.take 4112).drop 16).take 4096 = _
  rw [List.drop_take, List.take_take, Nat.min_self]

theorem readFrame_payload_length {b : List Byte} (whole : 4112 ≤ b.length) :
    (readFrame (b.take 4112)).payload.length = 4096 := by
  rw [readFrame_payload, List.length_take, List.length_drop]
  omega

/-- Binding the devices of a payload's destinations keeps its length. -/
theorem State.bindDest_length (s : State) (p : List Byte) (whole : p.length = 4096) :
    (s.bindDest p).length = 4096 := by
  rw [State.bindDest, List.length_append, List.length_flatMap, List.length_drop, whole,
    List.map_congr_left (g := fun _ => 8) fun e _ => by
      simp only [List.length_append, leBytes_length, List.length_singleton],
    List.map_const', List.sum_replicate, List.length_range]
  rfl

/-- Without a record for its stream a payload is patched by the device numbers of destinations alone (R176). -/
theorem State.patchFrame_unpatched (none : ∀ q ∈ s.ldr.relocs, q.vtile = f.vtile → q.stream ≠ f.stream) :
    s.patchFrame f = .ok (if f.stream = strDest then s.bindDest f.payload else f.payload) := by
  have skip : (s.ldr.relocs.filter fun r => r.vtile = f.vtile && r.stream = f.stream) = [] :=
    List.filter_eq_nil_iff.mpr fun q hq => by
      simp only [Bool.and_eq_true, decide_eq_true_eq, not_and]
      exact none q hq
  rw [State.patchFrame, skip, List.foldl_nil]

/-- The count of frames and what stands of the load once a frame is placed. -/
def State.frameDone (s : State) (f : RawFrame) : State :=
  (s.setLdr { s.ldr with
    frames := s.ldr.frames + 1
    perTileSeen := s.ldr.perTileSeen || !f.wide
    seen := s.ldr.seen ++ [(f.vtile, f.stream, f.offset)] }).wr .ldrFrames (BitVec.ofNat 32 (s.ldr.frames + 1))

theorem State.frameDone_only (s : State) (f : RawFrame) : Only [.ldr, .regs] s (s.frameDone f) :=
  ((Only.ldr s _).mono (by simp)).trans ((State.setReg_only _ _ _).mono (by simp))

/-- A per-tile frame that passes its checks is placed and counted. -/
theorem State.takePayload_placed (content : contentBad s.hdr.reqTiles s.hdr.models f = none)
    (fresh : (f.vtile, f.stream, f.offset) ∉ s.ldr.seen) (room : s.stageRefused = false) (tile : f.wide = false)
    (patched : s.patchFrame f = .ok p) : s.takePayload f = (s.placeFrame f p).frameDone f := by
  simp only [State.takePayload, content, fresh, room, tile, patched, if_false, Bool.false_eq_true, State.frameDone]

theorem State.takeFrame_refused {code info : Nat}
    (bad : s.frameHead (readFrame (s.ldr.buf.take 4112)) = some (code, info)) :
    s.takeFrame = (s.takeBytes 16).ldrReject code info := by
  simp only [State.takeFrame, bad]

theorem State.takeFrame_whole (good : s.frameHead (readFrame (s.ldr.buf.take 4112)) = none)
    (whole : 4112 ≤ s.ldr.buf.length) :
    s.takeFrame = (s.takeBytes 4112).takePayload (readFrame (s.ldr.buf.take 4112)) := by
  simp only [State.takeFrame, good, whole, if_true]

/-- The place of the next staged frame in the larder (R200). -/
def State.stageAddr (s : State) : Nat :=
  s.ldr.stageBanks.getD (s.ldr.staged.length / 128) 0 * 2 ^ 19 + s.ldr.staged.length % 128 * 4096

/-- A payload staged: the frame is listed, and the larder holds it at its place. -/
theorem State.stage_spec (s : State) (f : RawFrame) (p : List Byte) :
    let r := s.stage f p
    Only [.ldr, .regs, .mem] s r ∧
      r.ldr = { s.ldr with
        staged := s.ldr.staged ++ [⟨f.vtile, f.stream, f.offset, s.stageAddr⟩]
        stagedCount := s.ldr.staged.length + 1 } ∧
      r.mem.larder = s.mem.larder.writeBytes s.stageAddr p ∧ r.mem.ddr = s.mem.ddr := by
  intro r
  obtain ⟨only, larder, ddr⟩ := s.touchLarder_spec (s.ldr.stageBanks.getD (s.ldr.staged.length / 128) 0)
  refine ⟨((only.mono (by simp)).trans ((Only.ldr _ _).mono (by simp))).trans ((Only.mem _ _).mono (by simp)), rfl, ?_,
    ddr⟩
  exact congrArg (Memory.writeBytes · s.stageAddr p) larder

/-- A frame of the load placed: the loader's state, the count of frames and the bytes that wait stay. -/
structure Placed (s r : State) : Prop where
  state : r.ldr.state = s.ldr.state
  frames : r.ldr.frames = s.ldr.frames
  buf : r.ldr.buf = s.ldr.buf

/-- The destination entries kept are no other part of the load. -/
theorem State.keepRaw_eq (s : State) (f : RawFrame) :
    ∃ raw, s.keepRaw f = s.setLdr { s.ldr with rawDest := raw } := by
  unfold State.keepRaw
  split
  · exact ⟨_, rfl⟩
  · exact ⟨s.ldr.rawDest, rfl⟩

theorem Placed.of_loadStep {t r : State} (placed : Placed s t) (step : LoadStep t r) : Placed s r := by
  obtain ⟨state, frames, buf⟩ := placed
  exact ⟨by rw [step.ldr]; exact state, by rw [step.ldr]; exact frames, by rw [step.ldr]; exact buf⟩

theorem State.placeFrame_placed (s : State) (f : RawFrame) (p : List Byte) : Placed s (s.placeFrame f p) := by
  have raw : Placed s (s.keepRaw f) := by
    obtain ⟨raw, kept⟩ := s.keepRaw_eq f
    rw [kept]
    exact ⟨rfl, rfl, rfl⟩
  unfold State.placeFrame
  extract_lets kept written
  have wrote : Placed s written := raw.of_loadStep (LoadStep.modTile kept _ _)
  split
  · obtain ⟨-, ldr, -, -⟩ := kept.stage_spec f p
    exact ⟨by rw [ldr]; exact raw.state, by rw [ldr]; exact raw.frames, by rw [ldr]; exact raw.buf⟩
  · split
    · exact wrote.of_loadStep (LoadStep.putShadow written _ _)
    · exact wrote

/-- LDR_FRAME comes about in WRITE and STAGE while frames are due and no tile of the frame is under test. -/
theorem execLdrFrame_due (load : s.ldr.state = .write ∨ s.ldr.state = .stage) (due : s.ldr.frames < s.hdr.frameCount)
    (head : 16 ≤ s.ldr.buf.length) (free : s.frameTested = false) : exec .ldrFrame s = .next s.takeFrame :=
  whenDue_of (by rcases load with h | h <;> simp [h, due, head, free]) s _

theorem execLdrFrame_tested (tested : s.frameTested = true) : exec .ldrFrame s = .next s :=
  whenDue_not (by rw [tested, Bool.not_true, Bool.and_false]) s _

/-- A frame as the checks of R193 pass it: whole, of a tile, without a record of patches, with room and new. -/
structure FramePasses (s : State) (f : RawFrame) : Prop where
  whole : 4112 ≤ s.ldr.buf.length
  head : s.frameHead f = none
  content : contentBad s.hdr.reqTiles s.hdr.models f = none
  fresh : (f.vtile, f.stream, f.offset) ∉ s.ldr.seen
  room : s.stageRefused = false
  tile : f.wide = false
  unpatched : ∀ q ∈ s.ldr.relocs, q.vtile = f.vtile → q.stream ≠ f.stream

/-- The payload of a frame as it is placed where no record patches it. -/
def State.placedBytes (s : State) (f : RawFrame) : List Byte :=
  if f.stream = strDest then s.bindDest f.payload else f.payload

theorem State.takeFrame_placed (h : FramePasses s (readFrame (s.ldr.buf.take 4112))) :
    s.takeFrame = ((s.takeBytes 4112).placeFrame (readFrame (s.ldr.buf.take 4112))
      (s.placedBytes (readFrame (s.ldr.buf.take 4112)))).frameDone (readFrame (s.ldr.buf.take 4112)) := by
  rw [State.takeFrame_whole h.head h.whole]
  exact State.takePayload_placed (s := s.takeBytes 4112) h.content h.fresh h.room h.tile
    (State.patchFrame_unpatched (s := s.takeBytes 4112) h.unpatched)

/-- A frame that passes goes on with the load (R193). -/
theorem ldrFrame_goesOn (run : exec .ldrFrame s = .next s.takeFrame)
    (h : FramePasses s (readFrame (s.ldr.buf.take 4112))) :
    Does .ldrFrame s (fun r => r.ldr.state = s.ldr.state ∧ r.ldr.frames = s.ldr.frames + 1 ∧
      r.ldr.buf = s.ldr.buf.drop 4112) := by
  refine ⟨_, run, ?_⟩
  rw [State.takeFrame_placed h]
  obtain ⟨state, frames, buf⟩ := (s.takeBytes 4112).placeFrame_placed (readFrame (s.ldr.buf.take 4112))
    (s.placedBytes (readFrame (s.ldr.buf.take 4112)))
  exact ⟨state, congrArg (· + 1) frames, buf⟩

/-- A tile with the words of a payload for its control words. -/
def Tile.withCtrl (x : Tile) (p : List Byte) : Tile := { x with ctrl := putTable x.ctrl 0 4 p }

theorem Tile.withCtrl_ctrlWord {x : Tile} (w : zeroed x.ctrl) {p : List Byte} {n : Nat} (inside : 4 * n < p.length) :
    (x.withCtrl p).ctrlWord n = BitVec.ofNat 32 (field p (4 * n) 4) := by
  have word := get_putTable w 0 (by decide) inside
  rwa [Nat.zero_add] at word

/-- A control stream frame of a full image goes to the control words of its tile (R167). -/
theorem State.placeFrame_control (ctrl : f.stream = strCtrl) (full : s.hdr.partialImg = false) (p : List Byte) :
    s.placeFrame f p = s.setTile (s.latched f.vtile) ((s.tile (s.latched f.vtile)).withCtrl p) := by
  have raw : s.keepRaw f = s := by
    rw [State.keepRaw, ctrl, if_neg (by decide)]
  rw [State.placeFrame, raw, full, if_neg Bool.false_ne_true, ctrl, if_neg (by decide)]
  rfl

theorem State.takeFrame_control (h : FramePasses s (readFrame (s.ldr.buf.take 4112)))
    (ctrl : (readFrame (s.ldr.buf.take 4112)).stream = strCtrl) (full : s.hdr.partialImg = false) :
    let t := s.latched (readFrame (s.ldr.buf.take 4112)).vtile
    s.takeFrame = ((s.takeBytes 4112).setTile t ((s.tile t).withCtrl ((s.ldr.buf.drop 16).take 4096))).frameDone
      (readFrame (s.ldr.buf.take 4112)) := by
  have payload : s.placedBytes (readFrame (s.ldr.buf.take 4112)) = (s.ldr.buf.drop 16).take 4096 := by
    rw [State.placedBytes, ctrl, if_neg (by decide), readFrame_payload]
  rw [State.takeFrame_placed h, payload, State.placeFrame_control (s := s.takeBytes 4112) ctrl full]
  rfl

/-- A control stream frame of a full image stands in its tile as it came (R167, R193). -/
theorem ldrFrame_control (canon : s.Canonical) (run : exec .ldrFrame s = .next s.takeFrame)
    (h : FramePasses s (readFrame (s.ldr.buf.take 4112))) (ctrl : (readFrame (s.ldr.buf.take 4112)).stream = strCtrl)
    (full : s.hdr.partialImg = false) :
    let t := s.latched (readFrame (s.ldr.buf.take 4112)).vtile
    Does .ldrFrame s (fun r => r.ldr.state = s.ldr.state ∧ r.ldr.frames = s.ldr.frames + 1 ∧
      r.rd .ldrFrames = BitVec.ofNat 32 (s.ldr.frames + 1) ∧ r.ldr.buf = s.ldr.buf.drop 4112 ∧
      (∀ n < 1024, (r.tile t).ctrlWord n = BitVec.ofNat 32 (field s.ldr.buf (16 + 4 * n) 4)) ∧
      r.tile t = { s.tile t with ctrl := (r.tile t).ctrl } ∧ TilesBut t s r ∧ Only [.ldr, .tiles, .regs] s r ∧
      RegsBut [Reg.addr .ldrFrames] s r) := by
  intro t
  obtain ⟨wr, wt, tiles, -⟩ := canon
  obtain ⟨-, -, -, -, -, -, -, -, -, -, -, -, -, -, wc, -⟩ := tiles t
  have whole := h.whole
  refine ⟨_, run, ?_⟩
  rw [State.takeFrame_control h ctrl full]
  generalize placed : (s.takeBytes 4112).setTile t ((s.tile t).withCtrl ((s.ldr.buf.drop 16).take 4096)) = u
  have tile (k : Nat) : u.tile k = if k = t then (s.tile t).withCtrl ((s.ldr.buf.drop 16).take 4096) else s.tile k :=
    placed ▸ State.tile_setTile (s := s.takeBytes 4112) wt
  have here := (tile t).trans (if_pos rfl)
  have only : Only [.ldr, .tiles] s u :=
    placed ▸ ((Only.ldr s _).mono (by simp)).trans ((State.setTile_only (s.takeBytes 4112) _ _).mono (by simp))
  have ldr : u.ldr = (s.takeBytes 4112).ldr := placed ▸ rfl
  have regs : u.regs = s.regs := only.2 .regs (by simp)
  have wu : Table.wf regInit u.regs = true := by rw [regs]; exact wr
  have done := u.frameDone_only (readFrame (s.ldr.buf.take 4112))
  have same (k : Nat) : (u.frameDone (readFrame (s.ldr.buf.take 4112))).tile k = u.tile k :=
    State.tile_congr (done.2 .tiles (by simp)) k
  refine ⟨(congrArg Loader.state ldr :), (congrArg (·.frames + 1) ldr :), (State.rd_wr wu).trans ?_,
    (congrArg Loader.buf ldr :),
    fun n hn => ?_, ?_, fun k other => (same k).trans ((tile k).trans (if_neg other)),
    (only.mono (by simp)).trans (done.mono (by simp)),
    (RegsBut.of_eq regs).trans (State.setReg_regsBut wu _ _)⟩
  · rw [ldr]
    rfl
  · rw [same, here, Tile.withCtrl_ctrlWord wc (by rw [List.length_take, List.length_drop]; omega),
      field_take _ (by omega),
      field, List.drop_drop, Nat.add_comm]
    rfl
  · rw [same, here]
    rfl

/-- A frame header that fails its check ends the load in FAILED; in WRITE the image is lost (R193, R203). -/
theorem ldrFrame_refused_write (w : Table.wf regInit s.regs = true) (run : exec .ldrFrame s = .next s.takeFrame)
    (load : s.ldr.state = .write) {code info : Nat}
    (bad : s.frameHead (readFrame (s.ldr.buf.take 4112)) = some (code, info)) :
    Does .ldrFrame s (fun r => r.ldr.state = .failed ∧ r.ldr.cfgerr = true ∧ r.ldr.inService = false ∧
      0 < bits (r.reg (ldrPage + 0x18)) 31 16 ∧ r.mem = s.mem) := by
  have state : (s.takeBytes 16).ldr.state = .write := load
  have lost : (s.takeBytes 16).ldr.keepsImage = false := by rw [Loader.keepsImage, state]
  have shown := State.ldrReject_shown (s := s.takeBytes 16) w (by rw [state]; decide) (s.frameHead_code _ _ bad) info
  refine ⟨_, run, ?_⟩
  rw [State.takeFrame_refused bad]
  beta_reduce
  rw [State.ldrReject_ldr, Loader.afterFail, if_neg (by rw [lost]; decide)]
  exact ⟨rfl, rfl, rfl, shown.count, State.ldrReject_mem _ _ _⟩

/-- In STAGE a failed frame header leaves the image in service and every tile alone (R203). -/
theorem ldrFrame_refused_stage (w : Table.wf regInit s.regs = true) (run : exec .ldrFrame s = .next s.takeFrame)
    (load : s.ldr.state = .stage) {code info : Nat}
    (bad : s.frameHead (readFrame (s.ldr.buf.take 4112)) = some (code, info)) :
    Does .ldrFrame s (fun r => r.ldr.state = .failed ∧ r.ldr.cfgerr = true ∧ r.ldr.inService = s.ldr.inService ∧
      0 < bits (r.reg (ldrPage + 0x18)) 31 16 ∧ TilesSame s r ∧ r.mem = s.mem ∧ r.run = s.run) := by
  have state : (s.takeBytes 16).ldr.state = .stage := load
  have keeps : (s.takeBytes 16).ldr.keepsImage = true := by rw [Loader.keepsImage, state]
  have shown := State.ldrReject_shown (s := s.takeBytes 16) w (by rw [state]; decide) (s.frameHead_code _ _ bad) info
  have only := State.ldrReject_keeps keeps code info
  refine ⟨_, run, ?_⟩
  rw [State.takeFrame_refused bad]
  beta_reduce
  rw [State.ldrReject_ldr, Loader.afterFail, if_pos keeps]
  exact ⟨rfl, rfl, rfl, shown.count, State.tile_congr (only.2 .tiles (by simp)), only.2 .mem (by simp),
    only.2 .run (by simp)⟩

theorem State.placedBytes_length (h : FramePasses s (readFrame (s.ldr.buf.take 4112))) :
    (s.placedBytes (readFrame (s.ldr.buf.take 4112))).length = 4096 := by
  have length := readFrame_payload_length h.whole
  unfold State.placedBytes
  split
  · exact s.bindDest_length _ length
  · exact length

/-- A frame of a partial image is staged in the larder; the tiles and the image in service stay (R200). -/
theorem ldrFrame_staged (canon : s.Canonical) (run : exec .ldrFrame s = .next s.takeFrame)
    (h : FramePasses s (readFrame (s.ldr.buf.take 4112))) (part : s.hdr.partialImg = true) :
    let f := readFrame (s.ldr.buf.take 4112)
    Does .ldrFrame s (fun r => r.ldr.state = s.ldr.state ∧ r.ldr.frames = s.ldr.frames + 1 ∧
      r.ldr.buf = s.ldr.buf.drop 4112 ∧ r.ldr.inService = s.ldr.inService ∧
      r.ldr.staged = s.ldr.staged ++ [⟨f.vtile, f.stream, f.offset, s.stageAddr⟩] ∧
      (f.stream ≠ strDest → r.mem.larder.readBytes s.stageAddr 4096 = (s.ldr.buf.drop 16).take 4096) ∧
      (∀ a : Nat, a < s.stageAddr ∨ s.stageAddr + 4096 ≤ a → r.mem.larder.read a = s.mem.larder.read a) ∧
      r.mem.ddr = s.mem.ddr ∧ TilesSame s r ∧ r.run = s.run) := by
  intro f
  obtain ⟨-, -, -, wl, -⟩ := canon
  have length := State.placedBytes_length h
  have payload : f.stream ≠ strDest → s.placedBytes f = (s.ldr.buf.drop 16).take 4096 := fun other => by
    rw [State.placedBytes, if_neg other, readFrame_payload]
  have placed := State.takeFrame_placed h
  obtain ⟨raw, kept⟩ := (s.takeBytes 4112).keepRaw_eq f
  have full : (s.takeBytes 4112).placeFrame f (s.placedBytes f) =
      ((s.takeBytes 4112).setLdr { (s.takeBytes 4112).ldr with rawDest := raw }).stage f (s.placedBytes f) := by
    rw [State.placeFrame, kept]
    exact if_pos part
  rw [full] at placed
  obtain ⟨only, ldr, larder, ddr⟩ := State.stage_spec ((s.takeBytes 4112).setLdr { (s.takeBytes 4112).ldr with
    rawDest := raw }) f (s.placedBytes f)
  have begun : Only [.ldr] s ((s.takeBytes 4112).setLdr { (s.takeBytes 4112).ldr with rawDest := raw }) :=
    (Only.ldr s _).trans (Only.ldr _ _)
  have done := State.frameDone_only (((s.takeBytes 4112).setLdr { (s.takeBytes 4112).ldr with rawDest := raw }).stage f
    (s.placedBytes f)) f
  have all := ((begun.mono (by simp)).trans (only.mono (show ∀ p ∈ _, p ∈ [Part.ldr, .regs, .mem] by simp))).trans
    (done.mono (by simp))
  refine ⟨_, run, ?_⟩
  rw [placed]
  generalize ((s.takeBytes 4112).setLdr { (s.takeBytes 4112).ldr with rawDest := raw }).stage f (s.placedBytes f) = u
    at ldr larder ddr done all
  have stored : (u.frameDone f).mem.larder = s.mem.larder.writeBytes s.stageAddr (s.placedBytes f) := larder
  refine ⟨(congrArg Loader.state ldr :), (congrArg (·.frames + 1) ldr :), (congrArg Loader.buf ldr :),
    (congrArg Loader.inService ldr :), (congrArg Loader.staged ldr :), fun other => ?_, fun a outside => ?_, ddr,
    State.tile_congr (all.2 .tiles (by simp)), all.2 .run (by simp)⟩
  · rw [stored, ← length, Memory.readBytes_writeBytes wl, length, payload other]
  · rw [stored, Memory.read_writeBytes wl, length, if_neg (by omega)]

/-- The 16th byte of the trailer ends the frames (R189, R193). -/
theorem ldrTrailer_does (load : s.ldr.state = .write ∨ s.ldr.state = .stage) (last : s.ldr.frames = s.hdr.frameCount)
    (whole : 16 ≤ s.ldr.buf.length) :
    Does .ldrTrailer s (fun r => r.ldr.state = .check ∧ r.ldr.trailer = s.ldr.buf.take 16 ∧ r.ldr.buf = [] ∧
      Only [.ldr, .con, .regs] s r) := by
  refine ⟨_, whenDue_of (by rcases load with h | h <;> simp [h, last, whole]) s _, ?_⟩
  beta_reduce
  rw [State.ldrTo_ldr]
  exact ⟨rfl, rfl, rfl, (((State.dropBytes_only s _).mono (by simp)).trans ((Only.ldr _ _).mono (by simp))).trans
    ((State.ldrTo_quiet (by simp) (by simp)).mono (by simp))⟩

end

end Sys2Proof.Machine
end

section
/-! ## The codes of the final checks (R181 to R183, R194, R217) -/

namespace Sys2Proof.Machine

section
variable {β γ : Type} {o q : Option (Nat × β)}

theorem CodeFits.orElse (ho : CodeFits o) (hq : CodeFits q) : CodeFits (o.orElse fun _ => q) := by
  cases o with
  | none => exact hq
  | some e => exact ho

theorem CodeFits.findSome? {l : List γ} {f : γ → Option (Nat × β)} (h : ∀ a, CodeFits (f a)) :
    CodeFits (l.findSome? f) := fun e he => by
  obtain ⟨a, -, ha⟩ := List.exists_of_findSome?_eq_some he
  exact h a e ha

theorem CodeFits.placed {f : Nat × β → γ} (h : CodeFits o) : CodeFits (o.map fun e => (e.1, f e)) := by
  cases o with
  | none => exact CodeFits.none
  | some e => exact CodeFits.some (h e rfl) _

end

theorem notReadyFrom_code : ∀ (fuel : Nat) (x : Tile) (n : Nat), CodeFits (notReadyFrom fuel x n)
  | 0, _, _ => CodeFits.none
  | fuel + 1, x, n => by
    unfold notReadyFrom
    dsimp only
    split
    · exact CodeFits.some (by decide) _
    · exact notReadyFrom_code fuel _ _

theorem checkEncoding_code (x : Tile) : CodeFits (checkEncoding x) :=
  .findSome? fun _ => .ite (.some (by decide) _) (.ite (.some (by decide) _) (.ite (.some (by decide) _) .none))

theorem checkBeyond_code (x : Tile) : CodeFits (checkBeyond x) := by
  unfold checkBeyond
  split
  · exact CodeFits.none
  · exact .findSome? fun _ => .ite .none (.ite (.some (by decide) _) (.ite (.some (by decide) _)
      (.ite (.some (by decide) _) .none)))

theorem checkDest_code (c : DestCtx) (x : Tile) : CodeFits (checkDest c x) := by
  unfold checkDest
  split
  · exact CodeFits.some (by decide) _
  · exact .findSome? fun _ => .ite .none (.some (by decide) _)

theorem badTemplate_code (x : Tile) (ok : Bool → QWord → Bool) : CodeFits (badTemplate x ok) :=
  .findSome? fun _ => .ite .none (.some (by decide) _)

theorem checkTile_code (c : DestCtx) (keys : List (Nat × Nat)) (carried : Bool) (x : Tile) :
    CodeFits (checkTile c keys carried x) := by
  have spine : CodeFits (checkSpine x) := .findSome? fun _ => .ite (.some (by decide) _) .none
  have ready : CodeFits (checkReady x) := notReadyFrom_code _ _ _
  have ends : CodeFits (checkEnd x carried) := .ite .none (.some (by decide) _)
  have signal : CodeFits (checkSignal c.req x) := .findSome? fun _ => .ite (.some (by decide) _) .none
  exact .orElse spine (.orElse ready (.orElse (checkEncoding_code x) (.orElse ends (.orElse (checkBeyond_code x)
    (.orElse (checkDest_code c x) (.orElse signal (badTemplate_code x _)))))))

/-- The codes of the checks of the recipes. -/
theorem State.recipeCheck_code (s : State) : CodeFits s.recipeCheck :=
  .orElse (.findSome? fun _ => .placed (checkTile_code _ _ _ _)) (.findSome? fun _ => .placed (badTemplate_code _ _))

/-- The codes of what only the whole image shows. -/
theorem State.restBad_code (s : State) : CodeFits s.restBad := by
  unfold State.restBad
  split
  · exact CodeFits.some (by decide) _
  · split
    · exact CodeFits.some (by decide) _
    · exact CodeFits.map (by decide) _ _

/-- The tiles of the load look at the loader, the tiles and the larder. -/
theorem State.candidate_congr {s r : State} (ldr : r.ldr = s.ldr) (tiles : r.tiles = s.tiles)
    (larder : r.mem.larder = s.mem.larder) : r.candidate = s.candidate := by
  funext v
  unfold State.candidate State.hdr State.latched State.tile
  rw [ldr, tiles, larder]

/-- The checks of the recipes look at the loader, the tiles and the larder. -/
theorem State.recipeCheck_congr {s r : State} (ldr : r.ldr = s.ldr) (tiles : r.tiles = s.tiles)
    (larder : r.mem.larder = s.mem.larder) : r.recipeCheck = s.recipeCheck := by
  unfold State.recipeCheck State.loadTiles State.outsideTiles State.destCtx State.carried State.hdr
  rw [State.candidate_congr ldr tiles larder, ldr]

end Sys2Proof.Machine
end

section
/-! ## The ends of a load (R194, R198, R201 to R203, R207, R210) -/

namespace Sys2Proof.Machine

section
variable {s t r : State}

/-- A load that has failed: recorded and told, with what the memories hold as it was (R202, R203). -/
def LoadFails (s r : State) : Prop :=
  r.ldr.state = .failed ∧ r.ldr.cfgerr = true ∧ 0 < bits (r.reg (ldrPage + 0x18)) 31 16 ∧
    bit (r.reg (ldrPage + 0xC)) 2 = true ∧ r.mem.ddr = s.mem.ddr ∧ r.mem.larder = s.mem.larder

theorem Loader.afterFail_spec (l : Loader) : l.afterFail.state = .failed ∧ l.afterFail.cfgerr = true := by
  unfold Loader.afterFail
  split <;> exact ⟨rfl, rfl⟩

theorem State.ldrFail_fails (w : Table.wf regInit s.regs = true) (other : s.ldr.state ≠ .failed) {code : Nat}
    (hc : code < 2 ^ 16) (info : Nat) : LoadFails s (s.ldrFail code info) := by
  have shown := State.ldrFail_shown w other hc info
  obtain ⟨state, cfgerr⟩ := s.ldr.afterFail_spec
  have mem := s.ldrFail_mem code info
  have ldr := s.ldrFail_ldr code info
  exact ⟨by rw [ldr]; exact state, by rw [ldr]; exact cfgerr, shown.count, shown.cause, by rw [mem], by rw [mem]⟩

/-- An image in service (R189, R198). -/
def Served (r : State) : Prop :=
  r.ldr.state = .service ∧ r.ldr.inService = true ∧ r.ldr.done = true ∧ r.ldr.setReset = true ∧ r.ldr.cfgerr = false ∧
    bit (r.reg (ldrPage + 0xC)) 1 = true

/-- The registers that tell the image in service: BUILD, CRC and IMAGE (R213). -/
def State.imageShown (s : State) (h : Header) : State :=
  (((s.wr .ldrBuildLo (lo32 h.build)).wr .ldrBuildHi (hi32 h.build)).wr .ldrCrc (wordAt s.ldr.trailer 12)).wr .ldrImage
    (BitVec.ofNat 32 (h.tgc * 2 ^ 16 + h.self * 2 ^ 8 + h.reqTiles))

theorem State.imageShown_build (w : Table.wf regInit s.regs = true) (h : Header) :
    Table.wf regInit (s.imageShown h).regs = true ∧
      (s.imageShown h).rd .ldrBuildLo = lo32 h.build ∧ (s.imageShown h).rd .ldrBuildHi = hi32 h.build := by
  have w1 : Table.wf regInit (s.wr .ldrBuildLo (lo32 h.build)).regs = true := State.wf_setReg w
  have w2 : Table.wf regInit ((s.wr .ldrBuildLo (lo32 h.build)).wr .ldrBuildHi (hi32 h.build)).regs = true :=
    State.wf_setReg w1
  have w3 := State.wf_setReg (a := Reg.addr .ldrCrc) (v := wordAt s.ldr.trailer 12) w2
  have store (t : State) (wt : Table.wf regInit t.regs = true) (q : Reg) (v : Word) (a : Nat) (apart : a ≠ q.addr) :
      (t.wr q v).reg a = t.reg a := (State.reg_wr wt).trans (if_neg apart)
  have lower : (s.imageShown h).rd .ldrBuildLo = lo32 h.build :=
    (store _ w3 .ldrImage _ _ (by decide)).trans ((store _ w2 .ldrCrc _ _ (by decide)).trans
      ((store _ w1 .ldrBuildHi _ _ (by decide)).trans (State.rd_wr w)))
  have upper : (s.imageShown h).rd .ldrBuildHi = hi32 h.build :=
    (store _ w3 .ldrImage _ _ (by decide)).trans ((store _ w2 .ldrCrc _ _ (by decide)).trans (State.rd_wr w1))
  exact ⟨State.wf_setReg w3, lower, upper⟩

/-- The loader's record of the image that comes into service. -/
def State.servedLdr (s : State) : Loader :=
  { s.ldr with
    image := if s.hdr.partialImg then s.ldr.image.map fun g => { g with build := s.hdr.build } else some s.hdr
    inService := true, done := true, setReset := true, cfgerr := false
    lastPartial := s.hdr.partialImg, imageFirst := s.ldr.first, mbase := s.ldr.baseLoad }

/-- The image in service (R189, R198, R208, R213). -/
theorem State.enterService_spec (w : Table.wf regInit s.regs = true) (other : s.ldr.state ≠ .service) :
    Served s.enterService ∧ s.enterService.ldr = { s.servedLdr with state := .service } ∧
      s.enterService.rd64 .ldrBuildLo .ldrBuildHi = s.hdr.build ∧
      Only [.ldr, .regs, .con, .host, .sup, .flash, .prf] s s.enterService := by
  let u := (s.setLdr s.servedLdr).imageShown s.hdr
  let v : State := { u with prf := { u.prf with baseDue := true, recipeDue := true } }
  have eq : s.enterService = v.vdioAlert.ldrTo .service := rfl
  obtain ⟨wu, lower, upper⟩ := State.imageShown_build (s := s.setLdr s.servedLdr) w s.hdr
  have wa : Table.wf regInit v.vdioAlert.regs = true := State.wf_setReg (s := v) wu
  have alerted := v.vdioAlert_regsBut wu
  have told := State.ldrTo_regsBut wa .service
  have ldr : s.enterService.ldr = { s.servedLdr with state := .service } := by
    rw [eq, State.ldrTo_ldr]
    rfl
  have shown (a : Nat) (ha : a ∉ ldrToRegs) (hg : a ∉ [Reg.addr .glbAlert]) : s.enterService.reg a = u.reg a := by
    rw [eq]
    exact (told a ha).trans (alerted a hg)
  have stored : Only [.regs] (s.setLdr s.servedLdr) u :=
    (((State.setReg_only _ _ _).trans (State.setReg_only _ _ _)).trans (State.setReg_only _ _ _)).trans
      (State.setReg_only _ _ _)
  have all : Only [.ldr, .regs, .prf] s v.vdioAlert :=
    ((((Only.ldr s _).mono (by simp)).trans (stored.mono (by simp))).trans ((Only.prf u _).mono (by simp))).trans
      (v.vdioAlert_only.mono (by simp))
  refine ⟨?_, ldr, ?_, ?_⟩
  · have cause := State.ldrTo_service_cause wa (show v.vdioAlert.ldr.state ≠ .service from other)
    rw [← eq] at cause
    exact ⟨by rw [ldr], by rw [ldr]; rfl, by rw [ldr]; rfl, by rw [ldr]; rfl, by rw [ldr]; rfl, cause⟩
  · have lo := shown (Reg.addr .ldrBuildLo) (by decide) (by decide)
    have hi := shown (Reg.addr .ldrBuildHi) (by decide) (by decide)
    rw [State.rd64, State.rd, State.rd, hi, lo]
    exact (congrArg₂ join32 upper lower).trans (join32_halves _)
  · rw [eq]
    exact (all.mono (by simp)).trans ((State.ldrTo_spec _ _).1.mono (by simp))

/-- The header of the load is what of it the checks and the copy leave alone. -/
theorem LoadStep.hdr (h : LoadStep s r) : r.hdr = s.hdr := by
  rw [State.hdr, h.ldr]
  rfl

theorem LoadStep.state (h : LoadStep s r) : r.ldr.state = s.ldr.state := by
  rw [h.ldr]

/-- The banks of the staged frames wake; the loader, the tiles and what the memories hold stay. -/
theorem State.touchStaged_spec (s : State) : Only [.regs, .mem] s s.touchStaged ∧
    s.touchStaged.mem.larder = s.mem.larder ∧ s.touchStaged.mem.ddr = s.mem.ddr ∧
    (Table.wf regInit s.regs = true → Table.wf regInit s.touchStaged.regs = true) := by
  have eq : s.touchStaged = (s.ldr.staged.map fun f => f.addr / 2 ^ 19).foldl State.touchLarder s := by
    rw [List.foldl_map]
    rfl
  obtain ⟨only, larder, ddr⟩ := State.touchLarder_foldl (s.ldr.staged.map fun f => f.addr / 2 ^ 19) s
  rw [← eq] at only larder ddr
  exact ⟨only, larder, ddr, fun w => ((Calm.foldl (fun f _ s => Calm.touchLarder s (f.addr / 2 ^ 19)) s).regs w).1⟩

theorem State.patchRest_none (none : s.ldr.relocs = []) : s.patchRest = s := by
  rw [State.patchRest, none, List.foldl_nil]

/-- A partial image at the start of its copy: the set-reset holds the design, the proofs are gone and the run state is
IDLE (R201). -/
structure CommitBegun (r : State) : Prop where
  state : r.ldr.state = .commit
  done : r.ldr.done = false
  setReset : r.ldr.setReset = true
  run : r.run.state = .idle
  drive : r.pins.dioDrive = 0
  cur : r.prf.cur = none

theorem State.beginCommit_begun (s : State) : CommitBegun s.beginCommit := by
  unfold State.beginCommit
  extract_lets woken _ held cleared mapped taken
  have hCleared : Only [.svc, .tiles, .regs] held.driversOff.discardProofs mapped :=
    (((State.dropTileItems_only _).mono (by simp)).trans ((State.clearSinceLoad_only _).mono (by simp))).trans
      ((cleared.mapTiles_only _).mono (by simp))
  have steps : LoadStep mapped taken := LoadStep.foldl (fun s v => LoadStep.takePantry s (s.latched v)) _ mapped
  have same : mapped.ldr = held.ldr := hCleared.2 .ldr (by simp)
  have ldr : taken.ldr = { held.ldr with shadowOk := taken.ldr.shadowOk } := by
    rw [← same]
    exact steps.ldr
  have pins : mapped.pins = held.driversOff.pins := hCleared.2 .pins (by simp)
  have prf : mapped.prf = held.discardProofs.prf := hCleared.2 .prf (by simp)
  have idle := taken.setRun_only .idle
  have commit := State.ldrTo_quiet (s := taken.setRun .idle) (n := .commit) (by simp) (by simp)
  have final : ((taken.setRun .idle).ldrTo .commit).ldr = { taken.ldr with state := .commit } := by
    rw [State.ldrTo_ldr, (idle.2 .ldr (by simp) : (taken.setRun .idle).ldr = taken.ldr)]
  refine ⟨by rw [final], by rw [final, ldr]; rfl, by rw [final, ldr]; rfl, ?_, ?_, ?_⟩
  · rw [commit.2 .run (by simp), State.setRun_run]
  · rw [commit.2 .pins (by simp), idle.2 .pins (by simp), steps.pins]
    exact congrArg Pins.dioDrive pins
  · rw [commit.2 .prf (by simp), idle.2 .prf (by simp), steps.cur]
    exact congrArg Proofs.cur prf

end

end Sys2Proof.Machine
end

section
/-! ## The final checks and COMMIT (R194, R201) -/

namespace Sys2Proof.Machine

section
variable {s t r : State}

/-- A failure after steps that leave what the memories hold. -/
theorem LoadFails.after (h : LoadFails t r) (ddr : t.mem.ddr = s.mem.ddr) (larder : t.mem.larder = s.mem.larder) :
    LoadFails s r := by
  obtain ⟨state, cfgerr, count, cause, hDdr, hLarder⟩ := h
  exact ⟨state, cfgerr, count, cause, hDdr.trans ddr, hLarder.trans larder⟩

theorem execLdrDone_tested (tested : s.loadTested = true) (ue : Option Nat) :
    exec .ldrCheckDone s = .next s ∧ exec (.ldrCommitDone ue) s = .next s := by
  have waits (b : Bool) : (b && !s.loadTested) = false := by rw [tested, Bool.not_true, Bool.and_false]
  exact ⟨whenDue_not (waits _) s _, whenDue_not (waits _) s _⟩

theorem execLdrCheckDone_due (load : s.ldr.state = .check) (free : s.loadTested = false) :
    exec .ldrCheckDone s = .next s.checkDone := whenDue_of (by simp [load, free]) s _

theorem execLdrCommitDone_due (load : s.ldr.state = .commit) (free : s.loadTested = false) (ue : Option Nat) :
    exec (.ldrCommitDone ue) s = .next (s.commitDone ue) := whenDue_of (by simp [load, free]) s _

/-- A full image stages nothing. -/
theorem State.stagedLost_full (full : s.hdr.partialImg = false) : s.stagedLost = false := by
  rw [State.stagedLost, full, Bool.false_and]

/-- A failed check fails the load (R194, R202). -/
theorem State.checkDone_fails (w : Table.wf regInit s.regs = true) (load : s.ldr.state = .check)
    (bad : s.trailerOk = false ∨ s.imageCrc ≠ wordAt s.ldr.trailer 12 ∨ s.restBad ≠ none ∨ s.stagedLost = true) :
    LoadFails s s.checkDone := by
  have fails {code : Nat} (hc : code < 2 ^ 16) (info : Nat) : LoadFails s (s.ldrFail code info) :=
    s.ldrFail_fails w (by rw [load]; decide) hc info
  unfold State.checkDone
  split
  · exact fails (by decide) _
  · next trailer =>
    split
    · exact fails (by decide) _
    · next crc =>
      split
      · next found => exact fails (s.restBad_code _ found) _
      · next whole =>
        split
        · exact fails (by decide) _
        · next staged => simp_all

/-- What is left of the checks once the trailer, the CRC and the device-wide streams pass. -/
theorem State.checkDone_passed (trailer : s.trailerOk = true) (crc : s.imageCrc = wordAt s.ldr.trailer 12)
    (whole : s.restBad = none) (here : s.stagedLost = false)
    (patched : (if s.hdr.partialImg then s.touchStaged else s.patchRest) = t) :
    (∀ code info : Nat, t.recipeCheck = some (code, info) → s.checkDone = t.ldrFail code info) ∧
      (t.recipeCheck = none → s.checkDone = if t.hdr.partialImg then t.beginCommit else t.enterService) := by
  constructor
  · intro code info bad
    simp only [State.checkDone, trailer, crc, whole, here, patched, bad, Bool.not_true, Bool.false_eq_true, ne_eq,
      not_true_eq_false, if_false]
  · intro good
    simp only [State.checkDone, trailer, crc, whole, here, patched, good, Bool.not_true, Bool.false_eq_true, ne_eq,
      not_true_eq_false, if_false]

/-- Staged frames read for the checks: what the checks look at stays. -/
theorem State.touchStaged_checks (s : State) : s.touchStaged.recipeCheck = s.recipeCheck ∧
    s.touchStaged.ldr = s.ldr ∧ s.touchStaged.hdr = s.hdr := by
  obtain ⟨only, larder, -, -⟩ := s.touchStaged_spec
  have ldr : s.touchStaged.ldr = s.ldr := only.2 .ldr (by simp)
  exact ⟨State.recipeCheck_congr ldr (only.2 .tiles (by simp)) larder, ldr, by rw [State.hdr, ldr, State.hdr]⟩

/-- A recipe that fails its check fails the load (R194). -/
theorem State.checkDone_recipe (w : Table.wf regInit s.regs = true) (load : s.ldr.state = .check)
    (trailer : s.trailerOk = true) (crc : s.imageCrc = wordAt s.ldr.trailer 12) (whole : s.restBad = none)
    (unpatched : s.ldr.relocs = []) {code info : Nat} (bad : s.recipeCheck = some (code, info)) :
    LoadFails s s.checkDone := by
  have fails {t : State} (wt : Table.wf regInit t.regs = true) (ldr : t.ldr = s.ldr)
      (same : t.recipeCheck = s.recipeCheck) : LoadFails t (t.ldrFail code info) :=
    t.ldrFail_fails wt (by rw [ldr, load]; decide) (t.recipeCheck_code _ (same.trans bad)) info
  cases lost : s.stagedLost with
  | true => exact State.checkDone_fails w load (.inr (.inr (.inr lost)))
  | false =>
    cases part : s.hdr.partialImg with
    | false =>
      have passed := State.checkDone_passed trailer crc whole lost (t := s)
        (by rw [part, if_neg Bool.false_ne_true, State.patchRest_none unpatched])
      rw [passed.1 _ _ bad]
      exact fails w rfl rfl
    | true =>
      obtain ⟨checks, ldr, -⟩ := s.touchStaged_checks
      obtain ⟨-, larder, ddr, wt⟩ := s.touchStaged_spec
      have passed := State.checkDone_passed trailer crc whole lost (t := s.touchStaged) (by rw [part, if_pos rfl])
      rw [passed.1 _ _ (checks.trans bad)]
      exact (fails (wt w) ldr checks).after ddr larder

/-- The final checks end (R189, R194, R198, R201). -/
theorem ldrCheckDone_does (w : Table.wf regInit s.regs = true) (load : s.ldr.state = .check)
    (free : s.loadTested = false) :
    (s.trailerOk = false → Does .ldrCheckDone s (LoadFails s)) ∧
    (s.trailerOk = true → s.imageCrc ≠ wordAt s.ldr.trailer 12 → Does .ldrCheckDone s (LoadFails s)) ∧
    (s.trailerOk = true → s.imageCrc = wordAt s.ldr.trailer 12 →
      ∀ code info : Nat, s.restBad = some (code, info) → Does .ldrCheckDone s (LoadFails s)) ∧
    (s.trailerOk = true → s.imageCrc = wordAt s.ldr.trailer 12 → s.restBad = none → s.ldr.relocs = [] →
      (∀ code info : Nat, s.recipeCheck = some (code, info) → Does .ldrCheckDone s (LoadFails s)) ∧
      (s.recipeCheck = none → s.hdr.partialImg = false →
        Does .ldrCheckDone s (fun r => Served r ∧ r.ldr.image = some s.hdr ∧
          r.rd64 .ldrBuildLo .ldrBuildHi = s.hdr.build ∧ TilesSame s r ∧ r.mem = s.mem ∧ r.run = s.run)) ∧
      (s.stagedLost = true → Does .ldrCheckDone s (LoadFails s)) ∧
      (s.recipeCheck = none → s.hdr.partialImg = true → s.stagedLost = false →
        Does .ldrCheckDone s (fun r => r.ldr.state = .commit ∧ r.ldr.done = false ∧ r.ldr.setReset = true ∧
          r.run.state = .idle ∧ r.pins.dioDrive = 0 ∧ r.prf.cur = none))) := by
  have run := execLdrCheckDone_due load free
  refine ⟨fun bad => ⟨_, run, State.checkDone_fails w load (.inl bad)⟩,
    fun _ bad => ⟨_, run, State.checkDone_fails w load (.inr (.inl bad))⟩,
    fun _ _ code info bad => ⟨_, run, State.checkDone_fails w load (.inr (.inr (.inl (by rw [bad]; simp))))⟩,
    fun trailer crc whole unpatched => ⟨fun code info bad =>
        ⟨_, run, State.checkDone_recipe w load trailer crc whole unpatched bad⟩,
      fun good full => ⟨_, run, ?_⟩,
      fun lost => ⟨_, run, State.checkDone_fails w load (.inr (.inr (.inr lost)))⟩,
      fun good part here => ⟨_, run, ?_⟩⟩⟩
  · have passed := State.checkDone_passed trailer crc whole (State.stagedLost_full full) (t := s)
      (by rw [full, if_neg Bool.false_ne_true, State.patchRest_none unpatched])
    rw [passed.2 good, full, if_neg Bool.false_ne_true]
    obtain ⟨served, ldr, build, only⟩ := State.enterService_spec w (by rw [load]; decide)
    refine ⟨served, ?_, build, TilesSame.of_only only (by simp), only.2 .mem (by simp), only.2 .run (by simp)⟩
    rw [ldr, State.servedLdr, full, if_neg Bool.false_ne_true]
  · obtain ⟨checks, ldr, hdr⟩ := s.touchStaged_checks
    have passed := State.checkDone_passed trailer crc whole here (t := s.touchStaged) (by rw [part, if_pos rfl])
    rw [passed.2 (checks.trans good), hdr, part, if_pos rfl]
    obtain ⟨state, done, held, idle, drive, cur⟩ := s.touchStaged.beginCommit_begun
    exact ⟨state, done, held, idle, drive, cur⟩

/-! ### The copy of a partial image (R201) -/

theorem LoadStep.touchStaged (s : State) : LoadStep s s.touchStaged := by
  obtain ⟨only, -, -, w⟩ := s.touchStaged_spec
  exact LoadStep.of_only only w (by simp) (by simp) (by simp) (by simp)

theorem LoadStep.commitTile (s : State) (v : Nat) : LoadStep s (s.commitTile v) :=
  (LoadStep.tiles (s.setTile_only _ _)).trans (LoadStep.foldl (fun s _ => LoadStep.putShadow s _ _) _ _)

theorem LoadStep.patchTile (s : State) (q : Reloc) : LoadStep s (s.patchTile q) := by
  unfold State.patchTile
  dsimp only
  split
  · exact LoadStep.refl s
  · exact LoadStep.modTile s _ _

/-- The tiles of the region replaced by their staged frames. -/
def State.regionCopied (s : State) : State := s.loadTiles.foldl State.commitTile s.touchStaged

theorem LoadStep.regionCopied (s : State) : LoadStep s s.regionCopied :=
  (LoadStep.touchStaged s).trans (LoadStep.foldl LoadStep.commitTile _ _)

/-- A region that holds every tile leaves none outside. -/
theorem State.outsideTiles_none (first : s.hdr.regionFirst = 0) (last : s.hdr.reqTiles ≤ s.hdr.regionLast + 1) :
    s.outsideTiles = [] := by
  unfold State.outsideTiles
  dsimp only
  split
  · refine List.filter_eq_nil_iff.mpr fun v hv => ?_
    have := List.mem_range.mp hv
    simp only [first, Bool.or_eq_true, decide_eq_true_eq, not_or]
    omega
  · rfl

/-- A copy without a tile outside the region. -/
theorem State.commitDone_whole (here : s.stagedLost = false) (first : s.hdr.regionFirst = 0)
    (last : s.hdr.reqTiles ≤ s.hdr.regionLast + 1) (ue : Option Nat) :
    s.commitDone ue = s.regionCopied.patchRest.enterService := by
  have hdr := (LoadStep.regionCopied s).hdr
  have outside : s.regionCopied.outsideTiles = [] :=
    State.outsideTiles_none (by rw [hdr, first]) (by rw [hdr]; exact last)
  rw [State.commitDone, if_neg (by rw [here]; decide)]
  show (match s.regionCopied.fromShadowAll ue s.regionCopied.outsideTiles with
    | (some v, s) => s.ldrFail 0x7011 (ldInfo v)
    | (none, s) => s.patchRest.enterService) = _
  rw [outside, State.fromShadowAll]

theorem State.commitDone_served (w : Table.wf regInit s.regs = true) (load : s.ldr.state = .commit)
    (here : s.stagedLost = false) (first : s.hdr.regionFirst = 0) (last : s.hdr.reqTiles ≤ s.hdr.regionLast + 1)
    (ue : Option Nat) : Served (s.commitDone ue) := by
  have copied : LoadStep s s.regionCopied.patchRest :=
    (LoadStep.regionCopied s).trans (LoadStep.foldl LoadStep.patchTile _ _)
  rw [State.commitDone_whole here first last]
  exact (State.enterService_spec (copied.wf w) (by rw [copied.state, load]; decide)).1

/-- Without a shadow nothing is put into it. -/
theorem State.putShadow_off (off : s.ldr.shadowEn = false) (o : Nat) (d : List Byte) : s.putShadow o d = s := by
  rw [State.putShadow, off, if_neg Bool.false_ne_true]

theorem State.commitTile_unshadowed (off : s.ldr.shadowEn = false) (v : Nat) :
    s.commitTile v = s.setTile (s.latched v) { s.candidate v with vtile := some v } := by
  have kept (l : List (Nat × Nat × Nat)) (x y : Tile) (t : Nat) :
      l.foldl (fun s f => s.putShadow (shadowOff v f.1 f.2.1) (y.frameBytes f.1 f.2.1)) (s.setTile t x) =
        s.setTile t x :=
    List.foldl_fixed' (fun _ => State.putShadow_off (by rw [State.setTile_ldr, off]) _ _) l
  exact kept _ _ _ _

/-- The copy of a region of one tile, without a shadow: the tile stored is the staged one. -/
theorem State.regionCopied_one (part : s.hdr.partialImg = true) (first : s.hdr.regionFirst = 0)
    (last : s.hdr.regionLast = 0) (off : s.ldr.shadowEn = false) :
    s.regionCopied = s.touchStaged.setTile (s.latched 0) { s.candidate 0 with vtile := some 0 } := by
  obtain ⟨only, larder, -, -⟩ := s.touchStaged_spec
  have ldr : s.touchStaged.ldr = s.ldr := only.2 .ldr (by simp)
  have one : s.loadTiles = [0] := by
    rw [State.loadTiles]
    simp [part, first, last]
  rw [State.regionCopied, one, List.foldl_cons, List.foldl_nil,
    State.commitTile_unshadowed (by rw [ldr]; exact off),
    State.candidate_congr ldr (only.2 .tiles (by simp)) larder, State.latched, ldr, State.latched]

/-- The copy of a partial image ends (R201). -/
theorem ldrCommitDone_does (canon : s.Canonical) (load : s.ldr.state = .commit) (free : s.loadTested = false)
    (ue : Option Nat) :
    (s.stagedLost = true → Does (.ldrCommitDone ue) s (LoadFails s)) ∧
    (s.stagedLost = false → s.hdr.regionFirst = 0 → s.hdr.reqTiles ≤ s.hdr.regionLast + 1 →
      Does (.ldrCommitDone ue) s Served) ∧
    (s.stagedLost = false → s.hdr.partialImg = true → s.hdr.regionFirst = 0 → s.hdr.regionLast = 0 →
      s.hdr.reqTiles = 1 → s.ldr.relocs = [] → s.ldr.shadowEn = false →
      Does (.ldrCommitDone ue) s (fun r => Served r ∧
        r.tile (s.latched 0) = { s.candidate 0 with vtile := some 0 } ∧ TilesBut (s.latched 0) s r ∧
        r.mem.ddr = s.mem.ddr ∧ r.mem.larder = s.mem.larder)) := by
  obtain ⟨w, tiles, -⟩ := canon
  have run := execLdrCommitDone_due load free ue
  refine ⟨fun lost => ⟨_, run, ?_⟩, fun here first last => ⟨_, run, State.commitDone_served w load here first last ue⟩,
    fun here part first last req unpatched off => ⟨_, run, ?_⟩⟩
  · rw [State.commitDone, if_pos lost]
    exact s.ldrFail_fails w (by rw [load]; decide) (by decide) _
  · have whole : s.hdr.reqTiles ≤ s.hdr.regionLast + 1 := by omega
    refine ⟨State.commitDone_served w load here first whole ue, ?_⟩
    obtain ⟨touched, larder, ddr, -⟩ := s.touchStaged_spec
    have hTiles : s.touchStaged.tiles = s.tiles := touched.2 .tiles (by simp)
    have copied := State.regionCopied_one part first last off
    have none : s.regionCopied.ldr.relocs = [] := by
      rw [copied, State.setTile_ldr, (touched.2 .ldr (by simp) : s.touchStaged.ldr = s.ldr)]
      exact unpatched
    have only : Only [.ldr, .regs, .con, .host, .sup, .flash, .prf] s.regionCopied s.regionCopied.enterService :=
      (State.enterService_spec ((LoadStep.regionCopied s).wf w)
        (by rw [(LoadStep.regionCopied s).state, load]; decide)).2.2.2
    obtain ⟨here', others, -⟩ := s.touchStaged.setTile_frame (by rw [State.TilesWf, hTiles]; exact tiles) (s.latched 0)
      { s.candidate 0 with vtile := some 0 }
    rw [State.commitDone_whole here first whole, State.patchRest_none none]
    have same : TilesSame s.regionCopied s.regionCopied.enterService := TilesSame.of_only only (by simp)
    have mem : s.regionCopied.enterService.mem = s.touchStaged.mem := by
      rw [(only.2 .mem (by simp) : _ = s.regionCopied.mem), copied, State.setTile_mem]
    rw [← copied] at here' others
    exact ⟨(same _).trans here', fun k other => ((same k).trans (others k other)).trans (State.tile_congr hTiles k),
      by rw [mem, ddr], by rw [mem, larder]⟩

end

end Sys2Proof.Machine
end

section
/-! ## A load that its host or its source ends (R188, R207, R209, R210) -/

namespace Sys2Proof.Machine

section
variable {s : State}

/-- A load without a byte for LDR_GAP_LIMIT fails (R188). -/
theorem ldrGapTimeout_does (w : Table.wf regInit s.regs = true)
    (load : s.ldr.state = .header ∨ s.ldr.state = .stage ∨ s.ldr.state = .write)
    (on : (s.rd .ldrGapLimit).toNat ≠ 0) (late : (s.rd .ldrGapLimit).toNat * 1000 < s.ldr.gapNs) :
    Does .ldrGapTimeout s (LoadFails s) :=
  ⟨_, whenDue_of (by rcases load with h | h | h <;> simp [h, on, late]) s _,
    s.ldrFail_fails w (by rcases load with h | h | h <;> rw [h] <;> decide) (by decide) _⟩

/-- An ABORT fails the load; at the header the image in service stays (R203, R207). -/
theorem ldrCmdAbort_does (w : Table.wf regInit s.regs = true) (reach : s.reachable = true)
    (srst : s.srst ldrPage = false) {val : Word} (set : bit val 0 = true)
    (load : s.ldr.state = .header ∨ s.ldr.state = .stage ∨ s.ldr.state = .write ∨ s.ldr.state = .check) :
    Does (.ldrCmdAbort val) s (fun r =>
      LoadFails s r ∧ (s.ldr.state = .header → r.ldr.inService = s.ldr.inService)) := by
  have due : (bit val 0 && s.loading && decide (s.ldr.state ≠ .commit)) = true := by
    rcases load with h | h | h | h <;> simp [set, State.loading, h]
  refine ⟨_, (onWrite_open reach srst _).trans (whenDue_of due s _),
    s.ldrFail_fails w (by rcases load with h | h | h | h <;> rw [h] <;> decide) (by decide) _, fun header => ?_⟩
  rw [State.ldrFail_ldr, Loader.afterFail, if_pos (by rw [Loader.keepsImage, header])]

/-- CLEAR leaves FAILED for what the failure kept (R203, R207). -/
theorem ldrCmdClear_does (w : Table.wf regInit s.regs = true) (reach : s.reachable = true)
    (srst : s.srst ldrPage = false) {val : Word} (set : bit val 1 = true) (load : s.ldr.state = .failed) :
    Does (.ldrCmdClear val) s (fun r => r.ldr.state = (if s.ldr.kept then .service else .empty) ∧
      r.ldr.cfgerr = false ∧ r.rd .ldrDropped = 0 ∧ (s.ldr.kept = true → bit (r.reg (ldrPage + 0xC)) 1 = true) ∧
      RegsBut [Reg.addr .ldrDropped, Reg.addr .glbBootStat, rstPage + 0xC, ldrPage + 0xC] s r ∧
      (s.sup.autoload = false → Only [.ldr, .regs, .con, .host] s r)) := by
  let u := s.setLdr { s.ldr with cfgerr := false, partialLoad := s.ldr.lastPartial }
  let q := u.wr .ldrDropped 0
  let n : LdrState := if s.ldr.kept then .service else .empty
  have run : exec (.ldrCmdClear val) s = .next (q.ldrTo n) :=
    (onWrite_open reach srst _).trans (whenDue_of (by simp [set, load]) s _)
  have wq : Table.wf regInit q.regs = true := State.wf_setReg (s := u) w
  have told := State.ldrTo_regsBut wq n
  have ldr : (q.ldrTo n).ldr = { u.ldr with state := n } := q.ldrTo_ldr n
  have stored : RegsBut [Reg.addr .ldrDropped] s q := State.setReg_regsBut (s := u) w _ _
  have cleared : Only [.ldr, .regs] s q :=
    ((Only.ldr s _).mono (by simp)).trans ((u.setReg_only _ _).mono (by simp))
  refine ⟨_, run, by rw [ldr], by rw [ldr]; rfl, ?_, fun kept => ?_, ?_, fun loaded => ?_⟩
  · exact (told (Reg.addr .ldrDropped) (by decide)).trans (State.rd_wr (s := u) w)
  · have service : n = .service := if_pos kept
    rw [service]
    exact State.ldrTo_service_cause wq (by show s.ldr.state ≠ _; rw [load]; decide)
  · exact (stored.mono (by simp)).trans (told.mono (by simp [ldrToRegs]))
  · exact (cleared.mono (by simp)).trans (q.ldrTo_only n loaded)

end

end Sys2Proof.Machine
end

section
/-! ## The way of an image through the loader (R164 to R213) -/

namespace Sys2Proof.Machine

section
variable {s : State} {f : RawFrame}

/-- A control stream frame of a full image: its content has no reserved bits, and no bank stages it (R166, R200). -/
theorem FramePasses.control (whole : 4112 ≤ s.ldr.buf.length) (head : s.frameHead f = none) (ctrl : f.stream = strCtrl)
    (full : s.hdr.partialImg = false) (fresh : (f.vtile, f.stream, f.offset) ∉ s.ldr.seen)
    (unpatched : ∀ q ∈ s.ldr.relocs, q.stream ≠ strCtrl) : FramePasses s f where
  whole := whole
  head := head
  content := by rw [contentBad, ctrl]; rfl
  fresh := fresh
  room := by rw [State.stageRefused, full, Bool.false_and]
  tile := by rw [RawFrame.wide, ctrl]; rfl
  unpatched q hq _ := by rw [ctrl]; exact unpatched q hq

/-- A frame of an image without RELOC records. -/
theorem FramePasses.of_no_relocs (whole : 4112 ≤ s.ldr.buf.length) (head : s.frameHead f = none)
    (tile : f.wide = false) (unpatched : s.ldr.relocs = []) (room : s.stageRefused = false)
    (content : contentBad s.hdr.reqTiles s.hdr.models f = none)
    (fresh : (f.vtile, f.stream, f.offset) ∉ s.ldr.seen) : FramePasses s f :=
  ⟨whole, head, content, fresh, room, tile, by simp [unpatched]⟩

theorem State.frameTested_write (load : s.ldr.state ≠ .write) : s.frameTested = false := by
  simp [State.frameTested, load]

end

/-- Settles O48: an image goes through the loader by its bytes, its header, its frames and its trailer, and its load
ends as the final checks, the copy, a gap, an ABORT and a CLEAR end it. -/
theorem imageLoads : Obligations.ImageLoads := by
  unfold Obligations.ImageLoads
  refine ⟨fun size data val bytes s canon => ?_, fun val ue s canon => ?_⟩
  · have w := canon.1
    refine ⟨fun ⟨reach, srst, en⟩ sel hs => ldrDataWrite_does w reach srst en sel hs data,
      fun ⟨reach, srst, en⟩ flash rest some => ldrSpiRead_does w reach srst en flash rest some,
      execLdrHeader_tested, execLdrFrame_tested, ldrHeader_does w,
      fun load due head free => ?_, fun load last whole => ldrTrailer_does load last whole,
      fun load part due head => ?_⟩
    · have run := execLdrFrame_due (.inl load) due head free
      rw [← load]
      exact ⟨fun whole good tile none room content fresh =>
          ldrFrame_goesOn run (.of_no_relocs whole good tile none room content fresh),
        fun whole good ctrl full fresh unpatched =>
          ldrFrame_control canon run (.control whole good ctrl full fresh unpatched) ctrl full,
        fun code info bad => ldrFrame_refused_write w run load bad⟩
    · have run := execLdrFrame_due (.inr load) due head (State.frameTested_write (by rw [load]; decide))
      rw [← load]
      exact ⟨fun whole good tile none room content fresh =>
          ldrFrame_staged canon run (.of_no_relocs whole good tile none room content fresh) part,
        fun code info bad => ldrFrame_refused_stage w run load bad⟩
  · have w := canon.1
    exact ⟨fun tested => execLdrDone_tested tested ue, ldrCheckDone_does w,
      fun load free => (ldrCommitDone_does canon load free ue).1,
      fun load free => (ldrCommitDone_does canon load free ue).2.1,
      fun load free => (ldrCommitDone_does canon load free ue).2.2,
      ldrGapTimeout_does w, fun reach srst => ldrCmdAbort_does w reach srst,
      fun reach srst => ldrCmdClear_does w reach srst⟩

end Sys2Proof.Machine
end

section
/-! ## Entries of the store (R222, R223) -/

namespace Sys2Proof.Machine

/-- An item complete as it enters the store. -/
def State.entered (s : State) (i : SvcItem) : State := (s.addItem i).2.enlist (s.addItem i).1

/-- The item as it stands in the store. -/
def State.enteredItem (s : State) (i : SvcItem) : SvcItem := { i with id := s.svc.nextId, stage := .ready }

section
variable {s : State} {i j : SvcItem}

theorem State.entered_svc (s : State) (i : SvcItem) : s.entered i = { s with
    svc := { s.svc with
      nextId := s.svc.nextId + 1
      store := (s.svc.store ++ [{ i with id := s.svc.nextId }]).map
        (fun j : SvcItem => if j.id = s.svc.nextId then s.enteredItem i else j)
      ready := s.svc.ready.filter (· ≠ s.svc.nextId) ++ [s.svc.nextId] } } := rfl

theorem State.entered_only (s : State) (i : SvcItem) : Only [.svc] s (s.entered i) := Only.svc s _

theorem State.enteredItem_mem (s : State) (i : SvcItem) : s.enteredItem i ∈ (s.entered i).svc.store :=
  List.mem_map.mpr ⟨{ i with id := s.svc.nextId }, List.mem_append_right _ (List.mem_singleton_self _), if_pos rfl⟩

theorem State.entered_length (s : State) (i : SvcItem) :
    (s.entered i).svc.store.length = s.svc.store.length + 1 := by
  rw [State.entered_svc]
  simp

/-- No entry comes into the store beside the item, whose id is the next one. -/
theorem State.entered_old (h : j ∈ (s.entered i).svc.store) : j ∈ s.svc.store ∨ j.id = s.svc.nextId := by
  obtain ⟨k, hk, rfl⟩ := List.mem_map.mp (State.entered_svc s i ▸ h)
  by_cases new : k.id = s.svc.nextId
  · exact .inr (by rw [if_pos new]; rfl)
  · rw [if_neg new]
    exact .inl ((List.mem_append.mp hk).resolve_right fun h => new (by rw [List.mem_singleton.mp h]))

end

/-- The item that waits first for an entry may take its turn, under the next id: the engines, the completions, the park
list and the model cache stay. -/
structure TurnTaken (s r : State) : Prop where
  svc : r.svc = { s.svc with
    nextId := r.svc.nextId, store := r.svc.store, ready := r.svc.ready, waitItems := r.svc.waitItems }
  store : ∀ j ∈ r.svc.store, j ∈ s.svc.store ∨ j.id = s.svc.nextId

theorem State.issueWaiting_turn (s : State) : TurnTaken s s.issueWaiting := by
  have same : TurnTaken s s := ⟨rfl, fun _ => .inl⟩
  unfold State.issueWaiting
  cases s.svc.waitItems with
  | nil => exact same
  | cons i rest =>
    dsimp only
    unfold State.issueInternal
    by_cases room : s.internalUsed < 480
    · simp only [room, if_true]
      exact ⟨rfl, fun j hj => State.entered_old hj⟩
    · simp only [room, if_false]
      exact same

/-- An entry freed: no entry has its id any more, and the engines, the completions and the model cache stay. -/
structure EntryFreed (id : Nat) (s r : State) : Prop where
  only : Only [.svc] s r
  svc : r.svc = { s.svc with
    nextId := r.svc.nextId, store := r.svc.store, ready := r.svc.ready, parkOrder := r.svc.parkOrder
    waitItems := r.svc.waitItems }
  gone : id < s.svc.nextId → ∀ j ∈ r.svc.store, j.id ≠ id

theorem State.dropItem_freed (s : State) (id : Nat) : EntryFreed id s (s.dropItem id) := by
  have turn := State.issueWaiting_turn { s with
    svc := { s.svc with
      store := s.svc.store.filter fun j => j.id ≠ id
      ready := s.svc.ready.filter (· ≠ id)
      parkOrder := s.svc.parkOrder.filter (· ≠ id) } }
  refine ⟨s.dropItem_only id, ?_, fun old j hj => ?_⟩
  · rw [State.dropItem, turn.svc]
  · rcases turn.store j hj with kept | new
    · exact of_decide_eq_true (List.mem_filter.mp kept).2
    · exact new ▸ Nat.ne_of_gt old

end Sys2Proof.Machine
end

section
/-! ## Submissions to the host queues (R218, R224, R243) -/

namespace Sys2Proof.Machine

section
variable {s : State} {q : Nat} {val : Word}

/-- The state whose STAT register of queue q holds REFUSED and the TAG of a submission. -/
def State.submitted (s : State) (q : Nat) (val : Word) (refused : Nat) : State :=
  (s.setFld .svcHqStat 15 0 (val.setWidth 16).toNat q).setFld .svcHqStat 31 31 refused q

/-- A queue has room when it has a free entry and the item's level a free place (R224). -/
def State.queueRoom (s : State) (q : Nat) (val : Word) : Prop :=
  (s.queueUsed q < (if q = 0 then 64 else 32) ∧ s.pageEn svcPage = true) ∧
    (s.listed (s.descItem q (val.setWidth 16)).level).length < 1024

theorem execSvcHqSubmit_room (reach : s.reachable = true) (srst : s.srst svcPage = false) (hq : q < 2)
    (room : s.queueRoom q val) (type : (s.descItem q (val.setWidth 16)).type ∈ hostTypes) :
    exec (.svcHqSubmit q val) s = .next ((s.submitted q val 0).entered (s.descItem q (val.setWidth 16))) := by
  refine (guardUnit_of (decide_eq_true hq) _).trans ((onWrite_open reach srst _).trans ?_)
  refine (if_pos room).trans ?_
  dsimp only
  rw [if_pos type]
  rfl

theorem execSvcHqSubmit_full (reach : s.reachable = true) (srst : s.srst svcPage = false) (hq : q < 2)
    (full : ¬ s.queueRoom q val) : exec (.svcHqSubmit q val) s =
      .next ((s.submitted q val 1).svcErr (0x2006 + q) (val.setWidth 16).toNat) := by
  refine (guardUnit_of (decide_eq_true hq) _).trans ((onWrite_open reach srst _).trans ?_)
  exact if_neg full

theorem State.submitted_spec (w : Table.wf regInit s.regs = true) (q : Nat) (val : Word) {refused : Nat}
    (bit : refused < 2) :
    (s.submitted q val refused).fld .svcHqStat 31 31 q = refused ∧
    (s.submitted q val refused).fld .svcHqStat 15 0 q = bits val 15 0 ∧
    RegsBut [Reg.addr .svcHqStat q] s (s.submitted q val refused) ∧ Only [.regs] s (s.submitted q val refused) ∧
    Table.wf regInit (s.submitted q val refused).regs = true := by
  have w1 := State.wf_setFld w .svcHqStat 15 0 (val.setWidth 16).toNat q 0
  have tag : (val.setWidth 16).toNat = bits val 15 0 := by
    simp [bits, BitVec.extractLsb'_toNat]
  refine ⟨State.fld_setFld w1 (by omega) (by decide), ?_, (State.setReg_regsBut w _ _).trans
    (State.setReg_regsBut w1 _ _), (s.setReg_only _ _).trans (State.setReg_only _ _ _), State.wf_setFld w1 ..⟩
  rw [State.submitted, State.fld, State.rd_setFld w1, bits_setBits_other (by decide) (by decide)]
  exact (State.fld_setFld w (val.setWidth 16).isLt (by decide)).trans tag

end

end Sys2Proof.Machine
end

section
/-! ## Completions of the host queues (R243) -/

namespace Sys2Proof.Machine

section
variable {s : State} {q : Nat} {c : HostCpl} {rest : List HostCpl}

/-- The completions that a host queue holds, oldest first. -/
def State.completions (s : State) (q : Nat) : List HostCpl := if q = 0 then s.svc.cplSup else s.svc.cplDbg

/-- What SVC_HQ_CPL reads for a completion. -/
def HostCpl.word (c : HostCpl) : Word := BitVec.ofNat 32 (2 ^ 31 + c.status.toNat * 2 ^ 16 + c.tag.toNat)

/-- The state whose queue q holds the completions of l. -/
def State.setCompletions (s : State) (q : Nat) (l : List HostCpl) : State :=
  if q = 0 then { s with svc := { s.svc with cplSup := l } } else { s with svc := { s.svc with cplDbg := l } }

/-- The state in which the oldest completion of queue q has been popped. -/
def State.popped (s : State) (q : Nat) (c : HostCpl) (rest : List HostCpl) : State :=
  (((s.setCompletions q rest).wr .svcHqCplDataLo (lo32 c.result) q).wr .svcHqCplDataHi (hi32 c.result) q).dropItem
    c.item

theorem execSvcHqCplRead_empty (reach : s.reachable = true) (hq : q < 2) (empty : s.completions q = []) :
    exec (.svcHqCplRead q .bar0) s = .next (s.answer [0]) := by
  refine (guardUnit_of (decide_eq_true hq) _).trans ((onRead_bar0 reach _ _).trans ?_)
  unfold State.completions at empty
  rw [empty]

theorem execSvcHqCplRead_peek (reach : s.reachable = true) (hq : q < 2) (oldest : s.completions q = c :: rest)
    (peek : s.peeks svcPage .bar0 = true) : exec (.svcHqCplRead q .bar0) s = .next (s.answer [c.word]) := by
  refine (guardUnit_of (decide_eq_true hq) _).trans ((onRead_bar0 reach _ _).trans ?_)
  unfold State.completions at oldest
  rw [oldest]
  exact if_pos peek

theorem execSvcHqCplRead_pop (reach : s.reachable = true) (hq : q < 2) (oldest : s.completions q = c :: rest)
    (peek : s.peeks svcPage .bar0 = false) :
    exec (.svcHqCplRead q .bar0) s = .next ((s.popped q c rest).answer [c.word]) := by
  refine (guardUnit_of (decide_eq_true hq) _).trans ((onRead_bar0 reach _ _).trans ?_)
  unfold State.completions at oldest
  rw [oldest]
  exact if_neg (by simp [peek])

theorem State.setCompletions_spec (s : State) (q : Nat) (l : List HostCpl) :
    (s.setCompletions q l).svc.cplSup = (if q = 0 then l else s.svc.cplSup) ∧
    (s.setCompletions q l).svc.cplDbg = (if q = 0 then s.svc.cplDbg else l) ∧
    (s.setCompletions q l).svc.nextId = s.svc.nextId ∧ Only [.svc] s (s.setCompletions q l) := by
  unfold State.setCompletions
  by_cases sup : q = 0
  · simp only [sup, if_true]
    exact ⟨trivial, trivial, trivial, Only.svc s _⟩
  · simp only [sup, if_false]
    exact ⟨trivial, trivial, trivial, Only.svc s _⟩

/-- A pop takes the completion, frees its entry and fills the data registers. -/
theorem State.popped_spec (w : Table.wf regInit s.regs = true) (q : Nat) (c : HostCpl) (rest : List HostCpl)
    (old : c.item < s.svc.nextId) :
    (s.popped q c rest).svc.cplSup = (if q = 0 then rest else s.svc.cplSup) ∧
    (s.popped q c rest).svc.cplDbg = (if q = 0 then s.svc.cplDbg else rest) ∧
    (s.popped q c rest).rd .svcHqCplDataLo q = lo32 c.result ∧
    (s.popped q c rest).rd .svcHqCplDataHi q = hi32 c.result ∧
    (∀ j ∈ (s.popped q c rest).svc.store, j.id ≠ c.item) ∧ Only [.regs, .svc] s (s.popped q c rest) := by
  obtain ⟨sup, dbg, next, only⟩ := s.setCompletions_spec q rest
  unfold State.popped
  generalize s.setCompletions q rest = t at sup dbg next only
  have wt : Table.wf regInit t.regs = true := (only.2 .regs (by simp) : t.regs = s.regs) ▸ w
  have wl : Table.wf regInit (t.wr .svcHqCplDataLo (lo32 c.result) q).regs = true := State.wf_setReg wt
  have freed := State.dropItem_freed ((t.wr .svcHqCplDataLo (lo32 c.result) q).wr .svcHqCplDataHi (hi32 c.result) q)
    c.item
  have regs := freed.only.2 .regs (by simp)
  refine ⟨(congrArg Service.cplSup freed.svc).trans sup, (congrArg Service.cplDbg freed.svc).trans dbg,
    (State.reg_congr regs _).trans ?_, (State.reg_congr regs _).trans (State.rd_wr wl),
    freed.gone (next.symm ▸ old), ?_⟩
  · rw [State.reg_wr wl, if_neg (by simp only [Reg.addr, Reg.row]; omega)]
    exact State.rd_wr wt
  · exact (only.mono (by simp)).trans ((((t.setReg_only _ _).trans (State.setReg_only _ _ _)).mono (by simp)).trans
      (freed.only.mono (by simp)))

end

/-- Settles O33: a submission with room enters its item, one without is recorded, and a read of the completion register
pops the oldest completion of its queue. -/
theorem hostQueues : Obligations.HostQueues := by
  unfold Obligations.HostQueues
  intro q val c rest s canon reach srst hq i limit
  have w := canon.1
  have reads (p : Nat) (hp : p < 2) (oldest : s.completions p = c :: rest) (old : c.item < s.svc.nextId) :
      (s.peeks svcPage .bar0 = false → Does (.svcHqCplRead p .bar0) s (fun r =>
        r.svc.cplSup = (if p = 0 then rest else s.svc.cplSup) ∧ r.svc.cplDbg = (if p = 0 then s.svc.cplDbg else rest) ∧
        r.host.readData = [c.word] ∧ r.rd .svcHqCplDataLo p = lo32 c.result ∧
        r.rd .svcHqCplDataHi p = hi32 c.result ∧ (∀ j ∈ r.svc.store, j.id ≠ c.item) ∧
        Only [.regs, .svc, .host] s r)) ∧
      (s.peeks svcPage .bar0 = true → Does (.svcHqCplRead p .bar0) s (fun r => Only [.host] s r ∧
        r.host.readData = [c.word])) := by
    refine ⟨fun peek => ?_, fun peek => ⟨_, execSvcHqCplRead_peek reach hp oldest peek, s.answer_only _, rfl⟩⟩
    obtain ⟨sup, dbg, lo, hi, gone, only⟩ := State.popped_spec w p c rest old
    exact ⟨_, execSvcHqCplRead_pop reach hp oldest peek, sup, dbg, rfl, lo, hi, gone,
      (only.mono (by simp)).trans ((State.answer_only _ _).mono (by simp))⟩
  have empty (p : Nat) (hp : p < 2) (none : s.completions p = []) :
      Does (.svcHqCplRead p .bar0) s (fun r => r.host.readData = [0] ∧ Only [.host] s r) :=
    ⟨_, execSvcHqCplRead_empty reach hp none, rfl, s.answer_only _⟩
  refine ⟨fun room en place type => ?_, fun full => ?_, fun sup old => ?_, fun dbg old => ?_, empty 0 (by decide),
    empty 1 (by decide)⟩
  · obtain ⟨refused, tag, regs, only, -⟩ := State.submitted_spec w q val (refused := 0) (by decide)
    have svc : (s.submitted q val 0).svc = s.svc := only.2 .svc (by simp)
    refine ⟨_, execSvcHqSubmit_room reach srst hq ⟨⟨room, en⟩, place⟩ type, ?_, ?_, ?_, ?_, refused, tag, regs,
      (only.mono (by simp)).trans ((State.entered_only _ _).mono (by simp))⟩
    · rw [State.entered_svc, svc]
    · rw [State.entered_length, svc]
    · rw [State.entered_svc, svc]
      simp
    · refine ⟨_, State.enteredItem_mem _ _, ?_⟩
      rw [State.enteredItem, svc]
  · obtain ⟨refused, -, regs, only, w1⟩ := State.submitted_spec w q val (refused := 1) (by decide)
    obtain ⟨errOnly, errRegs, count⟩ :=
      State.err_recorded w1 svcPage (val.setWidth 16).toNat (code := 0x2006 + q) (by omega)
    refine ⟨_, execSvcHqSubmit_full reach srst hq fun room => absurd room.1.1 (Nat.not_lt.mpr full), ?_,
      (only.mono (by simp)).trans (errOnly.mono (by simp)), count, ?_⟩
    · rw [State.fld, State.svcErr, State.rd, errRegs _ ?_]
      · exact refused
      · simp only [Sys2Proof.Machine.errRegs, svcPage, Reg.addr, Reg.row, List.mem_cons, List.not_mem_nil, or_false]
        omega
    · exact (regs.mono (by simp)).trans (errRegs.mono (by simp +contextual))
  · exact reads 0 (by decide) sup old
  · have popped := reads 1 (by decide) dbg old
    refine ⟨fun peek => ?_, popped.2⟩
    obtain ⟨r, run, sup, dbg, others⟩ := popped.1 peek
    exact ⟨r, run, dbg, sup, others⟩

end Sys2Proof.Machine
end

section
/-! ## Ring pointers and EN (R236, R237, R245) -/

namespace Sys2Proof.Machine

section
variable {s : State} {c : Nat} {type : Byte} {i : SvcItem}

/-- Parked items that return change the store and the lists of the dispatcher. -/
theorem State.unpark_only (s : State) (c : Nat) (type : Byte) : Only [.svc] s (s.unpark c type) :=
  Only.foldl (F := fun s (i : SvcItem) =>
    { s.enlist i with svc := { (s.enlist i).svc with parkOrder := s.svc.parkOrder.filter (· ≠ i.id) } })
    (fun s _ => Only.svc s _) _ s

/-- The only item, parked on the ring, goes back to its level. -/
theorem State.unpark_alone (store : s.svc.store = [i]) (order : s.svc.parkOrder = [i.id])
    (stage : i.stage = .parked c) (ofType : i.type = type) :
    (s.unpark c type).svc.store = [{ i with stage := .ready }] ∧
    (s.unpark c type).svc.ready = s.svc.ready.filter (· ≠ i.id) ++ [i.id] ∧ (s.unpark c type).svc.parkOrder = [] := by
  have here : s.item i.id = some i := by simp [State.item, store]
  have back : (s.svc.parkOrder.filterMap s.item).filter (fun i => i.stage = .parked c && i.type = type) = [i] := by
    simp [order, here, stage, ofType]
  have moved : s.unpark c type =
      { s.enlist i with svc := { (s.enlist i).svc with parkOrder := s.svc.parkOrder.filter (· ≠ i.id) } } := by
    rw [State.unpark, back]
    rfl
  rw [moved]
  exact ⟨by simp [State.enlist, State.putItem, store], rfl, by simp [order]⟩

/-- A pointer register written: HOST takes its half, and the items parked on the ring return when it moved. -/
theorem State.writePtr_spec (w : Table.wf regInit s.regs = true) (r : Reg) (c : Nat) (type : Byte) (val : Word)
    (i : SvcItem) :
    let t := s.writePtr r c type val
    t.rd r c = setBits (s.rd r c) 31 16 (bits val 31 16) ∧ RegsBut [r.addr c] s t ∧ Only [.regs, .svc] s t ∧
    (bits (s.rd r c) 31 16 = bits val 31 16 → t.svc = s.svc) ∧
    (bits (s.rd r c) 31 16 ≠ bits val 31 16 →
      s.svc.store = [i] ∧ s.svc.parkOrder = [i.id] ∧ i.stage = .parked c → i.type = type →
      t.svc.store = [{ i with stage := .ready }] ∧ t.svc.ready = s.svc.ready.filter (· ≠ i.id) ++ [i.id] ∧
        t.svc.parkOrder = []) := by
  intro t
  let q := s.wr r (setBits (s.rd r c) 31 16 (bits val 31 16)) c
  have only : Only [.regs] s q := s.setReg_only _ _
  have regs : RegsBut [r.addr c] s q := State.setReg_regsBut w _ _
  by_cases same : bits (s.rd r c) 31 16 = bits val 31 16
  · have stored : t = q := if_pos same
    rw [stored]
    exact ⟨State.rd_wr w, regs, only.mono (by simp), fun _ => rfl, fun moved => absurd same moved⟩
  · have stored : t = q.unpark c type := if_neg same
    have parked := q.unpark_only c type
    have kept : (q.unpark c type).regs = q.regs := parked.2 .regs (by simp)
    rw [stored]
    refine ⟨(State.reg_congr kept _).trans (State.rd_wr w), regs.trans (RegsBut.of_eq kept),
      (only.mono (by simp)).trans (parked.mono (by simp)), fun h => absurd h same, fun _ alone ofType => ?_⟩
    obtain ⟨store, order, stage⟩ := alone
    exact State.unpark_alone (s := q) store order stage ofType

/-- EN set on a ring that was off: the base is stored, and DEV takes HOST. -/
theorem State.writeRingLo_starts (w : Table.wf regInit s.regs = true) {lo ptr : Reg} {val : Word}
    (apart : Reg.addr ptr c ≠ Reg.addr lo c) (set : bit val 0 = true) (off : bit (s.rd lo c) 0 = false) :
    let t := s.writeRingLo lo ptr c val
    t.rd lo c = val &&& 0xFFFFF001 ∧ bits (t.rd ptr c) 15 0 = bits (s.rd ptr c) 31 16 ∧
    bits (t.rd ptr c) 31 16 = bits (s.rd ptr c) 31 16 ∧ RegsBut [lo.addr c, ptr.addr c] s t ∧ Only [.regs] s t := by
  intro t
  let q := s.wr lo (val &&& 0xFFFFF001) c
  have wq : Table.wf regInit q.regs = true := State.wf_setReg w
  have ptrKept : q.rd ptr c = s.rd ptr c := (State.reg_wr w).trans (if_neg apart)
  have stored : t = q.wr ptr (setBits (s.rd ptr c) 15 0 (bits (s.rd ptr c) 31 16)) c := by
    show s.writeRingLo lo ptr c val = _
    simp only [State.writeRingLo, off, set, Bool.false_eq_true, if_false, if_true]
    rw [show (s.wr lo (val &&& 0xFFFFF001) c).rd ptr c = s.rd ptr c from ptrKept]
    rfl
  rw [stored]
  refine ⟨?_, ?_, ?_, ?_, (s.setReg_only _ _).trans (q.setReg_only _ _)⟩
  · exact ((State.reg_wr wq).trans (if_neg apart.symm)).trans (State.rd_wr w)
  · rw [State.rd_wr wq]
    exact bits_setBits_same (BitVec.isLt _) (by decide)
  · rw [State.rd_wr wq]
    exact bits_setBits_other (by decide) (.inr (by decide))
  · exact ((State.setReg_regsBut w (lo.addr c) _).mono (by simp)).trans
      ((State.setReg_regsBut wq (ptr.addr c) _).mono (by simp))

end

end Sys2Proof.Machine
end

section
/-! ## What leaves the model cache alone (R311, R328, R481) -/

namespace Sys2Proof.Machine

section
variable {s : State}

theorem Only.cache {l : List Part} {r : State} (h : Only l s r) (svc : .svc ∉ l) : r.svc.cache = s.svc.cache :=
  congrArg Service.cache (h.2 .svc svc)

theorem State.ite_cache {p : Prop} [Decidable p] {t r : State} {l : List CacheLine} (ht : t.svc.cache = l)
    (hr : r.svc.cache = l) : (if p then t else r).svc.cache = l := by
  split
  · exact ht
  · exact hr

/-! ### An integrity failure (R143, R328) -/

/-- An immediate stop leaves the write-back of the model cache due, and its lines as they are. -/
theorem State.stopAll_cache (s : State) (causes : BitVec 13) : (s.stopAll causes).svc.cache = s.svc.cache := by
  have tiles := (s.mapTiles_only fun x => if x.vtile.isSome then x.stop else x).cache (by simp)
  have halt : s.stopTiles.haltTaken.svc.cache = s.svc.cache :=
    (s.stopTiles.softRepair_repaired.only.cache (by simp)).trans tiles
  unfold State.stopAll
  dsimp only
  generalize s.stopTiles.haltTaken = q at halt
  refine ((State.raise_only _ runPage _).cache (by simp)).trans ?_
  exact ((State.setRun_only _ .halted).cache (by simp)).trans halt

theorem State.immediateStop_cache (s : State) (c : Nat) : (s.immediateStop c).svc.cache = s.svc.cache := by
  unfold State.immediateStop
  split
  · rfl
  · exact s.stopAll_cache _

/-- The failure empties the engines and stops the device; the model cache keeps its lines. -/
theorem State.integrityFail_cache (s : State) (a cls slot queue : Nat) (rmw : Bool) :
    (s.integrityFail a cls slot queue rmw).svc.cache = s.svc.cache := by
  unfold State.integrityFail
  refine (State.immediateStop_cache _ 11).trans ?_
  refine ((State.mapTiles_only _ _).cache (by simp)).trans ?_
  refine ((State.alert_only _ 1 true).cache (by simp)).trans ?_
  refine ((State.raise_only _ encPage _).cache (by simp)).trans ?_
  refine ((State.err_only _ encPage 0x3104 0).cache (by simp)).trans ?_
  dsimp only [State.setFld, State.wr_svc]
  split <;> rfl

/-! ### Lines read and written (R310, R314, R324, R481) -/

theorem State.meetChannel_cache (s : State) (a : Nat) : (s.meetChannel a).svc.cache = s.svc.cache := by
  obtain ⟨m, meets, -⟩ := s.meetChannel_eq a
  rw [meets]

theorem State.ddrUe_cache (s : State) (a : Nat) : (s.ddrUe a).svc.cache = s.svc.cache :=
  (State.err_only _ _ _ _).cache (by simp)

/-- A line read, where the DRAM meets no error. -/
theorem State.lineRead_cache (s : State) (r : Requester) (slot a : Nat) (read write : Bool) :
    (s.lineRead r slot a read write .clean).2.svc.cache = s.svc.cache := by
  unfold State.lineRead
  split
  · rfl
  · split
    · exact (s.err_only _ _ _).cache (by simp)
    · extract_lets met used cleaned tagged
      have meet : met.svc.cache = s.svc.cache := s.meetChannel_cache a
      have seen : tagged.svc.cache = s.svc.cache := State.ite_cache meet meet
      split
      · exact (met.ddrUe_cache a).trans meet
      · split
        · exact (tagged.integrityFail_cache _ _ _ _ _).trans seen
        · exact seen

/-- A part of a line written, where the DRAM meets no error. -/
theorem State.linePut_cache (s : State) (r : Requester) (slot a : Nat) (d : List Byte) :
    (s.linePut r slot a d .clean).2.svc.cache = s.svc.cache := by
  unfold State.linePut
  split
  · rfl
  · split
    · exact (s.err_only _ _ _).cache (by simp)
    · extract_lets met used base whole blocks rmw cleaned tagged plain stored
      have meet : met.svc.cache = s.svc.cache := s.meetChannel_cache a
      have clean : cleaned.svc.cache = s.svc.cache := State.ite_cache meet meet
      have seen : tagged.svc.cache = s.svc.cache := State.ite_cache clean clean
      split
      · exact (met.ddrUe_cache a).trans meet
      · split
        · exact (tagged.integrityFail_cache _ _ _ _ _).trans seen
        · have tag : (stored.writeTag base).svc.cache = stored.svc.cache := by
            unfold State.writeTag
            split <;> rfl
          exact State.ite_cache (tag.trans seen) seen

theorem State.unprotect_cache (s : State) (why : Nat) : (s.unprotect why).svc.cache = s.svc.cache :=
  (s.unprotect_only why).1.cache (by simp)

theorem State.undoPut_cache (s : State) (line : Nat) (old : List Byte) :
    (s.undoPut line old).svc.cache = s.svc.cache := by
  unfold State.undoPut
  extract_lets pos bytes a first second stored
  have wrote : stored.svc.cache = s.svc.cache :=
    (State.linePut_cache _ _ _ _ _).trans (State.linePut_cache _ _ _ _ _)
  unfold State.logSave
  split <;> exact wrote

theorem State.undoBefore_cache (s : State) (r : Requester) (slot a : Nat) :
    (s.undoBefore r slot a).svc.cache = s.svc.cache := by
  have read := s.lineRead_cache reqService (s.qkey 9) (a / 64 * 64) true false
  unfold State.undoBefore
  dsimp only
  split
  · rfl
  · split
    · exact State.unprotect_cache _ 1
    · generalize s.lineRead reqService (s.qkey 9) (a / 64 * 64) true false .clean = got at read
      obtain ⟨e, t⟩ := got
      cases e with
      | ok old => exact (t.undoPut_cache _ old).trans read
      | _ => exact read

/-- A write to DDR does not touch the model cache. -/
theorem State.lineWrite_cache (s : State) (r : Requester) (slot a : Nat) (d : List Byte) :
    (s.lineWrite r slot a d .clean).2.svc.cache = s.svc.cache :=
  (State.linePut_cache _ _ _ _ _).trans (s.undoBefore_cache r slot a)

end

end Sys2Proof.Machine
end

section
/-! ## FLUSH (R235, R242) -/

namespace Sys2Proof.Machine

section
variable {s : State} {c : CacheLine}

/-- A write-back leaves every line of its number clean, and makes no other line dirty. -/
theorem State.writeBack_cleans (s : State) (c d : CacheLine) (h : d ∈ (s.writeBack c).2.svc.cache)
    (dirty : d.dirty = true) : d ∈ s.svc.cache ∧ d.line ≠ c.line := by
  have wrote : ((s.touchLarder c.bank).lineWrite reqService c.slot (64 * c.line) c.bytes .clean).2.svc.cache =
      s.svc.cache := State.lineWrite_cache _ _ _ _ _
  unfold State.writeBack at h
  generalize (s.touchLarder c.bank).lineWrite reqService c.slot (64 * c.line) c.bytes .clean = got at h wrote
  obtain ⟨e, t⟩ := got
  have dropped (u : d ∈ (t.uncache c.line).svc.cache) : d ∈ s.svc.cache ∧ d.line ≠ c.line := by
    obtain ⟨old, other⟩ := List.mem_filter.mp u
    exact ⟨wrote ▸ old, of_decide_eq_true other⟩
  cases e with
  | ok l =>
    obtain ⟨k, hk, rfl⟩ := List.mem_map.mp h
    by_cases same : k.line = c.line
    · rw [if_pos same] at dirty
      cases dirty
    · rw [if_neg same] at dirty ⊢
      exact ⟨wrote ▸ hk, same⟩
  | _ => exact dropped h

/-- After the lines of l are written back, a dirty line is one of the cache that l does not name. -/
theorem State.writeBacks_clean (l : List CacheLine) : ∀ (s : State) (d : CacheLine),
    d ∈ (l.foldl (fun s c => (s.writeBack c).2) s).svc.cache → d.dirty = true → d ∈ s.svc.cache ∧ d ∉ l := by
  induction l with
  | nil => exact fun s d h _ => ⟨h, List.not_mem_nil⟩
  | cons c l ih =>
    intro s d h dirty
    obtain ⟨first, rest⟩ := ih _ d h dirty
    obtain ⟨old, other⟩ := s.writeBack_cleans c d first dirty
    exact ⟨old, fun named => (List.mem_cons.mp named).elim (fun same => other (same ▸ rfl)) rest⟩

theorem State.flushCache_clean (s : State) : ∀ d ∈ s.flushCache.svc.cache, d.dirty = false := by
  intro d h
  by_contra dirty
  have dirty : d.dirty = true := by simpa using dirty
  obtain ⟨old, named⟩ := State.writeBacks_clean _ s d h dirty
  exact named (List.mem_filter.mpr ⟨old, dirty⟩)

/-- With no dirty line there is nothing to write back. -/
theorem State.flushCache_idle (clean : ∀ d ∈ s.svc.cache, d.dirty = false) : s.flushCache = s := by
  have none : s.svc.cache.filter CacheLine.dirty = [] :=
    List.filter_eq_nil_iff.mpr fun d hd => by simp [clean d hd]
  rw [State.flushCache, none]
  rfl

end

/-- The RW fields of SVC_CACHE_CTRL stored. -/
def State.cacheCtrl (s : State) (val : Word) : State :=
  s.wr .svcCacheCtrl ((s.rd .svcCacheCtrl &&& 0x7F) ||| (val &&& 0x00FF0080))

theorem execSvcCacheFlush_set {s : State} {val : Word} (reach : s.reachable = true) (srst : s.srst svcPage = false)
    (set : bit val 31 = true) : exec (.svcCacheFlush val) s =
      .next (if s.pageEn svcPage then (s.cacheCtrl val).flushCache else s.cacheCtrl val) :=
  (onWrite_open reach srst _).trans (whenDue_of set _ _)

/-- Settles O34: a pointer register takes HOST and lets the parked items return, EN set sets DEV, and every write-back
of a flush leaves its line clean or out of the cache. -/
theorem transactorRings : Obligations.TransactorRings := by
  unfold Obligations.TransactorRings
  intro c val i s canon reach srst hc moved alone back
  have w := canon.1
  have runs (k : Out) : guardUnit (c < 16) (onWrite svcPage s k) = k :=
    (guardUnit_of (decide_eq_true hc) _).trans (onWrite_open reach srst _)
  refine ⟨⟨_, runs _, State.writePtr_spec w .svcXoutPtr c 0x10 val i⟩,
    ⟨_, runs _, State.writePtr_spec w .svcXinPtr c 0x11 val i⟩, fun set off => ?_, fun set off => ?_,
    fun set off => ?_, fun set on => ?_⟩
  · exact ⟨_, (runs _).trans (whenDue_of set _ _), State.writeRingLo_starts w (by simp [Reg.addr, Reg.row]) set off⟩
  · exact ⟨_, (runs _).trans (whenDue_of set _ _), State.writeRingLo_starts w (by simp [Reg.addr, Reg.row]) set off⟩
  · refine ⟨s.cacheCtrl val, ?_, State.setReg_regsBut w _ _, s.setReg_only _ _⟩
    rw [execSvcCacheFlush_set reach srst set, off, if_neg Bool.false_ne_true]
  · refine ⟨(s.cacheCtrl val).flushCache, ?_, State.flushCache_clean _, fun clean => ?_⟩
    · rw [execSvcCacheFlush_set reach srst set, on, if_pos rfl]
    · rw [State.flushCache_idle (s := s.cacheCtrl val) clean]
      exact ⟨rfl, State.setReg_regsBut w _ _, s.setReg_only _ _⟩

end Sys2Proof.Machine
end

section
/-! ## Items that end (R231, R243, R244, R246) -/

namespace Sys2Proof.Machine

section
variable {s t r : State} {e : Nat} {i : SvcItem}

/-- The engines stand in canonical form. -/
def State.EnginesWf (s : State) : Prop := Table.wf (fun _ => none) s.svc.engines = true

/-- A command on the item that an engine runs. -/
theorem onEngine_runs {type : Byte} (he : e < 18) (run : s.running e = some i) (ofType : i.type = type)
    (g : SvcItem → State) : onEngine e type s g = .next (g i) := by
  refine (guardUnit_of (decide_eq_true he) _).trans ?_
  rw [run]
  exact whenDue_of (decide_eq_true ofType) _ _

/-- The engine is free, its count has grown, and nothing else changed. -/
structure EngineLeft (e : Nat) (s r : State) : Prop where
  freed : EngineFreed e s r
  queue : r.svc.cplSup = s.svc.cplSup
  cache : r.svc.cache = s.svc.cache
  nextId : r.svc.nextId = s.svc.nextId
  only : Only [.svc, .regs] s r
  regs : RegsBut [Reg.addr .svcEngItems e] s r
  wf : Table.wf regInit r.regs = true
  engines : r.EnginesWf

theorem State.engineDone_left (w : Table.wf regInit s.regs = true) (we : s.EnginesWf) (e : Nat) :
    EngineLeft e s (s.engineDone e) where
  freed := ⟨(Table.get_set we).trans (if_pos rfl), State.rd_countReg (s := { s with svc := _ }) w _ _ _ _⟩
  queue := rfl
  cache := rfl
  nextId := rfl
  only := ((Only.svc s _).mono (by simp)).trans ((State.countReg_only _ _ _ _ _ _).mono (by simp))
  regs := State.countReg_regsBut (s := { s with svc := _ }) w _ _ _ _ _
  wf := State.wf_setReg w
  engines := Table.wf_set we

/-- An engine stays free while the engines stay and its count is not written. -/
theorem EngineFreed.keeps (h : EngineFreed e s t) (engines : r.svc.engines = t.svc.engines)
    (count : r.rd .svcEngItems e = t.rd .svcEngItems e) : EngineFreed e s r :=
  ⟨engines ▸ h.1, count ▸ h.2⟩

/-- An engine is freed as well from a state with the same count of its items. -/
theorem EngineFreed.since (h : EngineFreed e t r) (count : t.rd .svcEngItems e = s.rd .svcEngItems e) :
    EngineFreed e s r :=
  ⟨h.1, count ▸ h.2⟩

theorem svcEngItems_not_err (e : Nat) : Reg.addr .svcEngItems e ∉ errRegs svcPage := by
  simp only [errRegs, svcPage, Reg.addr, Reg.row, List.mem_cons, List.not_mem_nil, or_false]
  omega

/-! ### Items of the supervisor queue -/

/-- A completion of an item of the supervisor queue stands at the queue's end. -/
structure SupTold (i : SvcItem) (status : Byte) (v : DWord) (s r : State) : Prop where
  told : SupCompleted i status v s r
  engines : r.svc.engines = s.svc.engines
  cache : r.svc.cache = s.svc.cache
  only : Only [.svc, .regs, .host] s r
  regs : Table.wf regInit s.regs = true → RegsBut (errRegs svcPage) s r ∧
    r.reg (svcPage + 0x18) = s.reg (svcPage + 0x18)
  messages : MessagesOnly s r

theorem State.hostComplete_sup (src : i.source = .sup) (s : State) (n : Nat) (v : DWord) :
    SupTold i (BitVec.ofNat 8 n) v s (s.hostComplete i n v) := by
  let q : State := s.putItem { i with stage := .done, result := v, status := BitVec.ofNat 8 n }
  let u : State := { q with svc := { q.svc with
    ready := q.svc.ready.filter (· ≠ i.id)
    cplSup := s.svc.cplSup ++ [⟨i.id, i.tag, BitVec.ofNat 8 n, v⟩] } }
  have queued : SupTold i (BitVec.ofNat 8 n) v s u :=
    ⟨rfl, rfl, rfl, (Only.svc s _).mono (by simp), fun _ => ⟨RegsBut.refl _ s, rfl⟩, MessagesOnly.of_eq rfl⟩
  have ends : s.hostComplete i n v = if s.svc.cplSup.isEmpty then u.cause svcPage 2 else u := by
    unfold State.hostComplete
    split
    · next debug => exact absurd (src.symm.trans debug) nofun
    · rfl
  rw [ends]
  split
  · have only := u.raise_only svcPage (flagAt true 2)
    have svc : (u.cause svcPage 2).svc = u.svc := only.2 .svc (by simp)
    refine ⟨(congrArg Service.cplSup svc).trans queued.told, (congrArg Service.engines svc).trans queued.engines,
      (congrArg Service.cache svc).trans queued.cache,
      queued.only.trans (only.mono (by simp)), fun w => ?_, u.raise_messages _ _⟩
    have caused := State.cause_regsBut (s := u) w svcPage 2
    exact ⟨caused.mono (by simp [errRegs]), caused _ (by simp)⟩
  · exact queued

theorem SvcItem.of_sup (src : i.source = .sup) : i.fromTile = false ∧ i.fromHost = true ∧
    i.requester = ⟨clsSup, 10⟩ := by
  simp [SvcItem.fromTile, SvcItem.fromHost, SvcItem.requester, src]

/-- An item of the supervisor queue has left its engine with its completion told. -/
structure SupEnded (e : Nat) (i : SvcItem) (status : Byte) (v : DWord) (s r : State) : Prop where
  freed : EngineFreed e s r
  told : SupCompleted i status v s r
  cache : r.svc.cache = s.svc.cache

/-- An item of the supervisor queue that is done leaves its engine with status 0. -/
theorem State.finish_sup (w : Table.wf regInit s.regs = true) (we : s.EnginesWf) (src : i.source = .sup) (e : Nat)
    (v : DWord) : SupEnded e i 0 v s ((s.engineDone e).finish i v) ∧
      Only [.svc, .regs, .host] s ((s.engineDone e).finish i v) ∧
      MessagesOnly s ((s.engineDone e).finish i v) := by
  obtain ⟨tile, host, -⟩ := SvcItem.of_sup src
  have left := State.engineDone_left w we e
  have told := (s.engineDone e).hostComplete_sup src 0 v
  have ends : (s.engineDone e).finish i v = (s.engineDone e).hostComplete i 0 v := by
    simp [State.finish, tile, host]
  rw [ends]
  obtain ⟨regs, -⟩ := told.regs left.wf
  exact ⟨⟨left.freed.keeps told.engines (regs _ (svcEngItems_not_err e)),
    told.told.trans (congrArg (· ++ _) left.queue),
    told.cache.trans left.cache⟩,
    (left.only.mono (by simp)).trans told.only, (MessagesOnly.of_eq rfl).trans told.messages⟩

/-- A failed item of the supervisor queue leaves its engine with its status, and the failure is recorded. -/
theorem State.failItem_sup (w : Table.wf regInit s.regs = true) (we : s.EnginesWf) (src : i.source = .sup)
    (e info status : Nat) {code : Nat} (hc : code < 2 ^ 16) :
    let r := (s.engineDone e).failItem i code info status
    SupEnded e i (BitVec.ofNat 8 status) 0 s r ∧ 0 < bits (r.reg (svcPage + 0x18)) 31 16 ∧
      Only [.svc, .regs, .con, .host] s r := by
  intro r
  obtain ⟨tile, host, -⟩ := SvcItem.of_sup src
  have left := State.engineDone_left w we e
  obtain ⟨errOnly, errRegs, count⟩ := State.err_recorded left.wf svcPage info hc
  have errWf := State.wf_err left.wf svcPage code info
  have told := ((s.engineDone e).svcErr code info).hostComplete_sup src status 0
  have ends : r = ((s.engineDone e).svcErr code info).hostComplete i status 0 := by
    simp [r, State.failItem, tile, host]
  have svc : ((s.engineDone e).svcErr code info).svc = (s.engineDone e).svc := errOnly.2 .svc (by simp)
  obtain ⟨regs, stat⟩ := told.regs errWf
  have items := svcEngItems_not_err e
  rw [ends]
  refine ⟨⟨left.freed.keeps (told.engines.trans (congrArg Service.engines svc))
      ((regs _ items).trans (errRegs _ items)),
    told.told.trans (congrArg (· ++ _) ((congrArg Service.cplSup svc).trans left.queue)),
    told.cache.trans ((congrArg Service.cache svc).trans left.cache)⟩, ?_,
    ((left.only.mono (by simp)).trans (errOnly.mono (by simp))).trans (told.only.mono (by simp))⟩
  rw [stat]
  exact count

end

end Sys2Proof.Machine
end

section
/-! ## Plaintext requests of a line (R298, R319, R327) -/

namespace Sys2Proof.Machine

section
variable {s : State} {r : Requester} {q slot a b lo hi : Nat} {rd wr : Bool}

theorem State.region_line (line : a / 64 = b / 64) : s.region a = s.region b := by
  simp only [State.region, show a / 2 ^ 20 = b / 2 ^ 20 by omega]

theorem State.integ_line (line : a / 64 = b / 64) : s.integ a = s.integ b := by
  simp only [State.integ, State.region_line line]

theorem State.engineTakes_line (line : a / 64 = b / 64) : s.engineTakes a = s.engineTakes b := by
  simp only [State.engineTakes, State.ddrChannel, show a / 256 = b / 256 by omega]

/-- The checks of R327 are those of the line. -/
theorem State.encRefuse_line (line : a / 64 = b / 64) : s.encRefuse r slot a rd wr = s.encRefuse r slot b rd wr := by
  have cap : s.ddrCap ≤ a ↔ s.ddrCap ≤ b := by
    unfold State.ddrCap
    omega
  simp only [State.encRefuse, cap, line, State.region_line line]

/-- A line of which one byte is plaintext is plaintext. -/
theorem State.Plain.line (plain : s.Plain r q lo hi rd wr) (above : lo ≤ a) (below : a < hi) :
    s.Plain r q (a / 64 * 64) (a / 64 * 64 + 64) rd wr := by
  obtain ⟨halt, key, lock, addr⟩ := plain
  refine ⟨halt, key, lock, fun b first last => ?_⟩
  have same : b / 64 = a / 64 := by omega
  rw [State.encRefuse_line same, State.integ_line same, State.engineTakes_line same]
  exact addr a above below

/-- Rights to read and to write are each of both. -/
theorem State.encRefuse_less (both : s.encRefuse r slot a true true = none) (rd wr : Bool) :
    s.encRefuse r slot a rd wr = none := by
  unfold State.encRefuse at both ⊢
  dsimp only at both ⊢
  split at both
  · cases both
  · next within =>
    rw [if_neg within]
    split at both
    · cases both
    · next g region =>
      split at both
      · cases both
      · next rights =>
        have less : rightsOk (s.rd .encRgnCtrl g) r.cls rd wr = true := by
          simp only [rightsOk, Bool.not_true, Bool.false_or, Bool.not_eq_true', Bool.not_eq_false,
            Bool.and_eq_true] at rights
          simp [rightsOk, rights]
        simpa [less] using both

theorem State.Plain.less (plain : s.Plain r q lo hi true true) (rd wr : Bool) : s.Plain r q lo hi rd wr :=
  ⟨plain.1, plain.2.1, plain.2.2.1, fun a above below =>
    ⟨State.encRefuse_less (plain.2.2.2 a above below).1 rd wr, (plain.2.2.2 a above below).2⟩⟩

/-- A plaintext read of a line that a write is to follow. -/
theorem State.lineRead_rmw (plain : s.Plain r q (a / 64 * 64) (a / 64 * 64 + 64) true true) :
    s.lineRead r 0 a true true .clean = (.ok (s.rawLine a), s.meetChannel a) := by
  have read := State.lineRead_plain (plain.less true false)
  obtain ⟨refuse, -⟩ := plain.awake (a := a) (by omega) (by omega)
  obtain ⟨once, -, -, integ⟩ := (plain.less true false).awake (a := a) (by omega) (by omega)
  have unchecked : (s.meetChannel a).checked a = false := by simp [State.checked, integ a (by omega) (by omega)]
  rw [← read]
  simp only [State.lineRead, refuse, once, State.dramMeets_clean, unchecked, Bool.false_and, Bool.false_eq_true,
    if_false]

/-- The state in which d has been put in its line, whose channel is awake. -/
def State.linePlaced (s : State) (a : Nat) (d : List Byte) : State :=
  (s.meetChannel a).ddrPut (a / 64 * 64) (splice (s.rawLine a) (a % 64) d)

theorem State.linePlaced_eq (s : State) (a : Nat) (d : List Byte) : ∃ m : Memories,
    s.linePlaced a d = { s with mem := m } ∧ m.larder = s.mem.larder ∧
      m.ddr = s.mem.ddr.writeBytes (a / 64 * 64) (splice (s.rawLine a) (a % 64) d) := by
  obtain ⟨m, meets, ddr, larder⟩ := s.meetChannel_eq a
  rw [State.linePlaced, meets]
  exact ⟨_, rfl, larder, congrArg (Memory.writeBytes · _ _) ddr⟩

/-- Of DDR the bytes put in their line change, and no others. -/
theorem State.linePlaced_stored (w : s.mem.ddr.wf = true) {d : List Byte} (fits : a % 64 + d.length ≤ 64) :
    DdrStored a d s (s.linePlaced a d) := by
  obtain ⟨m, stored, -, ddr⟩ := s.linePlaced_eq a d
  rw [stored]
  show m.ddr.readBytes a d.length = d ∧ ∀ b : Nat, b < a ∨ a + d.length ≤ b → m.ddr.read b = s.mem.ddr.read b
  rw [ddr]
  exact Memory.stored_splice w fits

/-- A number stored in a line reads as its bytes there. -/
theorem State.lineVal_rawLine {n : Nat} (fits : a % 64 + n ≤ 64) :
    lineVal (s.rawLine a) (a % 64) n = s.mem.ddr.readNat a n := by
  rw [lineVal, State.rawLine, Memory.readBytes_part _ _ fits, show a / 64 * 64 + a % 64 = a by omega, Memory.readNat]

end

end Sys2Proof.Machine
end

section
/-! ## Memory items of the supervisor queue (R229, R230, R232, R244) -/

namespace Sys2Proof.Machine

section
variable {s : State} {i : SvcItem} {r : Requester} {q a n e : Nat} {f result : Nat → Nat}

/-- The bytes of an item whose address is a multiple of its size lie in one line. -/
theorem SvcItem.within_line (aligned : i.addr % i.bytes = 0) : i.addr % 64 + i.bytes ≤ 64 := by
  have size : bits i.w0 29 28 < 4 := BitVec.isLt _
  unfold SvcItem.bytes at aligned ⊢
  generalize i.addr = a at aligned ⊢
  generalize bits i.w0 29 28 = k at size aligned ⊢
  interval_cases k <;> omega

/-- How an access to plaintext DDR ends: with the value that stood there, in a state in which nothing but the memory
changed; where it writes, f of that value stands there. -/
structure Accessed (a n : Nat) (rd wr : Bool) (f : Nat → Nat) (s : State) (x : MemRes × State) : Prop where
  res : x.1 = .ok (if rd then s.mem.ddr.readNat a n else 0)
  mem : x.2 = { s with mem := x.2.mem }
  larder : x.2.mem.larder = s.mem.larder
  reads : wr = false → x.2.mem.ddr = s.mem.ddr
  writes : wr = true → DdrStored a (leBytes n (f (if rd then s.mem.ddr.readNat a n else 0))) s x.2

/-- A read with no cache between. -/
theorem State.directAccess_read (fits : a % 64 + n ≤ 64)
    (plain : s.Plain r q (a / 64 * 64) (a / 64 * 64 + 64) true false) (f : Nat → Nat) :
    Accessed a n true false f s (s.directAccess r 0 a n true false .clean f) := by
  obtain ⟨m, meets, ddr, larder⟩ := s.meetChannel_eq a
  have access : s.directAccess r 0 a n true false .clean f = (.ok (s.mem.ddr.readNat a n), { s with mem := m }) := by
    simp only [State.directAccess, if_true, State.lineRead_plain plain, Bool.false_eq_true, if_false, meets,
      State.lineVal_rawLine fits]
  rw [access]
  exact ⟨rfl, rfl, larder, fun _ => ddr, nofun⟩

/-- A write with no cache between. -/
theorem State.directAccess_write (w : s.mem.ddr.wf = true) (fits : a % 64 + n ≤ 64)
    (outside : s.inModel (a / 64 * 64) 64 = false)
    (plain : s.Plain r q (a / 64 * 64) (a / 64 * 64 + 64) false true) (f : Nat → Nat) :
    Accessed a n false true f s (s.directAccess r 0 a n false true .clean f) := by
  have access : s.directAccess r 0 a n false true .clean f = (.ok 0, s.linePlaced a (leBytes n (f 0))) := by
    have none : lineVal [] (a % 64) n = 0 := by simp [lineVal, leNat]
    simp only [State.directAccess, Bool.false_eq_true, if_false, if_true, none, State.lineWrite_plain outside plain]
    rfl
  obtain ⟨m, stored, larder, -⟩ := s.linePlaced_eq a (leBytes n (f 0))
  rw [access]
  refine ⟨rfl, ?_, ?_, nofun, fun _ => State.linePlaced_stored w (by simpa using fits)⟩
  · simp only [stored]
  · simp only [stored, larder]

/-- A read and a write of what it read, with no cache between. -/
theorem State.directAccess_rmw (w : s.mem.ddr.wf = true) (fits : a % 64 + n ≤ 64)
    (outside : s.inModel (a / 64 * 64) 64 = false)
    (plain : s.Plain r q (a / 64 * 64) (a / 64 * 64 + 64) true true) (f : Nat → Nat) :
    Accessed a n true true f s (s.directAccess r 0 a n true true .clean f) := by
  obtain ⟨m, meets, ddr, larder⟩ := s.meetChannel_eq a
  let t : State := { s with mem := m }
  have plainNow : t.Plain r q (a / 64 * 64) (a / 64 * 64 + 64) false true := plain.less false true
  have write := State.lineWrite_plain (s := t) outside plainNow (leBytes n (f (s.mem.ddr.readNat a n)))
  have access : s.directAccess r 0 a n true true .clean f =
      (.ok (s.mem.ddr.readNat a n), t.linePlaced a (leBytes n (f (s.mem.ddr.readNat a n)))) := by
    simp only [State.directAccess, if_true, State.lineRead_rmw plain, meets, State.lineVal_rawLine fits]
    rw [write]
    rfl
  have stored : DdrStored a (leBytes n (f (s.mem.ddr.readNat a n))) t _ :=
    State.linePlaced_stored (ddr.symm ▸ w) (by simpa using fits)
  obtain ⟨m', placed, larder', -⟩ := t.linePlaced_eq a (leBytes n (f (s.mem.ddr.readNat a n)))
  rw [access]
  refine ⟨rfl, ?_, ?_, nofun, fun _ => ⟨stored.1, fun b hb =>
    (stored.2 b hb).trans (by rw [show t.mem.ddr = _ from ddr])⟩⟩
  · simp only [placed]
    rfl
  · simp only [placed, larder']
    exact larder

/-- An access of the supervisor queue with no bank in the model cache goes straight to DDR. -/
theorem State.memAccess_sup {rd wr : Bool} (src : i.source = .sup) (banks : s.cacheBanks = [])
    (uncached : s.cached (i.addr / 64) = none) (fits : i.addr % 64 + i.bytes ≤ 64)
    (outside : s.inModel (i.addr / 64 * 64) 64 = false)
    (plain : s.Plain ⟨clsSup, 10⟩ 10 (i.addr / 64 * 64) (i.addr / 64 * 64 + 64) rd wr) :
    s.memAccess i rd wr .clean f = s.directAccess ⟨clsSup, 10⟩ 0 i.addr i.bytes rd wr .clean f := by
  obtain ⟨tile, host, req⟩ := SvcItem.of_sup src
  have refuse := (plain.2.2.2 i.addr (by omega) (by omega)).1
  have key : s.qkey 10 = 0 := plain.2.1
  have untouched : s.hostTouches i.addr i.bytes = s := State.hostTouches_outside (State.inModel_line outside fits)
  have gone : s.expel (i.addr / 64) = (.ok [], s) := by rw [State.expel, uncached]
  -- unfolded as a function: on its arguments the kernel would evaluate the checks of R327 first
  generalize access : State.memAccess = g
  delta State.memAccess at access
  subst access
  simp only [tile, host, req, key, refuse, untouched, banks, gone, plain.1, Bool.false_eq_true,
    if_false, ite_self, List.isEmpty_nil, if_true]

/-- An aligned item of the supervisor queue whose access ends well completes with its result. -/
theorem State.runMem_ends {rd wr : Bool} (w : s.Canonical) (src : i.source = .sup)
    (aligned : i.addr % i.bytes = 0)
    (access : Accessed i.addr i.bytes rd wr f s (s.memAccess i rd wr .clean f)) :
    let old := if rd then s.mem.ddr.readNat i.addr i.bytes else 0
    let t := s.runMem e i rd wr .clean f result
    (EngineFreed e s t ∧ SupCompleted i 0 (BitVec.ofNat 64 (result old)) s t ∧ TilesSame s t ∧
      Only [.svc, .mem, .regs, .host] s t) ∧ t.mem = (s.memAccess i rd wr .clean f).2.mem := by
  intro old t
  obtain ⟨res, mem, -, -, -⟩ := access
  have run : t = ((s.memAccess i rd wr .clean f).2.engineDone e).finish i (BitVec.ofNat 64 (result old)) := by
    refine (if_neg fun off => off aligned).trans ?_
    show State.endMem _ e i (s.memAccess i rd wr .clean f).1 result = _
    rw [res]
    rfl
  rw [run]
  generalize (s.memAccess i rd wr .clean f).2 = u at mem
  have wu : Table.wf regInit u.regs = true := mem ▸ w.1
  have we : u.EnginesWf := mem ▸ w.2.2.2.2.2.2.1
  obtain ⟨ended, only, -⟩ := State.finish_sup wu we src e (BitVec.ofNat 64 (result old))
  have first : Only [.mem] s u := mem ▸ Only.mem s u.mem
  have all : Only [.svc, .mem, .regs, .host] s ((u.engineDone e).finish i (BitVec.ofNat 64 (result old))) :=
    (first.mono (by simp)).trans (only.mono (by simp))
  refine ⟨⟨ended.freed.since (State.reg_congr (first.2 .regs (by simp)) _), ?_, TilesSame.of_only all (by simp), all⟩,
    only.2 .mem (by simp)⟩
  exact ended.told.trans (congrArg (· ++ _) (congrArg Service.cplSup (first.2 .svc (by simp))))

/-- A misaligned item of the supervisor queue fails before it moves anything. -/
theorem State.runMem_misaligned (w : s.Canonical) (src : i.source = .sup) (off : i.addr % i.bytes ≠ 0) (rd wr : Bool)
    (e : Nat) :
    let t := s.runMem e i rd wr .clean f result
    EngineFreed e s t ∧ SupCompleted i 3 0 s t ∧ t.mem = s.mem ∧ 0 < bits (t.reg (svcPage + 0x18)) 31 16 ∧
      TilesSame s t := by
  intro t
  have run : t = (s.engineDone e).failItem i 0x2004 (i.vm + i.addr % 4096) 3 := if_pos off
  obtain ⟨ended, count, only⟩ := State.failItem_sup w.1 w.2.2.2.2.2.2.1 src e (i.vm + i.addr % 4096) 3
    (code := 0x2004) (by decide)
  rw [run]
  exact ⟨ended.freed, ended.told, only.2 .mem (by simp), count, TilesSame.of_only only (by simp)⟩

end

/-- Settles O36: the access of an item is one to a plaintext line, and its end is that of an item of the supervisor
queue; a misaligned item fails before its access. -/
theorem memoryItemsComplete : Obligations.MemoryItemsComplete := by
  unfold Obligations.MemoryItemsComplete
  intro eng i s w he run src banks uncached a n old m x y new plain done misaligned
  have ddrWf := w.2.2.2.2.1
  have mread (type : i.type = 0x01) := onEngine_runs he run type fun i => s.runMem eng i true false .clean id id
  have mwrite (type : i.type = 0x02) := onEngine_runs he run type fun i =>
    s.runMem eng i false true .clean (fun _ => i.low i.tok1) (fun _ => i.low i.tok1)
  have mrmw (type : i.type = 0x03) (op : i.op < 8) : exec (.mrmw eng .clean) s =
      .next (s.runMem eng i true true .clean (fun v => rmwNew i.op i.bytes v (i.low i.tok1) (i.low i.tok2)) id) :=
    (onEngine_runs he run type _).trans (by rw [if_neg (Nat.not_le.mpr op)])
  have access {rd wr : Bool} (f : Nat → Nat) (p : plain rd wr) :
      s.memAccess i rd wr .clean f = s.directAccess ⟨clsSup, 10⟩ 0 i.addr i.bytes rd wr .clean f :=
    State.memAccess_sup src banks uncached (SvcItem.within_line p.1) p.2.2 (p.2.1.line (Nat.le_refl _) (by omega))
  refine ⟨fun type p => ?_, fun type p => ?_, fun type op p => ?_, fun type off => ?_, fun type off => ?_,
    fun type op off => ?_⟩
  · have fits := SvcItem.within_line p.1
    have got := State.directAccess_read fits (p.2.1.line (Nat.le_refl _) (by omega)) id
    rw [← access id p] at got
    obtain ⟨ended, mem⟩ := State.runMem_ends (e := eng) (result := id) w src p.1 got
    exact ⟨_, mread type, ended, (congrArg Memories.ddr mem).trans (got.reads rfl)⟩
  · have fits := SvcItem.within_line p.1
    have got := State.directAccess_write ddrWf fits p.2.2 (p.2.1.line (Nat.le_refl _) (by omega))
      fun _ => i.low i.tok1
    rw [← access _ p] at got
    obtain ⟨ended, mem⟩ := State.runMem_ends (e := eng) (result := fun _ => i.low i.tok1) w src p.1 got
    refine ⟨_, mwrite type, ended, ?_⟩
    rw [DdrStored, mem]
    exact got.writes rfl
  · have fits := SvcItem.within_line p.1
    have got := State.directAccess_rmw ddrWf fits p.2.2 (p.2.1.line (Nat.le_refl _) (by omega))
      fun v => rmwNew i.op i.bytes v (i.low i.tok1) (i.low i.tok2)
    rw [← access _ p] at got
    obtain ⟨ended, mem⟩ := State.runMem_ends (e := eng) (result := id) w src p.1 got
    refine ⟨_, mrmw type op, ended, ?_⟩
    have value : rmwNew i.op i.bytes old (i.low i.tok1) (i.low i.tok2) = new := by
      unfold rmwNew
      rfl
    rw [DdrStored, mem, ← value]
    exact got.writes rfl
  · exact ⟨_, mread type, State.runMem_misaligned w src off true false eng⟩
  · exact ⟨_, mwrite type, State.runMem_misaligned w src off false true eng⟩
  · exact ⟨_, mrmw type op, State.runMem_misaligned w src off true true eng⟩

end Sys2Proof.Machine
end

section
/-! ## A plaintext line stays one when a larder bank is touched (R291, R319, R327) -/

namespace Sys2Proof.Machine

section
variable {s t : State} {r : Requester} {q slot a lo hi : Nat} {rd wr : Bool}

/-- What decides how the encryption engine takes a request is the same: the registers below those of the larder banks,
the state of the engine, and the slice under test. -/
structure SameChecks (s t : State) : Prop where
  regs : ∀ b < 0x90040, t.reg b = s.reg b
  enc : t.enc = s.enc
  bst : t.bst = s.bst

theorem SameChecks.named (h : SameChecks s t) {reg : Reg} {i : Nat} (below : reg.addr i < 0x90040) :
    t.rd reg i = s.rd reg i := h.regs _ below

theorem SameChecks.fld (h : SameChecks s t) {reg : Reg} {i : Nat} (below : reg.addr i < 0x90040) (hi lo : Nat) :
    t.fld reg hi lo i = s.fld reg hi lo i := congrArg (bits · hi lo) (h.named below)

theorem SameChecks.region (h : SameChecks s t) (a : Nat) : t.region a = s.region a := by
  refine List.find?_congr fun g hg => ?_
  have lt := List.mem_range.mp hg
  have ctrl : Reg.addr .encRgnCtrl g < 0x90040 := by simp only [Reg.addr, Reg.row]; omega
  have base : Reg.addr .encRgnBase g < 0x90040 := by simp only [Reg.addr, Reg.row]; omega
  have limit : Reg.addr .encRgnLimit g < 0x90040 := by simp only [Reg.addr, Reg.row]; omega
  simp only [h.named ctrl, h.fld base, h.fld limit]

/-- The row of the region that decides a line. -/
theorem SameChecks.rgnCtrl (h : SameChecks s t) {g : Nat} (region : s.region a = some g) :
    t.rd .encRgnCtrl g = s.rd .encRgnCtrl g := by
  have lt := List.mem_range.mp (List.mem_of_find?_eq_some region)
  exact h.named (by simp only [Reg.addr, Reg.row]; omega)

theorem SameChecks.ddrCap (h : SameChecks s t) : t.ddrCap = s.ddrCap := by
  simp only [State.ddrCap, h.fld (reg := .memCapUse) (i := 0) (by decide)]

theorem SameChecks.slotValid (h : SameChecks s t) (n : Nat) : t.slotValid n = s.slotValid n := by
  simp only [State.slotValid, State.slotKey, h.enc]

theorem SameChecks.integ (h : SameChecks s t) (a : Nat) : t.integ a = s.integ a := by
  unfold State.integ
  rw [h.region a]
  cases region : s.region a with
  | none => rfl
  | some g => exact congrArg rgnInteg (h.rgnCtrl region)

theorem SameChecks.encRefuse (h : SameChecks s t) : t.encRefuse r slot a rd wr = s.encRefuse r slot a rd wr := by
  unfold State.encRefuse
  rw [h.ddrCap, h.region a]
  cases region : s.region a with
  | none => rfl
  | some g => simp only [h.rgnCtrl region, h.slotValid]

theorem SameChecks.engineTakes (h : SameChecks s t) (a : Nat) : t.engineTakes a = s.engineTakes a := by
  have log : t.chanLog2 = s.chanLog2 := by
    simp only [State.chanLog2, h.fld (reg := .memCapInst) (i := 0) (by decide)]
  have chan : t.ddrChannel a = s.ddrChannel a := by simp only [State.ddrChannel, log]
  have lt : s.ddrChannel a < 8 := by
    unfold State.ddrChannel State.chanLog2
    split <;> omega
  simp only [State.engineTakes, State.pageEn, State.underTest, chan, h.bst, h.regs (encPage + 4) (by decide),
    h.regs (chanPage (s.ddrChannel a) + 4) (by unfold chanPage; omega)]

theorem SameChecks.plain (h : SameChecks s t) (hq : q < 16) (plain : s.Plain r q lo hi rd wr) :
    t.Plain r q lo hi rd wr := by
  obtain ⟨halt, key, lock, addr⟩ := plain
  have keyNow : t.qkey q = s.qkey q := h.fld (by simp only [Reg.addr, Reg.row]; omega) _ _
  refine ⟨h.enc ▸ halt, keyNow.trans key, ?_, fun a above below => ?_⟩
  · simp only [State.slotLocked, State.rekeying, h.enc]
    exact lock
  · rw [h.encRefuse, h.integ, h.engineTakes]
    exact addr a above below

theorem State.touchLarder_reg (w : Table.wf regInit s.regs = true) (b : Nat) {a : Nat} (below : a < 0x90040) :
    (s.touchLarder b).reg a = s.reg a := by
  refine (State.reg_wr w).trans (if_neg ?_)
  simp only [Reg.addr, Reg.row]
  omega

theorem State.touchLarder_checks (w : Table.wf regInit s.regs = true) (b : Nat) : SameChecks s (s.touchLarder b) :=
  ⟨fun _ below => State.touchLarder_reg w b below, rfl, rfl⟩

theorem State.wf_touchLarder (w : Table.wf regInit s.regs = true) (b : Nat) :
    Table.wf regInit (s.touchLarder b).regs = true := State.wf_setReg w

end

end Sys2Proof.Machine
end

section
/-! ## Lines filled and written back (R233, R311) -/

namespace Sys2Proof.Machine

section
variable {s : State} {l : Nat} {c : CacheLine}

theorem State.lineBank_mem (banks : s.cacheBanks ≠ []) (l : Nat) : s.lineBank l ∈ s.cacheBanks := by
  have some : 0 < s.cacheBanks.length := List.length_pos_iff.mpr banks
  have below : s.setOf l / 512 < s.cacheBanks.length :=
    Nat.div_lt_of_lt_mul (Nat.mod_lt _ (Nat.mul_pos (by decide) some))
  rw [State.lineBank, List.getD_eq_getElem?_getD, List.getElem?_eq_getElem below]
  exact List.getElem_mem below

theorem State.lineSet_lt (s : State) (l : Nat) : s.lineSet l < 512 := Nat.mod_lt _ (by decide)

/-- The place of a line depends on the banks of the cache. -/
theorem State.linePlace_congr {t : State} (banks : t.cacheBanks = s.cacheBanks) (l : Nat) :
    t.lineBank l = s.lineBank l ∧ t.lineSet l = s.lineSet l := by
  simp only [State.lineBank, State.lineSet, State.setOf, banks, and_self]

/-- A line as it is filled under slot 0. -/
def State.filledLine (s : State) (l : Nat) (d : List Byte) : CacheLine :=
  ⟨l, BitVec.ofNat 512 (leNat d), false, 0, s.lineBank l, s.lineSet l⟩

/-- A line with room in its set joins the cache as its youngest line. -/
theorem State.fillLine_read {t : State} {d : List Byte} {ue : Dram}
    (room : (s.svc.cache.filter fun c => c.bank = s.lineBank l && c.set = s.lineSet l).length < 16)
    (read : s.lineRead reqService 0 (64 * l) true false ue = (.ok d, t)) :
    s.fillLine l 0 ue = (.ok d, { t.touchLarder (t.lineBank l) with
      svc := { t.svc with cache := t.svc.cache ++ [t.filledLine l d] } }) := by
  have free : s.makeRoom l = (.ok [], s) := if_pos room
  simp only [State.fillLine, free, read, State.filledLine, State.touchLarder, State.wr_svc]

/-- A plaintext line that joins the cache. -/
theorem State.fillLine_plain {q : Nat}
    (room : (s.svc.cache.filter fun c => c.bank = s.lineBank l && c.set = s.lineSet l).length < 16)
    (plain : s.Plain reqService q (64 * l) (64 * l + 64) true false) :
    ∃ m : Memories, s.fillLine l 0 .clean = (.ok (s.rawLine (64 * l)),
        { ({ s with mem := m } : State).touchLarder (s.lineBank l) with
          svc := { s.svc with cache := s.svc.cache ++ [s.filledLine l (s.rawLine (64 * l))] } }) ∧
      m.ddr = s.mem.ddr := by
  obtain ⟨m, meets, ddr, -⟩ := s.meetChannel_eq (64 * l)
  have read := State.lineRead_plain (plain.line (a := 64 * l) (Nat.le_refl _) (by omega))
  rw [meets] at read
  obtain ⟨bank, set⟩ := State.linePlace_congr (s := s) (t := { s with mem := m }) rfl l
  refine ⟨m, ?_, ddr⟩
  rw [State.fillLine_read room read, State.filledLine, bank, set, State.filledLine]

/-- A plaintext line written back: its bytes stand in DDR, and it is clean. -/
theorem State.writeBack_plain {q : Nat} (hq : q < 16) (w : Table.wf regInit s.regs = true) (line : c.line = l)
    (slot : c.slot = 0) (outside : s.inModel (64 * l) 64 = false)
    (plain : s.Plain reqService q (64 * l) (64 * l + 64) false true) :
    s.writeBack c =
      (.ok [], ((s.touchLarder c.bank).linePlaced (64 * l) c.bytes).putLine { c with dirty := false }) := by
  have plainNow := (State.touchLarder_checks w c.bank).plain hq plain
  have write := State.lineWrite_plain (s := s.touchLarder c.bank) (a := 64 * l)
    (by rw [show 64 * l / 64 * 64 = 64 * l by omega]; exact outside)
    (plainNow.line (a := 64 * l) (Nat.le_refl _) (by omega)) c.bytes
  unfold State.writeBack
  rw [slot, line, write]
  rfl

end

end Sys2Proof.Machine
end

section
/-! ## Cache items of the supervisor queue (R215, R218, R233 to R235) -/

namespace Sys2Proof.Machine

section
variable {s t : State} {i : SvcItem} {c : CacheLine} {e l : Nat}

/-- A cache item of one line. -/
theorem SvcItem.lines_one (base : i.w1.toNat = 64 * l) (one : i.tok0.toNat % 2 ^ 16 = 1) : i.lines = [l] := by
  rw [SvcItem.lines, base, one, Nat.mul_div_cancel_left _ (by decide)]
  rfl

/-- The class of the supervisor queue has the rights that its item of one line needs. -/
theorem State.ifOwn_granted {write : Bool} (src : i.source = .sup) (lines : i.lines = [l])
    (plain : s.Plain ⟨clsSup, 10⟩ 10 (64 * l) (64 * l + 64) (!write) write) (g : State → State) :
    s.ifOwn e i write g = g s := by
  obtain ⟨-, host, req⟩ := SvcItem.of_sup src
  have key : s.qkey 10 = 0 := plain.2.1
  have refuse : s.encRefuse i.requester (s.qkey i.requester.queue) (64 * l) (!write) write = none := by
    rw [req, key]
    exact (plain.2.2.2 (64 * l) (Nat.le_refl _) (by omega)).1
  have open_ : s.ownRefuse i write = none := by
    refine (if_pos host).trans (List.findSome?_eq_none_iff.mpr fun k hk => ?_)
    obtain rfl := List.mem_singleton.mp (lines ▸ hk)
    simp only [refuse]
  -- unfolded as a function: on its arguments the kernel would evaluate the checks of R327 first
  generalize own : State.ifOwn = f
  delta State.ifOwn at own
  subst own
  simp only [open_]

/-- What holds when a cache item of the supervisor queue has ended in state t. -/
theorem State.endLines_sup (w : Table.wf regInit t.regs = true) (we : t.EnginesWf) (src : i.source = .sup)
    (count : t.rd .svcEngItems e = s.rd .svcEngItems e) (queue : t.svc.cplSup = s.svc.cplSup)
    (tiles : t.tiles = s.tiles) (d : List Byte) :
    let r := t.endLines e i (.ok d)
    (EngineFreed e s r ∧ SupCompleted i 0 0 s r ∧ TilesSame s r) ∧ r.svc.cache = t.svc.cache ∧ r.mem = t.mem ∧
      MessagesOnly t r := by
  intro r
  obtain ⟨ended, only, messages⟩ := State.finish_sup w we src e 0
  have told : SupCompleted i 0 0 s r := ended.told.trans (congrArg (· ++ _) queue)
  exact ⟨⟨ended.freed.since count, told, State.tile_congr ((only.2 .tiles (by simp)).trans tiles)⟩, ended.cache,
    only.2 .mem (by simp), messages⟩

theorem execCfill_granted (he : e < 18) (run : s.running e = some i) (type : i.type = 0x20) (src : i.source = .sup)
    (lines : i.lines = [l]) (plain : s.Plain ⟨clsSup, 10⟩ 10 (64 * l) (64 * l + 64) true false) :
    exec (.cfill e .clean) s = .next (if s.cacheBanks.isEmpty then s.endLines e i (.ok [])
      else (s.fillAll (s.fillSlot i) .clean [l]).2.endLines e i (s.fillAll (s.fillSlot i) .clean [l]).1) := by
  refine (onEngine_runs he run type _).trans (congrArg _ ?_)
  rw [State.ifOwn_granted src lines plain, lines]

/-- A line that is not cached is filled. -/
theorem State.fillAll_miss {d : List Byte} (miss : s.cached l = none) (fill : s.fillLine l 0 .clean = (.ok d, t)) :
    s.fillAll 0 .clean [l] = (.ok [], t) := by
  have ensured : s.ensureLine l 0 .clean = ((.ok d, true), t) := by simp only [State.ensureLine, miss, fill]
  simp only [State.fillAll, ensured]

theorem State.retryTransfers_idle (none : s.host.moving = []) : s.retryTransfers = s := by
  simp [State.retryTransfers, none]

/-- An evict without a porter's transfer that waits ends with its lines. -/
theorem execCevict_granted (he : e < 18) (run : s.running e = some i) (type : i.type = 0x21) (src : i.source = .sup)
    (lines : i.lines = [l]) (plain : s.Plain ⟨clsSup, 10⟩ 10 (64 * l) (64 * l + 64) false true) {d : List Byte}
    (evict : s.evictAll (bit i.tok1 0) [l] (.ok []) = (.ok d, t))
    (idle : (t.endLines e i (.ok d)).host.moving = []) :
    exec (.cevict e) s = .next (t.endLines e i (.ok d)) := by
  refine (onEngine_runs he run type _).trans (congrArg _ ?_)
  rw [State.ifOwn_granted src lines plain, lines]
  simp only [evict, idle, List.find?_nil]
  exact State.retryTransfers_idle idle

theorem State.evictAll_drop (hit : s.cached l = some c) : s.evictAll true [l] (.ok []) = (.ok [], s.uncache l) := by
  simp only [State.evictAll, hit, if_true]

theorem State.evictAll_dirty (hit : s.cached l = some c) (dirty : c.dirty = true) :
    s.evictAll false [l] (.ok []) = s.writeBack c := by
  simp only [State.evictAll, hit, dirty, Bool.false_eq_true, if_false, if_true, EncRes.isOk]

theorem MessagesOnly.moving (h : MessagesOnly s t) : t.host.moving = s.host.moving := by
  rw [show t.host = _ from h]

end

/-- Settles O38: a fill reads its line and puts it behind the others, an evict writes its line back or drops it, and the
item ends as one of the supervisor queue does. -/
theorem cacheItemsMoveLines : Obligations.CacheItemsMoveLines := by
  unfold Obligations.CacheItemsMoveLines
  intro eng l c i s canon he run src base one done granted inSet
  have w := canon.1
  have we : s.EnginesWf := canon.2.2.2.2.2.2.1
  have ddrWf := canon.2.2.2.2.1
  have lines := SvcItem.lines_one base one
  have engBelow : Reg.addr .svcEngItems eng < 0x90040 := by
    simp only [Reg.addr, Reg.row]
    omega
  refine ⟨fun type own miss banks room plain => ?_, fun type own banks => ?_, fun moving type own hit =>
    ⟨fun keep dirty slot plain outside => ?_, fun inval => ?_⟩⟩
  · obtain ⟨m, fill, ddr⟩ := State.fillLine_plain room plain
    have slot : s.fillSlot i = 0 := by
      have queue : s.fillSlot i = s.qkey 10 := by simp [State.fillSlot, src, SvcItem.of_sup src]
      exact queue.trans own.2.1
    have exec_ := execCfill_granted he run type src lines own
    rw [if_neg (by simpa using banks), slot, State.fillAll_miss miss fill] at exec_
    obtain ⟨ended, cache, mem, -⟩ := State.endLines_sup (s := s) (e := eng) (i := i)
      (t := { ({ s with mem := m } : State).touchLarder (s.lineBank l) with
        svc := { s.svc with cache := s.svc.cache ++ [s.filledLine l (s.rawLine (64 * l))] } })
      (State.wf_touchLarder (s := { s with mem := m }) w _) we src
      (State.touchLarder_reg (s := { s with mem := m }) w _ engBelow) rfl rfl []
    refine ⟨_, exec_, ended, (congrArg Memories.ddr mem).trans ddr, s.lineBank l, State.lineBank_mem banks l,
      s.lineSet l, s.lineSet_lt l, cache.trans ?_⟩
    rw [State.filledLine, State.rawLine, show 64 * l / 64 * 64 = 64 * l by omega, Memory.readNat]
  · have exec_ := execCfill_granted he run type src lines own
    rw [if_pos (by simp [banks])] at exec_
    obtain ⟨ended, cache, mem, -⟩ := State.endLines_sup w we src (e := eng) rfl rfl rfl []
    exact ⟨_, exec_, ended, cache, mem⟩
  · have line : c.line = l := of_decide_eq_true (List.find?_some (p := fun d : CacheLine => d.line = l) hit)
    let b := s.touchLarder c.bank
    let t := (b.linePlaced (64 * l) c.bytes).putLine { c with dirty := false }
    obtain ⟨m, placed, -, -⟩ := b.linePlaced_eq (64 * l) c.bytes
    have evict : s.evictAll (bit i.tok1 0) [l] (.ok []) = (.ok [], t) := by
      rw [keep, State.evictAll_dirty hit dirty]
      exact State.writeBack_plain (by decide) w line slot outside plain
    have regs : t.regs = b.regs := by simp only [t, placed]; rfl
    have engines : t.svc.engines = s.svc.engines := by simp only [t, placed]; rfl
    have host : t.host = s.host := by simp only [t, placed]; rfl
    have queue : t.svc.cplSup = s.svc.cplSup := by simp only [t, placed]; rfl
    have lineCache : t.svc.cache =
        s.svc.cache.map fun d => if d.line = c.line then { c with dirty := false } else d := by
      simp only [t, placed]; rfl
    obtain ⟨ended, cache, mem, messages⟩ := State.endLines_sup (s := s) (t := t) (e := eng)
      (regs ▸ State.wf_touchLarder w _) (by rw [State.EnginesWf, engines]; exact we) src
      ((State.reg_congr regs _).trans (State.touchLarder_reg w _ engBelow)) queue
      (by simp only [t, placed]; rfl) []
    have idle : (t.endLines eng i (.ok [])).host.moving = [] := by
      rw [messages.moving]
      exact (congrArg HostPort.moving host).trans moving
    have full : 64 * l % 64 + c.bytes.length ≤ 64 := by simp [CacheLine.bytes]
    have stored : DdrStored (64 * l) c.bytes b (b.linePlaced (64 * l) c.bytes) :=
      State.linePlaced_stored (s := b) ddrWf full
    refine ⟨_, execCevict_granted he run type src lines own evict idle, ended, ?_, fun d hd same => ?_, ?_⟩
    · rw [DdrStored, mem]
      exact stored
    · rw [cache, lineCache] at hd
      obtain ⟨k, -, rfl⟩ := List.mem_map.mp hd
      by_cases named : k.line = c.line
      · rw [if_pos named]
      · rw [if_neg named] at same
        exact absurd (same.trans line.symm) named
    · rw [cache, lineCache, List.length_map]
  · have evict : s.evictAll (bit i.tok1 0) [l] (.ok []) = (.ok [], s.uncache l) := by
      rw [inval]
      exact State.evictAll_drop hit
    obtain ⟨ended, cache, mem, messages⟩ := State.endLines_sup (s := s) (t := s.uncache l) (e := eng) w we src
      rfl rfl rfl []
    exact ⟨_, execCevict_granted he run type src lines own evict (messages.moving.trans moving), ended, mem, cache⟩

end Sys2Proof.Machine
end

section
/-! ## Completions that their tile takes (R120, R231) -/

namespace Sys2Proof.Machine

section
variable {s q r : State} {i : SvcItem} {k e a : Nat} {p : Packet}

/-- The completion of a tile's item is one that tile k, which serves CVTILE, takes at once (R135). -/
structure State.Lands (s : State) (i : SvcItem) (k : Nat) : Prop where
  tile : i.fromTile = true
  serves : s.ptile i.cvtile = some k
  live : s.run.state ≠ .recover
  now : i.batch = (s.tile k).xbatch
  phase : (s.tile k).phase ≠ .batchEnd
  power : (s.tile k).power ≠ .sleep

/-- The registers below those of the dispatcher and the tiles tell which tile serves a virtual tile. -/
theorem State.ptile_keeps {v : Nat} (serves : s.ptile v = some k) (tiles : r.tiles = s.tiles)
    (regs : ∀ b < svcPage, r.reg b = s.reg b) : r.ptile v = some k := by
  have below : v < 128 := by
    unfold State.ptile at serves
    dsimp only at serves
    split at serves
    · next h => exact h.1
    · cases serves
  have rd : r.rd .glbVmap v = s.rd .glbVmap v := regs _ (by simp only [Reg.addr, Reg.row, svcPage]; omega)
  rw [← serves]
  simp only [State.ptile, rd, State.tile_congr tiles]

theorem State.Lands.keeps (h : s.Lands i k) (tiles : r.tiles = s.tiles) (run : r.run = s.run)
    (regs : ∀ b < svcPage, r.reg b = s.reg b) (v : DWord) : r.Lands { i with result := v } k := by
  have tile := State.tile_congr tiles k
  exact ⟨h.tile, State.ptile_keeps h.serves tiles regs, run ▸ h.live, tile ▸ h.now, tile ▸ h.phase, tile ▸ h.power⟩

/-- A completion that lands frees its entry and is applied. -/
theorem State.sendCompletion_lands (h : s.Lands i k) :
    s.sendCompletion i = (s.dropItem i.id).applyPacket k (s.cplPacket i) := by
  have place : (s.tile k).place (s.cplPacket i) = (.accepted, some false) :=
    Tile.place_applied h.now h.phase h.power
  have serves : s.ptile (s.cplPacket i).dstVt = some k := h.serves
  unfold State.sendCompletion
  simp only [serves, h.live, false_and, if_false, place]

/-- The errors of a packet are recorded on pages of its tile. -/
theorem State.applyPacket_low (w : Table.wf regInit s.regs = true) (below : a < 0x1000000) :
    (s.applyPacket k p).reg a = s.reg a := by
  have err {s : State} (w : Table.wf regInit s.regs = true) (b : Bool) (pg code info : Nat) :
      let t : State := if b then (s.tileErr k pg code info).haltRequest 8 else s
      Table.wf regInit t.regs = true ∧ t.reg a = s.reg a := by
    cases b
    · exact ⟨w, rfl⟩
    · refine ⟨?_, (State.haltRequest_reg _ _ _).trans (State.err_regsBut w _ _ _ _ ?_)⟩
      · show Table.wf regInit (State.haltRequest _ _).regs = true
        rw [State.haltRequest_regs]
        exact State.wf_err w _ _ _
      · simp only [errRegs, tilePage, List.mem_cons, List.not_mem_nil, or_false, not_or]
        omega
  obtain ⟨w1, first⟩ := err (s := s.setTile k (s.tileTaken k p)) w ((s.tile k).take p).2.1 3 0x1012
    (srcInfo p + p.index * 2 ^ 11)
  exact (err w1 _ _ _ _).2.trans first

/-- What a packet leaves in its tile depends on the tiles and the set-reset. -/
theorem State.applyPacket_tile_congr (w : s.TilesWf) (tiles : r.tiles = s.tiles) (ldr : r.ldr = s.ldr) :
    (r.applyPacket k p).tile k = (s.applyPacket k p).tile k := by
  have wr : r.TilesWf := by rw [State.TilesWf, tiles]; exact w
  rw [State.applyPacket_tile w, State.applyPacket_tile wr, State.tileTaken, State.tileTaken, ldr,
    State.tile_congr tiles]

/-- An item of a tile has left its engine, and tile k has taken its completion. -/
structure ItemLanded (e k : Nat) (i : SvcItem) (s r : State) : Prop where
  freed : EngineFreed e s r
  gone : i.id < s.svc.nextId → ∀ j ∈ r.svc.store, j.id ≠ i.id
  tile : r.tile k = (s.applyPacket k (s.cplPacket i)).tile k
  others : TilesBut k s r
  regs : ∀ b < 0x1000000, b ≠ Reg.addr .svcEngItems e → r.reg b = s.reg b
  mem : r.mem = s.mem

theorem State.finish_lands (w : Table.wf regInit s.regs = true) (we : s.EnginesWf) (wt : s.TilesWf)
    (lands : s.Lands i k) (he : e < 18) (v : DWord) :
    ItemLanded e k { i with result := v } s ((s.engineDone e).finish i v) := by
  let u := s.engineDone e
  let c : SvcItem := { i with result := v }
  have left : EngineLeft e s u := State.engineDone_left w we e
  have landsNow : u.Lands c k := lands.keeps (left.only.2 .tiles (by simp)) (left.only.2 .run (by simp))
    (fun b below => left.regs b (by simp only [Reg.addr, Reg.row, svcPage, List.mem_singleton] at below ⊢; omega)) v
  have freed := u.dropItem_freed i.id
  have packet : u.cplPacket c = s.cplPacket c := by
    have chain : u.chain = s.chain := left.only.2 .chain (by simp)
    rw [State.cplPacket, State.cplPacket, State.devId, State.devId, chain]
  have ends : u.finish i v = (u.dropItem i.id).applyPacket k (s.cplPacket c) :=
    packet ▸ (if_pos lands.tile).trans (State.sendCompletion_lands landsNow)
  rw [ends]
  generalize u.dropItem i.id = d at freed
  have tiles : d.tiles = s.tiles := (freed.only.2 .tiles (by simp)).trans (left.only.2 .tiles (by simp))
  have ldr : d.ldr = s.ldr := (freed.only.2 .ldr (by simp)).trans (left.only.2 .ldr (by simp))
  have regs : d.regs = u.regs := freed.only.2 .regs (by simp)
  have applied := d.applyPacket_only k (s.cplPacket c)
  have low {b : Nat} (below : b < 0x1000000) : (d.applyPacket k (s.cplPacket c)).reg b = u.reg b :=
    (State.applyPacket_low (regs ▸ left.wf) below).trans (State.reg_congr regs b)
  have svc : (d.applyPacket k (s.cplPacket c)).svc = d.svc := applied.2 .svc (by simp)
  have engines : d.svc.engines = u.svc.engines := by rw [freed.svc]
  refine ⟨left.freed.keeps ((congrArg Service.engines svc).trans engines)
      (low (by simp only [Reg.addr, Reg.row]; omega)), fun old => ?_, State.applyPacket_tile_congr wt tiles ldr,
    fun j other => ?_, fun b below off => (low below).trans (left.regs b (by simpa using off)), ?_⟩
  · rw [svc]
    exact freed.gone (left.nextId.symm ▸ old)
  · rw [State.applyPacket_others (by rw [State.TilesWf, tiles]; exact wt) j other, State.tile_congr tiles]
  · exact (applied.2 .mem (by simp)).trans ((freed.only.2 .mem (by simp)).trans (left.only.2 .mem (by simp)))

end

end Sys2Proof.Machine
end

section
/-! ## Transactor rings that move (R236, R237) -/

namespace Sys2Proof.Machine

section
variable {s q : State} {i : SvcItem} {r : Requester} {ptr : Reg} {c k e a n : Nat} {v : Word} {d : List Byte}

/-- An item has moved its data, and the pointer register of its ring holds v. -/
structure RingMoved (ptr : Reg) (c : Nat) (v : Word) (s q : State) : Prop where
  only : Only [.regs, .svc, .mem, .host, .prf] s q
  engines : q.svc.engines = s.svc.engines
  nextId : q.svc.nextId = s.svc.nextId
  wf : Table.wf regInit q.regs = true
  regs : RegsBut [ptr.addr c, svcPage + 0xC] s q
  ptr : q.rd ptr c = v

/-- The end of an item that has moved its ring: its tile takes the completion, and the ring stays as it is. -/
theorem RingMoved.ends (moved : RingMoved ptr c v s q) (w : s.Canonical) (he : e < 18)
    (low : svcPage + 0x10 ≤ ptr.addr c) (high : ptr.addr c < 0x11000) (lands : s.Lands i k) (old : i.id < s.svc.nextId)
    (result : DWord) :
    let t := (q.engineDone e).finish i result
    (EngineFreed e s t ∧ (∀ j ∈ t.svc.store, j.id ≠ i.id) ∧ TilesBut k s t ∧
      (t.tile k).flag i.cflag = min 15 ((s.tile k).flag i.cflag + 1)) ∧
    t.rd ptr c = v ∧ t.mem = q.mem ∧
    (i.ckind = 1 → i.cslot < 64 → (t.tile k).slot i.cslot = result) := by
  intro t
  have tiles : q.tiles = s.tiles := moved.only.2 .tiles (by simp)
  have wt : q.TilesWf := by rw [State.TilesWf, tiles]; exact w.2.1
  have we : q.EnginesWf := by rw [State.EnginesWf, moved.engines]; exact w.2.2.2.2.2.2.1
  have landsNow : q.Lands i k := lands.keeps tiles (moved.only.2 .run (by simp)) (fun b below => moved.regs b (by
    simp only [List.mem_cons, List.not_mem_nil, or_false, not_or]
    omega)) i.result
  have landed : ItemLanded e k { i with result := result } q t := State.finish_lands moved.wf we wt landsNow he result
  have tile : t.tile k = (s.applyPacket k (q.cplPacket { i with result := result })).tile k :=
    landed.tile.trans (State.applyPacket_tile_congr w.2.1 tiles (moved.only.2 .ldr (by simp)))
  have count : q.rd .svcEngItems e = s.rd .svcEngItems e := moved.regs _ (by
    simp only [Reg.addr, Reg.row, svcPage, List.mem_cons, List.not_mem_nil, or_false, not_or] at high ⊢
    omega)
  refine ⟨⟨landed.freed.since count, landed.gone (moved.nextId.symm ▸ old), fun j other => ?_, ?_⟩, ?_, landed.mem,
    fun kind slot => ?_⟩
  · rw [landed.others j other, State.tile_congr tiles]
  · rw [tile]
    exact State.applyPacket_flag w
  · refine (landed.regs _ (by omega) ?_).trans moved.ptr
    simp only [Reg.addr, Reg.row] at high ⊢
    omega
  · rw [tile]
    exact (State.applyPacket_mailbox w (if_pos kind) slot).1

/-- The device half of a pointer register takes a place of the ring, and the host half stays. -/
theorem ptr_moved (p : Word) (place : Nat) (size : n ≤ 65536) (some : 0 < n) :
    bits (setBits p 15 0 (place % n)) 15 0 = place % n ∧
    bits (setBits p 15 0 (place % n)) 31 16 = bits p 31 16 :=
  ⟨bits_setBits_same ((Nat.mod_lt place some).trans_le size) (by decide),
    bits_setBits_other (by decide) (by decide)⟩

/-- A plaintext write of a service engine within one line: the clean copy of the line is gone, and d stands in it. -/
theorem State.ddrWrite_line (queue : r.queue ≠ 0) (some : 0 < d.length) (line : a % 64 + d.length ≤ 64)
    {slot : Nat} (outside : s.inModel (a / 64 * 64) 64 = false)
    (plain : s.Plain r slot (a / 64 * 64) (a / 64 * 64 + 64) false true) :
    s.ddrWrite r 0 a d .clean = (.ok [], (s.snoop a).linePlaced a d) := by
  have write := State.lineWrite_plain (s := s.snoop a) outside plain d
  rw [State.ddrWrite, lineParts_one some line, State.ddrWriteParts, List.take_length, write]
  simp only [queue, if_false, State.ddrWriteParts]
  rfl

end

end Sys2Proof.Machine
end

section
/-! ## Transactor items (R231, R236, R237) -/

namespace Sys2Proof.Machine

section
variable {s : State} {i : SvcItem} {k e a n dev c : Nat}

theorem SvcItem.op_lt (i : SvcItem) : i.op < 16 := BitVec.isLt _

theorem SvcItem.record_length (i : SvcItem) : i.record.length = 16 := by simp [SvcItem.record]

/-- A place of a ring lies within one line. -/
theorem State.ringPlace_line (s : State) (lo hi : Reg) (c dev : Nat) {size : Nat} (h : size = 8 ∨ size = 16) :
    (s.ringBase lo hi c + size * dev) % 64 + size ≤ 64 := by
  unfold State.ringBase
  rcases h with rfl | rfl <;> omega

/-- The state in which the record of an item stands in its ring at a, and the ring's pointer register holds v. -/
def State.xoutAppended (s : State) (i : SvcItem) (a : Nat) (v : Word) (first : Bool) : State :=
  let t := ((s.snoop a).linePlaced a i.record).wr .svcXoutPtr v i.op
  (if first then t.cause svcPage 1 else t).xoutRan i

theorem State.xoutAppended_moved (w : Table.wf regInit s.regs = true) (i : SvcItem) (a : Nat) (v : Word)
    (first : Bool) : RingMoved .svcXoutPtr i.op v s (s.xoutAppended i a v first) ∧
      (s.xoutAppended i a v first).mem = ((s.snoop a).linePlaced a i.record).mem := by
  obtain ⟨m, placed, -, -⟩ := (s.snoop a).linePlaced_eq a i.record
  let u : State := { s.snoop a with mem := m }
  let t : State := u.wr .svcXoutPtr v i.op
  have wu : Table.wf regInit u.regs = true := w
  have wt : Table.wf regInit t.regs = true := State.wf_setReg w
  have only : Only [.regs, .svc, .mem] s t :=
    (((Only.svc s _).mono (by simp)).trans ((Only.mem (s.snoop a) m).mono (by simp))).trans
      ((u.setReg_only _ _).mono (by simp))
  have regs : RegsBut [Reg.addr .svcXoutPtr i.op, svcPage + 0xC] s t :=
    (State.setReg_regsBut wu _ v).mono (by simp)
  have reads : t.rd .svcXoutPtr i.op = v := State.rd_wr wu
  unfold State.xoutAppended
  rw [placed]
  cases first with
  | false => exact ⟨⟨(only.mono (by simp)).trans ((Only.prf t _).mono (by simp)), rfl, rfl, wt, regs, reads⟩, rfl⟩
  | true =>
    have caused : Only [.regs, .host] t (t.cause svcPage 1) := t.raise_only svcPage (flagAt true 1)
    have svc : (t.cause svcPage 1).svc = t.svc := caused.2 .svc (by simp)
    have engines : (t.cause svcPage 1).svc.engines = t.svc.engines := by rw [svc]
    have nextId : (t.cause svcPage 1).svc.nextId = t.svc.nextId := by rw [svc]
    have stays := State.cause_regsBut wt svcPage 1
    refine ⟨⟨((only.mono (by simp)).trans (caused.mono (by simp))).trans ((Only.prf _ _).mono (by simp)),
      engines, nextId, State.wf_raise wt _ _,
      regs.trans (stays.mono (by simp)), (stays _ ?_).trans reads⟩, caused.2 .mem (by simp)⟩
    simp only [Reg.addr, Reg.row, svcPage, List.mem_singleton]
    omega

/-- An item whose ring is open and has room appends its record and ends. -/
theorem State.runXout_appends (redo : s.prf.xoutRedo = []) (open_ : bit (s.rd .svcXoutBaseLo i.op) 0 = true)
    (size : n = 2 ^ s.fld .svcXchSize 4 0 i.op) (place : dev = ptrDev (s.rd .svcXoutPtr i.op) % n)
    (room : (dev + 1) % n ≠ ptrHost (s.rd .svcXoutPtr i.op) % n)
    (at_ : a = s.ringBase .svcXoutBaseLo .svcXoutBaseHi i.op + 16 * dev)
    (outside : s.inModel (a / 64 * 64) 64 = false) (plain : s.Plain reqService 9 a (a + 16) false true) :
    ∃ first, s.runXout e i .clean = ((s.xoutAppended i a
      (setBits (s.rd .svcXoutPtr i.op) 15 0 ((dev + 1) % n)) first).engineDone e).finish i 0 := by
  have line : a % 64 + i.record.length ≤ 64 := i.record_length ▸ at_ ▸ State.ringPlace_line _ _ _ _ _ (.inr rfl)
  have write := State.ddrWrite_line (s := s) (r := reqService) (d := i.record) (by decide)
    (by rw [i.record_length]; decide) line outside (plain.line (Nat.le_refl _) (by omega))
  have key : s.qkey 9 = 0 := plain.2.1
  have new : s.xoutRepeated i = false := by simp [State.xoutRepeated, redo]
  refine ⟨decide (dev = ptrHost (s.rd .svcXoutPtr i.op) % n), ?_⟩
  subst size place at_
  generalize run : State.runXout = f
  delta State.runXout at run
  subst run
  dsimp only
  rw [if_neg (by simp [new]), if_neg (by simp [open_]), if_neg room, key, write]
  simp only [State.xoutAppended, decide_eq_true_eq]

/-- An item whose ring is full is parked. -/
theorem State.runXout_full (redo : s.prf.xoutRedo = []) (open_ : bit (s.rd .svcXoutBaseLo i.op) 0 = true)
    (size : n = 2 ^ s.fld .svcXchSize 4 0 i.op)
    (full : (ptrDev (s.rd .svcXoutPtr i.op) % n + 1) % n = ptrHost (s.rd .svcXoutPtr i.op) % n) :
    s.runXout e i .clean = s.park e i.op i := by
  have new : s.xoutRepeated i = false := by simp [State.xoutRepeated, redo]
  subst size
  refine (if_neg (by simp [new])).trans ((if_neg (by simp [open_])).trans (if_pos full))

theorem State.item_of_running (run : s.running e = some i) : i ∈ s.svc.store := by
  obtain ⟨id, -, item⟩ := Option.bind_eq_some_iff.mp run
  exact List.mem_of_find?_eq_some item

/-- A parked item stands in the store as parked, behind the others of the park list, and its engine is free. -/
theorem State.park_spec (we : s.EnginesWf) (stored : i ∈ s.svc.store) (e c : Nat) :
    Table.get (fun _ => none) (s.park e c i).svc.engines e = none ∧
    (∃ j ∈ (s.park e c i).svc.store, j = { i with stage := .parked c }) ∧
    (s.park e c i).svc.parkOrder = s.svc.parkOrder ++ [i.id] ∧ Only [.svc] s (s.park e c i) :=
  ⟨(Table.get_set we).trans (if_pos rfl), ⟨_, List.mem_map.mpr ⟨i, stored, if_pos rfl⟩, rfl⟩, rfl, Only.svc s _⟩

/-- The state in which an item has taken the word at a, and the ring's pointer register holds v. -/
def State.xinTaken (s : State) (m : Memories) (i : SvcItem) (v : Word) : State :=
  ({ s with mem := m } : State).wr .svcXinPtr v i.op

theorem State.xinTaken_moved (w : Table.wf regInit s.regs = true) (m : Memories) (i : SvcItem) (v : Word) :
    RingMoved .svcXinPtr i.op v s (s.xinTaken m i v) := by
  let u : State := { s with mem := m }
  have wu : Table.wf regInit u.regs = true := w
  exact ⟨((Only.mem s m).mono (by simp)).trans ((u.setReg_only _ _).mono (by simp)), rfl, rfl, State.wf_setReg wu,
    (State.setReg_regsBut wu _ v).mono (by simp), State.rd_wr wu⟩

/-- An item whose ring is open and holds a word takes it and ends; without a log nothing is logged. -/
theorem State.runXin_takes (live : s.prf.replay = []) (off : s.inputOn = false)
    (open_ : bit (s.rd .svcXinBaseLo i.op) 0 = true) (size : n = 2 ^ s.fld .svcXchSize 20 16 i.op)
    (place : dev = ptrDev (s.rd .svcXinPtr i.op) % n) (some : dev ≠ ptrHost (s.rd .svcXinPtr i.op) % n)
    (at_ : a = s.ringBase .svcXinBaseLo .svcXinBaseHi i.op + 8 * dev)
    (plain : s.Plain reqService 9 a (a + 8) true false) :
    ∃ m : Memories, s.runXin e i .clean = ((s.xinTaken m i
      (setBits (s.rd .svcXinPtr i.op) 15 0 ((dev + 1) % n))).engineDone e).finish i
        (BitVec.ofNat 64 (s.mem.ddr.readNat a 8)) ∧ m.ddr = s.mem.ddr := by
  have line : a % 64 + 8 ≤ 64 := at_ ▸ State.ringPlace_line _ _ _ _ _ (.inl rfl)
  obtain ⟨m, read, ddr, -⟩ := State.ddrRead_plain line (plain.line (Nat.le_refl _) (by omega))
  have key : s.qkey 9 = 0 := plain.2.1
  have fresh : s.loggedXin i = none := by simp [State.loggedXin, live]
  refine ⟨m, ?_, ddr⟩
  subst size place at_
  generalize run : State.runXin = f
  delta State.runXin at run
  subst run
  dsimp only
  rw [fresh, key]
  dsimp only
  rw [if_neg (by simp [open_]), if_neg some, read]
  dsimp only
  rw [State.logXin, State.logInput_off (by exact off), State.xinTaken, Memory.readNat]

end

/-- Settles O37: the item moves its word or record and the pointer of its ring, and ends with a completion that its
tile takes; a full ring parks it. -/
theorem transactorItemsMoveData : Obligations.TransactorItemsMoveData := by
  unfold Obligations.TransactorItemsMoveData
  intro eng t i s canon he run c x lands landed sizeO sizeI devO devI hostO hostI atO atI
  have w := canon.1
  have channel := i.op_lt
  have takes (lo : lands) : s.Lands i t := ⟨lo.1, lo.2.2.1, lo.2.2.2.1, lo.2.2.2.2.1, lo.2.2.2.2.2.1, lo.2.2.2.2.2.2⟩
  refine ⟨fun type lo redo open_ room size plain outside => ?_, fun type redo open_ full => ?_,
    fun type lo live off open_ some size plain kind slot => ?_⟩
  · obtain ⟨first, ends⟩ := State.runXout_appends (e := eng) (n := sizeO) (dev := devO) (a := atO) redo open_ rfl rfl
      room rfl outside plain
    obtain ⟨moved, mem⟩ := State.xoutAppended_moved w i atO
      (setBits (s.rd .svcXoutPtr c) 15 0 ((devO + 1) % sizeO)) first
    obtain ⟨landed, ptr, memEnd, -⟩ := moved.ends canon he (by simp only [Reg.addr, Reg.row, svcPage]; omega)
      (by simp only [Reg.addr, Reg.row]; omega) (takes lo) lo.2.1 0
    have fits : atO % 64 + i.record.length ≤ 64 := i.record_length ▸ State.ringPlace_line _ _ _ _ _ (.inr rfl)
    have stored : DdrStored atO i.record s ((s.snoop atO).linePlaced atO i.record) :=
      State.linePlaced_stored (s := s.snoop atO) canon.2.2.2.2.1 fits
    obtain ⟨dev, host⟩ := ptr_moved (s.rd .svcXoutPtr c) (devO + 1) size (Nat.two_pow_pos _)
    refine ⟨_, (onEngine_runs he run type _).trans (congrArg _ ends), landed, (congrArg (bits · 15 0) ptr).trans dev,
      (congrArg (bits · 31 16) ptr).trans host, ?_⟩
    rw [DdrStored, memEnd, mem]
    exact stored
  · exact ⟨_, (onEngine_runs he run type _).trans (congrArg _ (State.runXout_full redo open_ rfl full)),
      State.park_spec canon.2.2.2.2.2.2.1 (State.item_of_running run) eng c⟩
  · obtain ⟨m, ends, ddr⟩ := State.runXin_takes (e := eng) (n := sizeI) (dev := devI) (a := atI) live off open_ rfl rfl
      some rfl plain
    have moved := State.xinTaken_moved w m i (setBits (s.rd .svcXinPtr c) 15 0 ((devI + 1) % sizeI))
    obtain ⟨landed, ptr, memEnd, mailbox⟩ := moved.ends canon he (by simp only [Reg.addr, Reg.row, svcPage]; omega)
      (by simp only [Reg.addr, Reg.row]; omega) (takes lo) lo.2.1 (BitVec.ofNat 64 (s.mem.ddr.readNat atI 8))
    obtain ⟨dev, host⟩ := ptr_moved (s.rd .svcXinPtr c) (devI + 1) size (Nat.two_pow_pos _)
    exact ⟨_, (onEngine_runs he run type _).trans (congrArg _ ends), landed, (congrArg (bits · 15 0) ptr).trans dev,
      (congrArg (bits · 31 16) ptr).trans host, mailbox kind slot, (congrArg Memories.ddr memEnd).trans ddr⟩

end Sys2Proof.Machine
end
